-- ==== Sys2Proof/Word.lean ====
section
/-! DEFINITION. The word types of the module (00_scope R2, 03 R52): 64-bit registers, bytes. -/
namespace Sys2Proof

/-- A 64-bit register or register-mapped value. -/
abbrev W64 := BitVec 64

/-- One byte of an addressed store. -/
abbrev Byte := BitVec 8

/-- A 40-bit physical address (01 R12). -/
abbrev PAddr := BitVec 40

/-- A 32-bit value of a keyed register (00 R5). -/
abbrev W32 := BitVec 32

end Sys2Proof
end

