-- ==== Sys2Proof/Syntax.lean ====
section
/-! DEFINITION. The commands of spec/opcode_table.json, one constructor per row, with the row's operands.
The operand types carry the ranges the spec gives (group 0-31, cluster 0-15, port 0-15, ...), so that a command names
only elements that exist. -/
namespace Sys2Proof

/-- An instruction-issuing engine: a logical core, the Trust Core, or Juggler Jgg.k (01 R10). -/
inductive Engine where
  | lcore (l : Fin 128)
  | trust
  | juggler (g : Fin 32) (k : Fin 5)
deriving DecidableEq, Repr

/-- What every instruction carries whatever its operation: the engine, its length in bytes (03 R54: at most 16), and
whether the GROUP byte 0xE0 stands before its opcode (03 R57). -/
structure Iss where
  eng : Engine
  len : Fin 17
  grp : Bool
deriving DecidableEq, Repr

/-- The identity a request carries (15 R394, R395; 01 R13): partition ID, world, the unit ID its ELOG entries name, and
the logical core when one made it. -/
structure Req where
  pid   : BitVec 8
  world : Bool
  unit  : BitVec 12
  lcore : Option (Fin 128)
deriving DecidableEq, Repr

/-- A command of a service slot (14 Table 3). -/
inductive SvcCmd where
  | claim | release | create | start | stop | destroy | epreset
deriving DecidableEq, Repr

/-- A command that another slot receives in the same cycle (14 R370). -/
structure SvcMeet where
  r   : Req
  k   : Fin 129
  cmd : SvcCmd
deriving DecidableEq, Repr

/-- An event that meets a send at its mailbox in the same cycle (14 R380): a command of a service slot that resets endpoints, a take, the
expiry of MBTO, another send. -/
inductive MbMeet where
  | reset (x : SvcMeet)
  | take (r : Req)
  | expiry
  | send (r : Req)
deriving DecidableEq, Repr

/-- The slot of a command, and the commands that meet it. -/
structure SvcCall where
  k     : Fin 129
  meets : List SvcMeet
deriving DecidableEq, Repr

/-- The mailbox of a send, and the events that meet it there. -/
structure MbCall where
  m     : Fin 1024
  meets : List MbMeet
deriving DecidableEq, Repr

/-- The line of a DATA, and the bits [97:0] of its header that arrive changed (10 R273). -/
structure DataCall where
  line : BitVec 34
  flip : BitVec 98
deriving DecidableEq, Repr

/-- The side of a router at which a flit fails its CRC, and the flit's number on that link (10 R269). -/
structure LinkFlit where
  dir  : Fin 4
  flit : BitVec 32
deriving DecidableEq, Repr

/-- A failing bit that an array test found: the element, the array code, the word index, the bit of the word, the March step (19 R480). -/
structure FailBit where
  unit  : BitVec 12
  array : BitVec 4
  addr  : BitVec 32
  bit   : BitVec 8
  step  : BitVec 4
deriving DecidableEq, Repr

/-- What a Carousel test found: whether its logic BIST passed, and the failing bits of its arrays (16 R420, 19 R480). -/
structure TestEnd where
  pass  : Bool
  found : List FailBit
deriving DecidableEq, Repr

/-- The size of an access in bytes: 1, 2, 4 or 8 (03 R70). -/
inductive ASize where
  | b | h | w | d
deriving DecidableEq, Repr

/-- The addressing forms of 03 Table 9. -/
inductive AddrForm where
  | baseDisp (base : Fin 32) (disp : BitVec 64)
  | pcDisp   (disp : BitVec 64)
  | scaled   (base idx : Fin 32) (scale : Fin 4) (disp : BitVec 64)
  | postInc  (base : Fin 32)
  | postImm  (base : Fin 32) (imm : BitVec 64)
  | preDec   (base : Fin 32)
deriving DecidableEq, Repr

/-- A memory operand: the addressing form and the lead bytes REP, STREAM, ACQ and REL of 03 Table 2. -/
structure MemOp where
  form   : AddrForm
  rep    : Bool
  stream : Bool
  acq    : Bool
  rel    : Bool
deriving DecidableEq, Repr

/-- Section types of 02 Table 3; a PORTGROUP section names its group number. -/
inductive Section where
  | cluster | memory | fabric | portgroup (gg : Fin 32) | router | power | clock | carousel | security | pools
  | hierarchy | calib
deriving DecidableEq, Repr

/-- A cache (07 R186, 11 R311), the L1s of a logical core counted once for a pair (07 R189). -/
inductive CacheId where
  | l1i (l : Fin 128)
  | l1d (l : Fin 128)
  | l2  (c : Fin 16)
  | io  (g : Fin 32)
deriving DecidableEq, Repr

/-- A Skidder target (07 SKCMD.TARGET and J). -/
inductive SkTarget where
  | l2
  | l1d (j : Fin 8)
  | l1i (j : Fin 8)
deriving DecidableEq, Repr

/-- A cache-control register of a cluster: L2CTL, or L1CTL of window index j. -/
inductive CacheCtl where
  | l2
  | l1 (j : Fin 8)
deriving DecidableEq, Repr

/-- An array of 07 Table 3 in which an error is met. -/
inductive ErrArray where
  | l1i (l : Fin 128)
  | l1d (l : Fin 128)
  | l2 (c : Fin 16)
  | l2tag (c : Fin 16)
  | lmem (l : Fin 128)
deriving DecidableEq, Repr

/-- A port Pgg.pp. -/
structure PortId where
  gg : Fin 32
  pp : Fin 16
deriving DecidableEq, Repr

/-- A port as its code gg*16 + pp. -/
def PortId.code (p : PortId) : Nat := p.gg.val * 16 + p.pp.val

/-- A hardware unit a Carousel scope n of CARSCOPE covers (16 R436): 0-15 clusters, 16-47 groups, 48-49 die groups,
50 power phases, 51 fabric planes. -/
abbrev Scope := Fin 52

/-- The outcomes of a triple vote, 16 Table 3. -/
inductive Vote where
  | oneOriginal (leading : Bool)
  | spareAlone
  | noMismatch
  | allDiffer
deriving DecidableEq, Repr

/-- The causes of a split core's self-detected hard fault, 16 R417. -/
inductive SplitFault where
  | latchParity | predictorTlbParity | tagError | registerParity | drainSecondFault
deriving DecidableEq, Repr

/-- The reasons of a Juggler hard fault, 11 R304. -/
inductive JugFault where
  | latchParity | lmemUncorrectable | storeCheck
deriving DecidableEq, Repr

/-- The two transceiver-fault reasons of 12 R325. -/
inductive CanFault where
  | dominant | readback
deriving DecidableEq, Repr

/-- The reasons of a power-phase failure, 17 R442. -/
inductive PhaseFault where
  | overcurrent | share | gate | short
deriving DecidableEq, Repr

/-- What a PLL cross-check finds, 18 R462: the two outputs agree, or one of them is wrong. -/
inductive XCheck where
  | agree | pllWrong | backupWrong
deriving DecidableEq, Repr

/-- How a Lookout decision goes, 16 R426: what Lookout saw of the agent. -/
structure AgentView where
  aliveToggled : Bool
  uncorrectable : Bool
deriving DecidableEq, Repr

/-- A temperature sensor s of 19 Table 4: clusters 0-15, groups 16-47, homes 48-55, planes 56-57, Trust Core 58, power
stage 59. -/
abbrev Sensor := Fin 60

/-- A beacon's contents (22 R525): slot, role, role epoch, the slot taken as Ringmaster, the sender's LCDID, and the health
word of VNHLTH [47:0]. -/
structure BeaconMsg where
  slot   : Fin 8
  role   : BitVec 2
  epoch  : BitVec 32
  rm     : Option (Fin 8)
  lcdid  : BitVec 64
  health : BitVec 48
  secured : Bool
deriving DecidableEq, Repr

/-- A remote request frame of 22 Table 2 as it reaches a module. -/
structure RemoteFrame where
  write  : Bool
  source : Fin 8
  target : Fin 8
  tag    : BitVec 16
  offset : BitVec 36
  mask   : BitVec 64
  data   : List Byte
deriving DecidableEq, Repr

/-- A CAN frame as the port sees it on the bus (12 Table 4). -/
structure CanFrame where
  id   : BitVec 29
  ide  : Bool
  rtr  : Bool
  fdf  : Bool
  xlf  : Bool
  brs  : Bool
  esi  : Bool
  sdt  : BitVec 8
  sec  : Bool
  vcid : BitVec 8
  af   : BitVec 32
  dlc  : BitVec 4
  data : List Byte
  status : BitVec 8
deriving DecidableEq, Repr

/-- A debug port: P31.06 (false) or P31.07 (true) (20 R495). -/
abbrev DbgPort := Bool

/-- A debug frame's envelope (20 R496): its TAG and whether its CRC passed. -/
structure DbgReq where
  port : DbgPort
  tag  : BitVec 8
  crcOk : Bool
deriving DecidableEq, Repr

/-- The core byte of a debug command (20 Table 2): a logical core, or 0x80 for the Trust Core. -/
abbrev DbgCore := BitVec 8

/-- A fabric request as it reaches a home (08 R222): agent number, line, transaction tag, partition and world, whether it
presents a credit (R226), RES and DEM (10 R282). -/
structure HReq where
  agent  : Fin 50
  line   : BitVec 34
  tag    : BitVec 10
  pid    : BitVec 8
  world  : Bool
  credit : Bool
  dem    : Bool
deriving DecidableEq, Repr

/-- An attachment of the fabric, by router number (10 Table 1). -/
abbrev Router := Fin 60

/-- The commands of the module, one per row of the table. -/
inductive Instr where
  -- registers, image and Layout loader (00, 02)
  | registerWrite (r : Req) (a : PAddr) (sz : ASize) (v : W64)
  | elogRdWrite (r : Req) (rd : BitVec 10)
  | imageLoad
  | writeRecord (sec : Section) (a v : BitVec 64)
  | kwriteRecord (sec : Section) (a : BitVec 64) (v c : W32)
  | fillRecord (sec : Section) (a : BitVec 64) (data : List Byte)
  | claimRecord (sec : Section) (cls : BitVec 8) (owner : BitVec 16) (first count : BitVec 32)
  | partRecord (sec : Section) (pid world : BitVec 8) (tol : BitVec 16) (mask : BitVec 128) (entry : BitVec 64)
  | stage (r : Req)
  | deltaVerifyDone
  | activate (r : Req)
  | cancel (r : Req)
  | commit (r : Req)
  | deltaActivation
  | fabricPlanSwitch
  | routerBankSwap (g : Fin 32)
  -- Fotin-64 instructions (03, 04)
  | illegalInstruction (eng : Engine) (bytes : List Byte)
  | nop (x : Iss)
  | isync (x : Iss)
  | fence (x : Iss)
  | fenceSl (x : Iss)
  | fenceIo (x : Iss)
  | fenceCompletion (eng : Engine)
  | retm (x : Iss)
  | sc (x : Iss)
  | brk (x : Iss)
  | add (x : Iss) (narrow : Bool) (dst src1 src2 : Fin 32)
  | sub (x : Iss) (narrow : Bool) (dst src1 src2 : Fin 32)
  | and (x : Iss) (dst src1 src2 : Fin 32)
  | or (x : Iss) (dst src1 src2 : Fin 32)
  | xor (x : Iss) (dst src1 src2 : Fin 32)
  | shl (x : Iss) (narrow : Bool) (dst src1 src2 : Fin 32)
  | shr (x : Iss) (narrow : Bool) (dst src1 src2 : Fin 32)
  | sar (x : Iss) (narrow : Bool) (dst src1 src2 : Fin 32)
  | mul (x : Iss) (narrow : Bool) (dst src1 src2 : Fin 32)
  | mulh (x : Iss) (dst src1 src2 : Fin 32)
  | div (x : Iss) (narrow : Bool) (dst src1 src2 : Fin 32)
  | divu (x : Iss) (narrow : Bool) (dst src1 src2 : Fin 32)
  | rem (x : Iss) (narrow : Bool) (dst src1 src2 : Fin 32)
  | remu (x : Iss) (narrow : Bool) (dst src1 src2 : Fin 32)
  | slt (x : Iss) (dst src1 src2 : Fin 32)
  | sltu (x : Iss) (dst src1 src2 : Fin 32)
  | addi (x : Iss) (narrow : Bool) (dst src1 : Fin 32) (imm : W64)
  | andi (x : Iss) (dst src1 : Fin 32) (imm : W64)
  | ori (x : Iss) (dst src1 : Fin 32) (imm : W64)
  | xori (x : Iss) (dst src1 : Fin 32) (imm : W64)
  | shli (x : Iss) (narrow : Bool) (dst src1 : Fin 32) (sh : Fin 64)
  | shri (x : Iss) (narrow : Bool) (dst src1 : Fin 32) (sh : Fin 64)
  | sari (x : Iss) (narrow : Bool) (dst src1 : Fin 32) (sh : Fin 64)
  | slti (x : Iss) (dst src1 : Fin 32) (imm : W64)
  | sltiu (x : Iss) (dst src1 : Fin 32) (imm : W64)
  | li (x : Iss) (dst : Fin 32) (imm : W64)
  | ldB (x : Iss) (m : MemOp) (rd : Fin 32)
  | ldBu (x : Iss) (m : MemOp) (rd : Fin 32)
  | ldH (x : Iss) (m : MemOp) (rd : Fin 32)
  | ldHu (x : Iss) (m : MemOp) (rd : Fin 32)
  | ldW (x : Iss) (m : MemOp) (rd : Fin 32)
  | ldWu (x : Iss) (m : MemOp) (rd : Fin 32)
  | ldD (x : Iss) (m : MemOp) (rd : Fin 32)
  | lea (x : Iss) (f : AddrForm) (rd : Fin 32)
  | stB (x : Iss) (m : MemOp) (rs : Fin 32)
  | stH (x : Iss) (m : MemOp) (rs : Fin 32)
  | stW (x : Iss) (m : MemOp) (rs : Fin 32)
  | stD (x : Iss) (m : MemOp) (rs : Fin 32)
  | faddD (x : Iss) (dst src1 src2 : Fin 32)
  | fsubD (x : Iss) (dst src1 src2 : Fin 32)
  | fmulD (x : Iss) (dst src1 src2 : Fin 32)
  | fdivD (x : Iss) (dst src1 src2 : Fin 32)
  | fsqrtD (x : Iss) (dst src1 : Fin 32)
  | fmaD (x : Iss) (dst src1 src2 : Fin 32)
  | fminD (x : Iss) (dst src1 src2 : Fin 32)
  | fmaxD (x : Iss) (dst src1 src2 : Fin 32)
  | faddS (x : Iss) (dst src1 src2 : Fin 32)
  | fsubS (x : Iss) (dst src1 src2 : Fin 32)
  | fmulS (x : Iss) (dst src1 src2 : Fin 32)
  | fdivS (x : Iss) (dst src1 src2 : Fin 32)
  | fsqrtS (x : Iss) (dst src1 : Fin 32)
  | fmaS (x : Iss) (dst src1 src2 : Fin 32)
  | fminS (x : Iss) (dst src1 src2 : Fin 32)
  | fmaxS (x : Iss) (dst src1 src2 : Fin 32)
  | fcmpEq (x : Iss) (dst src1 src2 : Fin 32)
  | fcmpLt (x : Iss) (dst src1 src2 : Fin 32)
  | fcmpLe (x : Iss) (dst src1 src2 : Fin 32)
  | fcvtDS (x : Iss) (dst src1 : Fin 32)
  | fcvtSD (x : Iss) (dst src1 : Fin 32)
  | fcvtDL (x : Iss) (dst src1 : Fin 32)
  | fcvtLD (x : Iss) (dst src1 : Fin 32)
  | fmovG (x : Iss) (dst src1 : Fin 32)
  | fmovF (x : Iss) (dst src1 : Fin 32)
  | fnegD (x : Iss) (dst src1 : Fin 32)
  | fabsD (x : Iss) (dst src1 : Fin 32)
  | beq (x : Iss) (hint : Bool) (src1 src2 : Fin 32) (disp : W64)
  | bne (x : Iss) (hint : Bool) (src1 src2 : Fin 32) (disp : W64)
  | blt (x : Iss) (hint : Bool) (src1 src2 : Fin 32) (disp : W64)
  | bge (x : Iss) (hint : Bool) (src1 src2 : Fin 32) (disp : W64)
  | bltu (x : Iss) (hint : Bool) (src1 src2 : Fin 32) (disp : W64)
  | bgeu (x : Iss) (hint : Bool) (src1 src2 : Fin 32) (disp : W64)
  | beqi (x : Iss) (hint : Bool) (src1 : Fin 32) (imm disp : W64)
  | bnei (x : Iss) (hint : Bool) (src1 : Fin 32) (imm disp : W64)
  | blti (x : Iss) (hint : Bool) (src1 : Fin 32) (imm disp : W64)
  | bgei (x : Iss) (hint : Bool) (src1 : Fin 32) (imm disp : W64)
  | j (x : Iss) (disp : W64)
  | jr (x : Iss) (src1 : Fin 32)
  | callm (x : Iss) (disp : W64) (mask : BitVec 15)
  | callmr (x : Iss) (src1 : Fin 32) (mask : BitVec 15)
  | mfcr (x : Iss) (dst : Fin 32) (n : BitVec 16)
  | mtcr (x : Iss) (n : BitVec 16) (src1 : Fin 32)
  | hctxWrite (x : Iss) (src1 : Fin 32)
  | iclaim (x : Iss) (dst : Fin 32)
  | hiclaim (x : Iss) (dst : Fin 32)
  | ieoi (x : Iss) (src1 : Fin 32)
  | hieoi (x : Iss) (src1 : Fin 32)
  | eret (x : Iss)
  | wfi (x : Iss)
  | wfiWake (eng : Engine)
  | predclr (x : Iss)
  | hc (x : Iss)
  | tlbiAll (x : Iss)
  | tlbiVa (x : Iss) (src1 src2 : Fin 32)
  | tlbiAsid (x : Iss) (src1 : Fin 32)
  | fldS (x : Iss) (m : MemOp) (rd : Fin 32)
  | fldD (x : Iss) (m : MemOp) (rd : Fin 32)
  | fstS (x : Iss) (m : MemOp) (rs : Fin 32)
  | fstD (x : Iss) (m : MemOp) (rs : Fin 32)
  | pref (x : Iss) (f : AddrForm) (hint stream : Bool)
  | ldrD (x : Iss) (f : AddrForm) (acq : Bool) (rd : Fin 32)
  | ldrW (x : Iss) (f : AddrForm) (acq : Bool) (rd : Fin 32)
  | stcD (x : Iss) (f : AddrForm) (rel : Bool) (rd : Fin 32)
  | stcW (x : Iss) (f : AddrForm) (rel : Bool) (rd : Fin 32)
  | amoaddD (x : Iss) (f : AddrForm) (acq rel : Bool) (rd : Fin 32)
  | amoswapD (x : Iss) (f : AddrForm) (acq rel : Bool) (rd : Fin 32)
  | amoandD (x : Iss) (f : AddrForm) (acq rel : Bool) (rd : Fin 32)
  | amoorD (x : Iss) (f : AddrForm) (acq rel : Bool) (rd : Fin 32)
  | amomaxuD (x : Iss) (f : AddrForm) (acq rel : Bool) (rd : Fin 32)
  | dccl (x : Iss) (f : AddrForm)
  | dcil (x : Iss) (f : AddrForm)
  | dcfl (x : Iss) (f : AddrForm)
  | icil (x : Iss) (f : AddrForm)
  -- Juggler port instructions (04 Table 8)
  | twait (x : Iss) (src1 : Fin 32)
  | twaitEnd (g : Fin 32) (k : Fin 5)
  | tnow (x : Iss) (dst : Fin 32)
  | prx (x : Iss) (dst src1 : Fin 32)
  | ptx (x : Iss) (dst src1 src2 : Fin 32)
  | pst (x : Iss) (dst src1 : Fin 32)
  | pctl (x : Iss) (src1 src2 : Fin 32)
  | pin (x : Iss) (dst src1 : Fin 32)
  | pout (x : Iss) (src1 src2 : Fin 32)
  | frput (x : Iss) (dst src1 src2 : Fin 32)
  | frget (x : Iss) (dst src1 : Fin 32)
  | tset (x : Iss) (src1 src2 : Fin 32)
  | tchk (x : Iss) (dst src1 : Fin 32)
  | groupTimerFire (g : Fin 32) (t : Fin 64)
  -- core events (05, 06)
  | loadDataArrival (eng : Engine)
  | fetchFill (eng : Engine) (va : W64)
  | storeBufferDrain (eng : Engine)
  | tableWalk (eng : Engine) (va : W64) (fetch store : Bool)
  | exceptionEntry (eng : Engine)
  | interruptEntry (eng : Engine)
  | guestTimer (l : Fin 128)
  | hTimer (l : Fin 128)
  | msgirq (r : Req) (c : Fin 16) (id : BitVec 12)
  | intmsg (id : BitVec 12)
  -- caches and Skidder (07)
  | clean (r : Req) (c : Fin 16) (t : SkTarget)
  | inval (r : Req) (c : Fin 16) (t : SkTarget) (incl : Bool)
  | flush (r : Req) (c : Fin 16) (t : SkTarget) (incl : Bool)
  | lock (r : Req) (c : Fin 16) (t : SkTarget) (pid : BitVec 8)
  | unlock (r : Req) (c : Fin 16) (t : SkTarget)
  | abort (r : Req) (c : Fin 16)
  | skidderDone (c : Fin 16)
  | cacheControlWrite (r : Req) (c : Fin 16) (which : CacheCtl) (v : W64)
  | cacheDisableDone (c : Fin 16) (which : CacheCtl)
  | ageParityError (c : CacheId)
  | arrayError (a : ErrArray) (pa : PAddr) (correctable : Bool)
  | arrayPatrolRead (a : ErrArray) (pa : PAddr)
  -- coherence (08)
  | rds (q : HReq)
  | rdx (q : HReq)
  | upg (q : HReq)
  | wbd (q : HReq) (data : List Byte) (poison : BitVec 8)
  | evc (q : HReq)
  | iord (q : HReq)
  | iowr (q : HReq) (mask : BitVec 64) (data : List Byte) (poison : BitVec 8)
  | snps (agent : Fin 48) (line : BitVec 34)
  | snpi (agent : Fin 48) (line : BitVec 34)
  | snpx (agent : Fin 48) (line : BitVec 34)
  | data (dst : Router) (agent : Fin 50) (line : DataCall)
  | ack (dst : Router) (agent : Fin 50) (line : BitVec 34)
  | ackevicted (agent : Fin 48) (line : BitVec 34)
  | retry (agent : Fin 50) (line : BitVec 34)
  | poison (agent : Fin 50) (line : BitVec 34)
  | absent (agent : Fin 50) (addr : PAddr) (tag : BitVec 10)
  | drd (r : Req) (a : PAddr) (sz : ASize) (tag : BitVec 10)
  | dwr (r : Req) (a : PAddr) (sz : ASize) (v : W64) (tag : BitVec 10)
  | drsp (r : Req) (a : PAddr) (tag : BitVec 10)
  | snoopTimeout (agent : Fin 48) (line : BitVec 34)
  | lookoutDecision (agent : Fin 48) (line : BitVec 34) (v : AgentView)
  | forerunnerTimeout (agent : Fin 48) (line : BitVec 34)
  -- main memory (09)
  | dieFailure (d : Fin 18)
  | migrationLineCopy (second : Bool)
  | spareSteer (second : Bool)
  | scrubLine (line : BitVec 25)
  -- fabric (10)
  | linkCrcError (plane : Bool) (r : Router) (at_ : LinkFlit)
  | e2eack (src dst : Router) (ackseq : BitVec 16)
  | e2enak (src dst : Router) (expected : BitVec 16)
  | e2eAckTimeout (src dst : Router)
  | e2eResendTimeout (src dst : Router)
  | planeFailure (plane : Bool)
  | planeMove (src dst : Router)
  | planeReinitDone (plane pass : Bool)
  | acceptTimeout (dst : Router) (tag : BitVec 10)
  | timeSlotFrameStart
  | slotAdmission (h : Fin 8) (s : Fin 250)
  -- port groups (11)
  | positionRun (r : Req) (g : Fin 32) (p : Fin 4) (owner : BitVec 16)
  | positionLoadDone (g : Fin 32) (p : Fin 4)
  | positionHalt (r : Req) (g : Fin 32) (p : Fin 4) (owner : BitVec 16)
  | slotStart (g : Fin 32) (p : Fin 4)
  | positionStoreWrite (r : Req) (g : Fin 32) (off : BitVec 15) (sz : ASize) (v : W64)
  | positionStorePatrol (g : Fin 32) (p : Fin 4) (alt data : Bool) (w : BitVec 13)
  | jugglerHardFault (g : Fin 32) (k : Fin 5) (why : JugFault)
  | spareJoin (g : Fin 32) (p : Fin 4)
  | jugglerTakeover (g : Fin 32) (p : Fin 4)
  | qpcfgWrite (r : Req) (g : Fin 32) (q : Fin 128) (v : W64)
  | qpTailWrite (r : Req) (g : Fin 32) (q : Fin 128) (tx : Bool) (v : W64)
  | rxDescriptorWrite (g : Fin 32) (q : Fin 128)
  | txDescriptorFetch (g : Fin 32) (q : Fin 128)
  | txLaunch (g : Fin 32) (q : Fin 128)
  -- ports (12)
  | portEnable (r : Req) (p : PortId)
  | portDisable (r : Req) (p : PortId)
  | portTestDone (p : PortId) (pass : Bool) (code : BitVec 8)
  | errclr (r : Req) (p : PortId)
  | txflush (g : Fin 32) (k : Fin 5) (l : Fin 4)
  | rxflush (g : Fin 32) (k : Fin 5) (l : Fin 4)
  | recover (g : Fin 32) (k : Fin 5) (l : Fin 4)
  | standbyTransceiver (g : Fin 32) (k : Fin 5) (l : Fin 4)
  | sleep (g : Fin 32) (k : Fin 5) (l : Fin 4)
  | wakePulse (g : Fin 32) (k : Fin 5) (l : Fin 4)
  | gate (g : Fin 32) (k : Fin 5) (l : Fin 4) (m : BitVec 8)
  | supply (g : Fin 32) (k : Fin 5) (l : Fin 4) (on : Bool)
  | sync (g : Fin 32) (k : Fin 5) (l : Fin 4) (on : Bool)
  | adcRequest (g : Fin 32) (k : Fin 5) (l : Fin 4)
  | adcConversionDone (g : Fin 32) (raw : BitVec 12)
  | canFrameReceive (p : PortId) (f : CanFrame)
  | canBusOff (p : PortId)
  | canTransceiverFault (p : PortId) (why : CanFault)
  | canSelectiveWake (p : PortId) (f : CanFrame) (good : Bool)
  | linFrameReceive (p : PortId) (id : BitVec 6) (enhanced : Bool) (data : List Byte) (status : BitVec 8)
  | linResponseTimeout (p : PortId)
  | linWake (p : PortId) (us : Nat)
  | ethernetFrameReceive (p : PortId) (frame : List Byte) (fcsOk secured secOk : Bool)
  | sentFrameReceive (p : PortId) (slow : Bool) (enhanced : Bool) (id : BitVec 8) (nibbles : BitVec 28) (tick : BitVec 10)
      (calUnits prevUnits : Nat) (crcOk : Bool) (payload : BitVec 16)
  | psi5FrameReceive (p : PortId) (bits : BitVec 28) (crcOk : Bool)
  | sensorSupplyOvercurrent (p : PortId)
  | sensorSupplyOutOfWindow (p : PortId)
  | serialReceive (p : PortId) (data : List Byte) (ended : Bool) (status : BitVec 8)
  | fieldEdge (p : PortId) (level : Bool)
  | fieldOutputOvercurrent (p : PortId)
  | transmitFrameEnd (p : PortId) (status : BitVec 8)
  | linkUp (p : PortId) (speed : BitVec 4)
  | linkDown (p : PortId)
  | pcieTransfer (r : Req) (p : PortId) (v : W64)
  | pcieTransferEnd (p : PortId) (code : BitVec 8) (data : List Byte)
  | pcieCompletionTimeout (p : PortId)
  | pcimsi (r : Req) (p : PortId) (vec : BitVec 6)
  | pcieInboundRequest (p : PortId) (memReq write : Bool) (off : BitVec 40) (data : List Byte)
  | pcieDeviceInterrupt (p : PortId) (addr : BitVec 64) (data : BitVec 32)
  -- frame router (13)
  | frameMatch (g : Fin 32)
  | frfwd (src dst : Fin 32)
  | forwardReassemblyTimeout (src dst : Fin 32)
  | e2eTimeoutScan (g : Fin 32)
  | routerIntegrityScan (g : Fin 32)
  | routerEntryWrite (r : Req) (g : Fin 32) (e : BitVec 12)
  | routerEntryInvalidate (r : Req) (g : Fin 32) (e : BitVec 12)
  -- partitions and mailboxes (14)
  | claim (r : Req) (s : SvcCall)
  | release (r : Req) (s : SvcCall)
  | create (r : Req) (s : SvcCall)
  | start (r : Req) (s : SvcCall)
  | stop (r : Req) (s : SvcCall)
  | destroy (r : Req) (s : SvcCall)
  | epreset (r : Req) (s : SvcCall)
  | mbsend (r : Req) (m : MbCall)
  | mbtake (r : Req) (m : Fin 1024)
  | mbtoExpiry (m : Fin 1024)
  | dbring (r : Req) (c : Fin 16) (p : Fin 255) (set : W32)
  -- trust services (15)
  | info (k : Fin 511)
  | random (k : Fin 511)
  | hash (k : Fin 511)
  | keygen (k : Fin 511)
  | seal (k : Fin 511)
  | openSvc (k : Fin 511)
  | sign (k : Fin 511)
  | verify (k : Fin 511)
  | decaps (k : Fin 511)
  | keydel (k : Fin 511)
  | handover (k : Fin 511)
  | handoverGrant (n : Fin 16)
  | trngHealthFail
  | apply (r : Req) (u : Fin 40) (all : Bool)
  | discard (r : Req) (u : Fin 40) (all : Bool)
  | firebreakSwitch (u : Fin 40)
  | verdictCopyCheck (a : Fin 48) (damaged : Bool)
  | verdictCopyReloadDone (a : Fin 48)
  | lkobeat (r : Req) (v : W64)
  | trustCoreDown
  | trustCoreRunning
  | trustCoreRestartFail
  -- fault tolerance (16)
  | emergencyNotice (thermal : Bool) (mask : BitVec 61)
  | emergencyCut
  | pairMismatch (l : Fin 128)
  | tripleVote (l : Fin 128) (v : Vote)
  | splitHardFault (l : Fin 128) (why : SplitFault)
  | hungLogicalCore (l : Fin 128)
  | carouselStep (n : Scope)
  | carouselTestDone (n : Scope) (pass : TestEnd)
  | swapPause (l : Fin 128)
  | carcmdStep (r : Req) (n : Scope)
  | carcmdHold (r : Req) (n : Scope)
  | carcmdResume (r : Req) (n : Scope)
  | analogueReferenceCheck (h : Fin 8) (within : Bool)
  | analogueReferenceRepeat (h : Fin 8) (within : Bool)
  | hHeartbeatMissed
  | lookoutLockstepMismatch
  | rearm (r : Req)
  | forceOff (r : Req)
  | restart (r : Req) (l : Fin 128)
  -- power (17)
  | vbusSample (vina vinb vbus : Int)
  | leanExit
  | feedReconnect (b : Bool)
  | phaseFailure (p : Fin 9) (why : PhaseFault)
  | polHalfFailure (r : Fin 26)
  | domOn (r : Req) (d : BitVec 8)
  | domOff (r : Req) (d : BitVec 8)
  | full (r : Req)
  | trim (r : Req) (n : BitVec 8)
  | lean (r : Req)
  | doze (r : Req)
  | standby (r : Req)
  | powerRequestDone (p : BitVec 8)
  | trustConsentTimeout
  | wake (src : BitVec 4) (port : BitVec 9)
  | wakeAlarm
  | budgetCheck (milliwatts : Nat)
  | temperatureWarn (s : Sensor) (tenths : Int)
  | temperatureCritical (s : Sensor) (tenths : Int)
  -- clocks and reset (18)
  | referenceLost
  | referenceRestored
  | pllFailure (n : Fin 24)
  | pllCrossCheck (n : Fin 24) (v : XCheck)
  | spreadChange (n : Fin 17)
  | mtrateWrite (r : Req) (v : W64)
  | mtstepWrite (r : Req) (v : W64)
  | powerOnReset (tmode : Bool)
  | resetN (cycles : Nat)
  | rstcmdModule (r : Req)
  | domainReset (r : Req) (d : BitVec 8)
  | domainRelease (r : Req) (d : BitVec 8)
  | startUp
  -- self-test (19)
  | adcReferenceCheck (g : Fin 32) (ran : Bool) (errPerMille : Nat)
  | fuse (r : Req)
  -- life-cycle and debug (20)
  | ident (d : DbgReq)
  | challenge (d : DbgReq)
  | auth (d : DbgReq) (token : List Byte)
  | deauth (d : DbgReq)
  | getres (d : DbgReq) (of : BitVec 8)
  | read (d : DbgReq) (a : BitVec 64) (n : Nat)
  | write (d : DbgReq) (a : BitVec 64) (data : List Byte)
  | halt (d : DbgReq) (c : DbgCore)
  | debugResume (d : DbgReq) (c : DbgCore)
  | step (d : DbgReq) (c : DbgCore)
  | regrd (d : DbgReq) (c : DbgCore) (n : BitVec 16)
  | regwr (d : DbgReq) (c : DbgCore) (n : BitVec 16) (v : W64)
  | debugReset (d : DbgReq)
  | imgload (d : DbgReq) (slot : BitVec 8) (off : BitVec 32) (data : List Byte)
  | lcadv (d : DbgReq) (target : BitVec 8) (token : List Byte)
  | scan (d : DbgReq)
  | nonceExpiry (p : DbgPort)
  | serviceModeWrite (r : Req) (on : Bool)
  | traceLineWrite (c : Fin 4)
  -- Tally (21)
  | snapshotTick
  | snapshotComplete
  | talview (r : Req) (k : Fin 9)
  -- vehicle networks (22)
  | beacon
  | beaconReceive (via : Fin 4) (again : Bool) (b : BeaconMsg)
  | slotAbsent (d : Fin 8)
  | ringmasterTakeover
  | roleHoldEnd
  | syncResult (offset : Int)
  | remoteRequest (f : RemoteFrame)
  | remoteResponseTimeout (tag : BitVec 16)
  | vnxFlash (r : Req) (d : Fin 8)
  | vnxStage (r : Req) (d : Fin 8)
  | vnxActivate (r : Req) (d : Fin 8)
  | vnxCancel (r : Req) (d : Fin 8)
  | vnxDone (code : BitVec 8) (sent : BitVec 32)
  -- later rows of the table
  | busIntegration (p : PortId)
  | uartIdleTimeout (p : PortId)
  | sensorSilentTimeout (p : PortId)
  | psi5SyncPulse (p : PortId)
  | firebreakGraceEnd (u : Fin 40)
  | ageRewriteDone (c : CacheId)
  | trngHealthRecovered
  | syncResultTimeout
deriving DecidableEq, Repr

end Sys2Proof
end

