-- ==== Sys2Proof/Decode.lean ====
section
/-! DEFINITION. The commands that the bits of the command table spell. -/
namespace Sys2Proof

/-- The command that the low `nbits` bits of `w` spell by spec/opcode_table.json: its rows are the module's commands and give no row any
bits, so no word spells one. (The encodings of the Fotin instructions, 03 Tables 10 and 11, are not bits of that table.) -/
def decodeTableWord (nbits w : Nat) : Option Instr :=
  match nbits, w with
  | _, _ => none

end Sys2Proof
end

