-- ==== Sys2Proof/Config.lean ====
section
/-! DEFINITION. What an implementation fixes and the spec leaves open: constants and functions without a body, so that no
proof can lean on a value of theirs (assumption log, entry 20 lists each). -/
namespace Sys2Proof.Config

/-- A value the spec does not give, for the n-th use (`State.fresh` counts the uses). -/
opaque freeValue : Nat → W64

/-- The priority of core-local ID 4 (Tally), which no chapter gives (06 Table 8). -/
opaque tallyPrio : BitVec 6

/-- The number of core cycles a freeze that leaves the cluster lasts, for the n-th such freeze (05 Table 3: no bound
without reserved slots). -/
opaque freezeCycles : Nat → Nat

/-- Whether a fused multiply-add of zero and infinity with a quiet-NaN addend signals invalid, which IEEE 754 leaves to
the implementation (04 R90). -/
opaque fmaNanInvalid : Bool

/-- SEQ of the n-th snapshot, which no chapter gives (21 Table 4). -/
opaque snapshotSeq : Nat → BitVec 32

/-- The sets of the POWER section, whose encoding no chapter gives (02 Table 3, 17 R446): for its body, masks of domains: Trim sets
0-7, 8 the Lean set, 9 the Doze set, 10 the domains it places in service. -/
opaque powerSet : List Byte → Nat → BitVec 61

/-- The core arrangement that a CLUSTER section states, whose encoding no chapter gives (02 Table 3): for its body and a logical core,
its place 8 * cluster + window index (07 R554) and whether it is a pair; none for a logical core it does not define. -/
opaque clusterPlan : List Byte → Nat → Option (BitVec 7 × Bool)

/-- The failing bits that the array tests of a start-up find, for the `n`-th free value (19 R480, R481). -/
opaque startFaults : Nat → List FailBit

/-- SHA-384 of a message, 48 bytes (02 R26, R33, 15 R391). -/
opaque sha384 : List (BitVec 8) → BitVec 384

/-- Whether an ECDSA P-384 signature and an ML-DSA-65 signature of a message verify (02 R33, R34, 20 R499): public key, message,
signature. -/
opaque ecdsaOk : List (BitVec 8) → List (BitVec 8) → List (BitVec 8) → Bool
opaque mldsaOk : List (BitVec 8) → List (BitVec 8) → List (BitVec 8) → Bool

/-- Whether the ROM accepts the Trust Core's firmware (15 R388), whose layout no chapter gives: the bytes of its flash region that are
not 0xFF, with their addresses, and the public keys of the provisioned signer key indices. -/
opaque firmwareOk : List (Nat × BitVec 8) → List (List (BitVec 8) × List (BitVec 8)) → Bool

/-- The arguments of a trust service request: whether each is a defined value, a byte count, algorithm, usage bits, handle (`pub`:
a public key in buffer `c` stands in its place), nonce, tag, buffers as offset and length in the window, and the block, its new world, owner and
class of a hand-over. Algorithms of HASH: 0-5 in the order of 15 Table 3; of keys: 0 AES-256, 1 ECDSA P-256, 2 ECDSA P-384, 3 ML-KEM-768,
4 ML-DSA-65. Usage: bit 0 seal, 1 sign, 2 verify, 3 decapsulate. -/
structure TrustArgs where
  ok      : Bool
  count   : Nat
  alg     : Nat
  usage   : BitVec 4
  handle  : Nat
  pub     : Bool
  nonce   : List (BitVec 8)
  tag     : List (BitVec 8)
  a       : Nat × Nat
  b       : Nat × Nat
  c       : Nat × Nat
  kind    : Nat
  block   : Nat
  toWorld : Bool
  toPid   : BitVec 8
  toClass : Nat
deriving Inhabited, DecidableEq, Repr

/-- The arguments that bytes 8-191 of a request hold, and the results that bytes 8-191 of an answer hold: 15 Table 1 and Table 3 name
them, no chapter gives their layout. The first argument is the service. -/
opaque trustArgs : Nat → List (BitVec 8) → TrustArgs
opaque trustResults : Nat → List Nat → List (BitVec 8) → List (BitVec 8)

/-- The crypto engines (15 R392, R393), whose algorithms the standards give: a digest by algorithm and message; a public key by
algorithm and secret key; AES-256-GCM sealing by key, nonce, AAD and input, with the tag, and its opening; a signature by algorithm, secret
key, message and random value; its check by algorithm, public key, message and signature; the shared secret of an ML-KEM ciphertext. -/
opaque digest : Nat → List (BitVec 8) → List (BitVec 8)
opaque publicKey : Nat → Nat → List (BitVec 8)
opaque gcmSeal : Nat → List (BitVec 8) → List (BitVec 8) → List (BitVec 8) → List (BitVec 8) × List (BitVec 8)
opaque gcmOpen : Nat → List (BitVec 8) → List (BitVec 8) → List (BitVec 8) → List (BitVec 8) → Option (List (BitVec 8))
opaque signature : Nat → Nat → List (BitVec 8) → Nat → List (BitVec 8)
opaque verifies : Nat → List (BitVec 8) → List (BitVec 8) → List (BitVec 8) → Bool
opaque decapsulate : Nat → List (BitVec 8) → Option Nat

/-- The usage bits of the key that DECAPS makes, which 15 Table 3 does not give. -/
opaque sharedUsage : BitVec 4

/-- The owner and world that the SECURITY section states for a block, by its body, KIND and BLOCK (15 Hand-over). -/
opaque securityOwner : List (BitVec 8) → Nat → Nat → BitVec 8 × Bool

end Sys2Proof.Config
end

