-- ==== Sys2Proof/Machine/KV.lean ====
section
/-! DEFINITION. Sparse stores: a list of key and value pairs with strictly rising keys and no entry that holds what an
unlisted key reads as, so that equal stores are equal lists. -/
namespace Sys2Proof.Machine

/-- A sparse store. -/
abbrev KV (α : Type) := List (Nat × α)

/-- What a key reads as; `d` is what an unlisted key reads as. -/
def KV.get {α : Type} (d : α) : KV α → Nat → α
  | [], _ => d
  | (k, v) :: m, n => if k = n then v else KV.get d m n

/-- Put an entry where its key belongs, replacing the entry of that key. -/
def KV.insert {α : Type} (n : Nat) (v : α) : KV α → KV α
  | [] => [(n, v)]
  | (k, w) :: m =>
    if n < k then (n, v) :: (k, w) :: m
    else if n = k then (n, v) :: m
    else (k, w) :: KV.insert n v m

/-- Take the entry of a key away. -/
def KV.erase {α : Type} (n : Nat) (m : KV α) : KV α := m.filter (fun e => e.1 != n)

/-- Write a value at a key. -/
def KV.set {α : Type} [DecidableEq α] (d : α) (m : KV α) (n : Nat) (v : α) : KV α :=
  if v = d then KV.erase n m else KV.insert n v (KV.erase n m)

/-- The canonical form: keys strictly rising, no entry equal to what an unlisted key reads as. -/
def KV.wf {α : Type} [DecidableEq α] (d : α) : KV α → Bool
  | [] => true
  | [(_, v)] => decide (v ≠ d)
  | (k, v) :: (k', v') :: m => decide (k < k') && decide (v ≠ d) && KV.wf d ((k', v') :: m)

/-- Write a list of values at consecutive keys. -/
def KV.setAll {α : Type} [DecidableEq α] (d : α) (m : KV α) (n : Nat) : List α → KV α
  | [] => m
  | v :: vs => KV.setAll d (KV.set d m n v) (n + 1) vs

/-- `c` values at consecutive keys. -/
def KV.getAll {α : Type} (d : α) (m : KV α) (n : Nat) : Nat → List α
  | 0 => []
  | c + 1 => KV.get d m n :: KV.getAll d m (n + 1) c

/-- Keep the entries whose keys pass. -/
def KV.keep {α : Type} (p : Nat → Bool) (m : KV α) : KV α := m.filter (fun e => p e.1)

/-- Change every entry by a function, dropping those that come to read as unlisted. -/
def KV.remap {α : Type} [DecidableEq α] (d : α) (m : KV α) (f : Nat → α → α) : KV α :=
  (m.map (fun e => (e.1, f e.1 e.2))).filter (fun e => e.2 ≠ d)

/-- A byte store (Host.Cell), every byte of which reads `d` while unlisted. -/
abbrev Mem := KV (BitVec 8)

end Sys2Proof.Machine
end

