-- ==== Sys2Proof/Machine/Bits.lean ====
section
/-! DEFINITION. Bit fields, byte order (00_scope R2), sign extension, saturation and the checksums that rules name. -/
namespace Sys2Proof.Machine

/-- The value of bits [hi:lo]. -/
def bitsOf {w : Nat} (v : BitVec w) (hi lo : Nat) : Nat := (v.toNat >>> lo) % 2 ^ (hi + 1 - lo)

/-- Bit n. -/
def bitOf {w : Nat} (v : BitVec w) (n : Nat) : Bool := v.getLsbD n

/-- The mask of bits [hi:lo]. -/
def maskOf (hi lo : Nat) : W64 := BitVec.ofNat 64 ((2 ^ (hi + 1 - lo) - 1) <<< lo)

/-- `v` with bits [hi:lo] replaced by `n`. -/
def withBits (v : W64) (hi lo n : Nat) : W64 :=
  (v &&& ~~~ (maskOf hi lo)) ||| (BitVec.ofNat 64 (n <<< lo) &&& maskOf hi lo)

/-- The keyed pair of a 32-bit value (00_scope R5): the value, and its complement above it. -/
def keyedPair (v : Nat) : W64 := (~~~ (BitVec.ofNat 32 v)) ++ BitVec.ofNat 32 v

/-- Whether [63:32] is the complement of [31:0]. -/
def pairOk (v : W64) : Bool := v == keyedPair (bitsOf v 31 0)

/-- The low `n` bytes of a value, lowest first (00_scope R2). -/
def toBytes : Nat → Nat → List Byte
  | 0, _ => []
  | n + 1, v => BitVec.ofNat 8 v :: toBytes n (v / 256)

/-- The value of bytes, lowest first. -/
def ofBytes : List Byte → Nat
  | [] => 0
  | b :: bs => b.toNat + 256 * ofBytes bs

/-- Sign extension of the low `n` bits to 64. -/
def sext (n : Nat) (v : Nat) : W64 :=
  let m := v % 2 ^ n
  if m < 2 ^ (n - 1) then BitVec.ofNat 64 m else BitVec.ofNat 64 (2 ^ 64 - 2 ^ n + m)

/-- A value as a signed integer of `n` bits. -/
def toSigned (n : Nat) (v : Nat) : Int :=
  let m := v % 2 ^ n
  if m < 2 ^ (n - 1) then m else (m : Int) - 2 ^ n

/-- A count that stays at its greatest value. -/
def satAdd (top a b : Nat) : Nat := if a + b ≤ top then a + b else top

/-- Whether `v` lies in one of the inclusive ranges; every value when there is none. -/
def inRanges (rs : List (Nat × Nat)) (v : Nat) : Bool :=
  rs.isEmpty || rs.any (fun r => r.1 ≤ v && v ≤ r.2)

/-- The bits of a byte, most significant first. -/
def bitsMsb (b : Byte) : List Bool :=
  [b.getLsbD 7, b.getLsbD 6, b.getLsbD 5, b.getLsbD 4, b.getLsbD 3, b.getLsbD 2, b.getLsbD 1, b.getLsbD 0]

/-- One bit of a left-shifting CRC of `w` bits. -/
def crcBit (w poly : Nat) (c : Nat) (b : Bool) : Nat :=
  let top := c / 2 ^ (w - 1) % 2 == 1
  let c' := c * 2 % 2 ^ w
  if top != b then Nat.xor c' poly else c'

/-- A left-shifting CRC over bytes. -/
def crcMsb (w poly init : Nat) (bs : List Byte) : Nat :=
  bs.foldl (fun c b => (bitsMsb b).foldl (crcBit w poly) c) init

/-- One bit of a right-shifting CRC whose polynomial is given reversed. -/
def crcBitR (poly : Nat) (c : Nat) (b : Bool) : Nat :=
  let low := c % 2 == 1
  if low != b then Nat.xor (c / 2) poly else c / 2

/-- A right-shifting CRC over bytes. -/
def crcLsb (poly init : Nat) (bs : List Byte) : Nat :=
  bs.foldl (fun c b => (bitsMsb b).reverse.foldl (crcBitR poly) c) init

/-- CRC-32C of RFC 3720: reversed polynomial 0x82F63B78, initial and final all ones. -/
def crc32c (bs : List Byte) : Nat := Nat.xor (crcLsb 0x82F63B78 0xFFFFFFFF bs) 0xFFFFFFFF

/-- The number of ones of a value's low `n` bits. -/
def popCount : Nat → Nat → Nat
  | 0, _ => 0
  | n + 1, v => v % 2 + popCount n (v / 2)

/-- The greatest set bit below `n`, when there is one. -/
def topBit : Nat → Nat → Option Nat
  | 0, _ => none
  | n + 1, v => if v / 2 ^ n % 2 == 1 then some n else topBit n v

/-- The least set bit below `n`, when there is one. -/
def lowBit (n v : Nat) : Option Nat := (List.range n).find? (fun i => v / 2 ^ i % 2 == 1)

/-- The first `n` elements, filled up with `d`. -/
def padTo {α : Type} (n : Nat) (d : α) (l : List α) : List α := (l ++ List.replicate n d).take n

/-- The integer square root, by bisection from `n` bits down. -/
def isqrtAux : Nat → Nat → Nat → Nat
  | 0, _, r => r
  | n + 1, v, r =>
    let r' := r + 2 ^ n
    if r' * r' ≤ v then isqrtAux n v r' else isqrtAux n v r

/-- The integer square root of a value below 2^256. -/
def isqrt (v : Nat) : Nat := isqrtAux 128 v 0

end Sys2Proof.Machine
end

