-- ==== Sys2Proof/Machine/Regs.lean ====
section
/-! DEFINITION. The registers of the module's address map: one kind per register section of the spec, its addresses,
its reset value, its fields with their access types (00_scope R4, Table 2) and allowed values (R3, R5). -/
namespace Sys2Proof.Machine

/-- The access types of 00_scope Table 2. `w1cAll` is a W1C count that a write of all ones clears. -/
inductive Acc where
  | rw | ro | roh | wo | w1c | w1cAll | w1s | rwk
deriving DecidableEq, Repr

/-- A register field: its bits [hi:lo], its access type, and the ranges of its allowed values; `[]` = every value. -/
structure Field where
  hi  : Nat
  lo  : Nat
  acc : Acc
  ok  : List (Nat × Nat) := []
deriving DecidableEq, Repr

/-- The kinds of registers, named as the spec names them. -/
inductive RegKind where
  | layid | laycnt | laysrc | layact | laycmd | laystat | layconf | layint | ircfg | irstate | msgirq | l2ctl | l1ctl
  | l2way | skaddr | sklen | skcmd | skstat | skcnt | skint | dirctl | mcstat | mctwin | mcscrub | mcecnt | spsteer
  | fbstat | fbcnt | fbslot | gcint | gcdmae | qpcfg | qprxr | qptxr | qpwin | qprxt | qptxt | qpictl | jpos | jwbank
  | jctl | jstat | jland | portid | pctrl | pstat | perr | pirq | canmode | canbt | canswf | canswm | canswd
  | canswdm | lincfg | t1scfg | t1cfg | macaddr | trkcfg | snscfg | sercfg | fldcfg | fldpwm | fldadc | pcicfg
  | pciwin | pcimsi | pxaddr | pxlocal | pxcmd | rtcfg | rtstat | rtaccept | rtcnt | rtupdw | rtupdcmd | rtehit
  | rteseq | rtown | svarg | svcmd | svres | ptent | ptcore | gcpoolq | gcpooli | dbbits | dbcfg | dbring | mbcfg
  | mbpool | mbbell | mbsctl | mbstat | mbsend | mbtake | clworld | horec | tsstat | tswin | carctl | carper | carcmd
  | carscope | carqwp | carqwo | lkostat | lkocfg | lkobeat | lkocmd | lkorec | elogptr | elogcfg | pwrstat | pwrph
  | pwrdom | pwrbud | pwrtemp | pwrwake | pwrwaket | pwrres | pwrcause | pwrreq | pwrreqs | pwrown | clkpll | clkss
  | clkxchk | mtnow | mtrate | mtstep | mtstat | clkown | rstcause | rstcmd | rstdom | rstreq | rstreqs | calstat
  | calpol | calcmd | caladc | calrlog | calres0 | calres1 | calu | calf | cale | lcdid | lcdstat | lcdctl | lcdsafe
  | lcdtrc | lcdtrb | lcdtri | talcfg | talbuf | talri | talstat | talmask | talsel | talblk | talbv | talacc
  | talview | fwrlo | fwrhi | fwratt | fwclo | fwchi | fwcmd | fwstat | fwcrc | fwdrec | vnstat | vnint | vnin
  | vnxcmd | vnxstat | vnhlth
deriving DecidableEq, Repr

/-- One register: its kind and its indices in the order in which its section's header names them. -/
structure Reg where
  kind : RegKind
  i : Nat
  j : Nat
  k : Nat
deriving DecidableEq, Repr

abbrev Reg.layid : Reg := ⟨.layid, 0, 0, 0⟩
abbrev Reg.laycnt : Reg := ⟨.laycnt, 0, 0, 0⟩
abbrev Reg.laysrc : Reg := ⟨.laysrc, 0, 0, 0⟩
abbrev Reg.layact : Reg := ⟨.layact, 0, 0, 0⟩
abbrev Reg.laycmd : Reg := ⟨.laycmd, 0, 0, 0⟩
abbrev Reg.laystat : Reg := ⟨.laystat, 0, 0, 0⟩
abbrev Reg.layconf : Reg := ⟨.layconf, 0, 0, 0⟩
abbrev Reg.layint : Reg := ⟨.layint, 0, 0, 0⟩
abbrev Reg.ircfg (i j : Nat) : Reg := ⟨.ircfg, i, j, 0⟩
abbrev Reg.irstate (i j : Nat) : Reg := ⟨.irstate, i, j, 0⟩
abbrev Reg.msgirq (i : Nat) : Reg := ⟨.msgirq, i, 0, 0⟩
abbrev Reg.l2ctl (i : Nat) : Reg := ⟨.l2ctl, i, 0, 0⟩
abbrev Reg.l1ctl (i j : Nat) : Reg := ⟨.l1ctl, i, j, 0⟩
abbrev Reg.l2way (i j : Nat) : Reg := ⟨.l2way, i, j, 0⟩
abbrev Reg.skaddr (i : Nat) : Reg := ⟨.skaddr, i, 0, 0⟩
abbrev Reg.sklen (i : Nat) : Reg := ⟨.sklen, i, 0, 0⟩
abbrev Reg.skcmd (i : Nat) : Reg := ⟨.skcmd, i, 0, 0⟩
abbrev Reg.skstat (i : Nat) : Reg := ⟨.skstat, i, 0, 0⟩
abbrev Reg.skcnt (i : Nat) : Reg := ⟨.skcnt, i, 0, 0⟩
abbrev Reg.skint (i : Nat) : Reg := ⟨.skint, i, 0, 0⟩
abbrev Reg.dirctl (i : Nat) : Reg := ⟨.dirctl, i, 0, 0⟩
abbrev Reg.mcstat (i : Nat) : Reg := ⟨.mcstat, i, 0, 0⟩
abbrev Reg.mctwin (i j : Nat) : Reg := ⟨.mctwin, i, j, 0⟩
abbrev Reg.mcscrub (i : Nat) : Reg := ⟨.mcscrub, i, 0, 0⟩
abbrev Reg.mcecnt (i j : Nat) : Reg := ⟨.mcecnt, i, j, 0⟩
abbrev Reg.spsteer (i : Nat) : Reg := ⟨.spsteer, i, 0, 0⟩
abbrev Reg.fbstat : Reg := ⟨.fbstat, 0, 0, 0⟩
abbrev Reg.fbcnt : Reg := ⟨.fbcnt, 0, 0, 0⟩
abbrev Reg.fbslot (i j : Nat) : Reg := ⟨.fbslot, i, j, 0⟩
abbrev Reg.gcint (i : Nat) : Reg := ⟨.gcint, i, 0, 0⟩
abbrev Reg.gcdmae (i : Nat) : Reg := ⟨.gcdmae, i, 0, 0⟩
abbrev Reg.qpcfg (i j : Nat) : Reg := ⟨.qpcfg, i, j, 0⟩
abbrev Reg.qprxr (i j : Nat) : Reg := ⟨.qprxr, i, j, 0⟩
abbrev Reg.qptxr (i j : Nat) : Reg := ⟨.qptxr, i, j, 0⟩
abbrev Reg.qpwin (i j : Nat) : Reg := ⟨.qpwin, i, j, 0⟩
abbrev Reg.qprxt (i j : Nat) : Reg := ⟨.qprxt, i, j, 0⟩
abbrev Reg.qptxt (i j : Nat) : Reg := ⟨.qptxt, i, j, 0⟩
abbrev Reg.qpictl (i j : Nat) : Reg := ⟨.qpictl, i, j, 0⟩
abbrev Reg.jpos (i : Nat) : Reg := ⟨.jpos, i, 0, 0⟩
abbrev Reg.jwbank (i : Nat) : Reg := ⟨.jwbank, i, 0, 0⟩
abbrev Reg.jctl (i j : Nat) : Reg := ⟨.jctl, i, j, 0⟩
abbrev Reg.jstat (i j : Nat) : Reg := ⟨.jstat, i, j, 0⟩
abbrev Reg.jland (i j k : Nat) : Reg := ⟨.jland, i, j, k⟩
abbrev Reg.portid (i j : Nat) : Reg := ⟨.portid, i, j, 0⟩
abbrev Reg.pctrl (i j : Nat) : Reg := ⟨.pctrl, i, j, 0⟩
abbrev Reg.pstat (i j : Nat) : Reg := ⟨.pstat, i, j, 0⟩
abbrev Reg.perr (i j : Nat) : Reg := ⟨.perr, i, j, 0⟩
abbrev Reg.pirq (i j : Nat) : Reg := ⟨.pirq, i, j, 0⟩
abbrev Reg.canmode (i j : Nat) : Reg := ⟨.canmode, i, j, 0⟩
abbrev Reg.canbt (i j : Nat) : Reg := ⟨.canbt, i, j, 0⟩
abbrev Reg.canswf (i j : Nat) : Reg := ⟨.canswf, i, j, 0⟩
abbrev Reg.canswm (i j : Nat) : Reg := ⟨.canswm, i, j, 0⟩
abbrev Reg.canswd (i j : Nat) : Reg := ⟨.canswd, i, j, 0⟩
abbrev Reg.canswdm (i j : Nat) : Reg := ⟨.canswdm, i, j, 0⟩
abbrev Reg.lincfg (i j : Nat) : Reg := ⟨.lincfg, i, j, 0⟩
abbrev Reg.t1scfg (i j : Nat) : Reg := ⟨.t1scfg, i, j, 0⟩
abbrev Reg.t1cfg (i j : Nat) : Reg := ⟨.t1cfg, i, j, 0⟩
abbrev Reg.macaddr (i j : Nat) : Reg := ⟨.macaddr, i, j, 0⟩
abbrev Reg.trkcfg (i j : Nat) : Reg := ⟨.trkcfg, i, j, 0⟩
abbrev Reg.snscfg (i j : Nat) : Reg := ⟨.snscfg, i, j, 0⟩
abbrev Reg.sercfg (i j : Nat) : Reg := ⟨.sercfg, i, j, 0⟩
abbrev Reg.fldcfg (i j : Nat) : Reg := ⟨.fldcfg, i, j, 0⟩
abbrev Reg.fldpwm (i j : Nat) : Reg := ⟨.fldpwm, i, j, 0⟩
abbrev Reg.fldadc (i j : Nat) : Reg := ⟨.fldadc, i, j, 0⟩
abbrev Reg.pcicfg (i j : Nat) : Reg := ⟨.pcicfg, i, j, 0⟩
abbrev Reg.pciwin (i j : Nat) : Reg := ⟨.pciwin, i, j, 0⟩
abbrev Reg.pcimsi (i j : Nat) : Reg := ⟨.pcimsi, i, j, 0⟩
abbrev Reg.pxaddr (i j : Nat) : Reg := ⟨.pxaddr, i, j, 0⟩
abbrev Reg.pxlocal (i j : Nat) : Reg := ⟨.pxlocal, i, j, 0⟩
abbrev Reg.pxcmd (i j : Nat) : Reg := ⟨.pxcmd, i, j, 0⟩
abbrev Reg.rtcfg (i : Nat) : Reg := ⟨.rtcfg, i, 0, 0⟩
abbrev Reg.rtstat (i : Nat) : Reg := ⟨.rtstat, i, 0, 0⟩
abbrev Reg.rtaccept (i : Nat) : Reg := ⟨.rtaccept, i, 0, 0⟩
abbrev Reg.rtcnt (i : Nat) : Reg := ⟨.rtcnt, i, 0, 0⟩
abbrev Reg.rtupdw (i j : Nat) : Reg := ⟨.rtupdw, i, j, 0⟩
abbrev Reg.rtupdcmd (i : Nat) : Reg := ⟨.rtupdcmd, i, 0, 0⟩
abbrev Reg.rtehit (i j : Nat) : Reg := ⟨.rtehit, i, j, 0⟩
abbrev Reg.rteseq (i j : Nat) : Reg := ⟨.rteseq, i, j, 0⟩
abbrev Reg.rtown (i j : Nat) : Reg := ⟨.rtown, i, j, 0⟩
abbrev Reg.svarg (i : Nat) : Reg := ⟨.svarg, i, 0, 0⟩
abbrev Reg.svcmd (i : Nat) : Reg := ⟨.svcmd, i, 0, 0⟩
abbrev Reg.svres (i : Nat) : Reg := ⟨.svres, i, 0, 0⟩
abbrev Reg.ptent (i : Nat) : Reg := ⟨.ptent, i, 0, 0⟩
abbrev Reg.ptcore (i j : Nat) : Reg := ⟨.ptcore, i, j, 0⟩
abbrev Reg.gcpoolq (i j : Nat) : Reg := ⟨.gcpoolq, i, j, 0⟩
abbrev Reg.gcpooli (i j : Nat) : Reg := ⟨.gcpooli, i, j, 0⟩
abbrev Reg.dbbits (i j : Nat) : Reg := ⟨.dbbits, i, j, 0⟩
abbrev Reg.dbcfg (i j : Nat) : Reg := ⟨.dbcfg, i, j, 0⟩
abbrev Reg.dbring (i j : Nat) : Reg := ⟨.dbring, i, j, 0⟩
abbrev Reg.mbcfg (i : Nat) : Reg := ⟨.mbcfg, i, 0, 0⟩
abbrev Reg.mbpool (i : Nat) : Reg := ⟨.mbpool, i, 0, 0⟩
abbrev Reg.mbbell (i : Nat) : Reg := ⟨.mbbell, i, 0, 0⟩
abbrev Reg.mbsctl (i : Nat) : Reg := ⟨.mbsctl, i, 0, 0⟩
abbrev Reg.mbstat (i : Nat) : Reg := ⟨.mbstat, i, 0, 0⟩
abbrev Reg.mbsend (i : Nat) : Reg := ⟨.mbsend, i, 0, 0⟩
abbrev Reg.mbtake (i : Nat) : Reg := ⟨.mbtake, i, 0, 0⟩
abbrev Reg.clworld (i : Nat) : Reg := ⟨.clworld, i, 0, 0⟩
abbrev Reg.horec (i : Nat) : Reg := ⟨.horec, i, 0, 0⟩
abbrev Reg.tsstat : Reg := ⟨.tsstat, 0, 0, 0⟩
abbrev Reg.tswin (i : Nat) : Reg := ⟨.tswin, i, 0, 0⟩
abbrev Reg.carctl : Reg := ⟨.carctl, 0, 0, 0⟩
abbrev Reg.carper (i : Nat) : Reg := ⟨.carper, i, 0, 0⟩
abbrev Reg.carcmd : Reg := ⟨.carcmd, 0, 0, 0⟩
abbrev Reg.carscope (i : Nat) : Reg := ⟨.carscope, i, 0, 0⟩
abbrev Reg.carqwp (i : Nat) : Reg := ⟨.carqwp, i, 0, 0⟩
abbrev Reg.carqwo (i : Nat) : Reg := ⟨.carqwo, i, 0, 0⟩
abbrev Reg.lkostat : Reg := ⟨.lkostat, 0, 0, 0⟩
abbrev Reg.lkocfg : Reg := ⟨.lkocfg, 0, 0, 0⟩
abbrev Reg.lkobeat : Reg := ⟨.lkobeat, 0, 0, 0⟩
abbrev Reg.lkocmd : Reg := ⟨.lkocmd, 0, 0, 0⟩
abbrev Reg.lkorec (i : Nat) : Reg := ⟨.lkorec, i, 0, 0⟩
abbrev Reg.elogptr : Reg := ⟨.elogptr, 0, 0, 0⟩
abbrev Reg.elogcfg : Reg := ⟨.elogcfg, 0, 0, 0⟩
abbrev Reg.pwrstat : Reg := ⟨.pwrstat, 0, 0, 0⟩
abbrev Reg.pwrph : Reg := ⟨.pwrph, 0, 0, 0⟩
abbrev Reg.pwrdom : Reg := ⟨.pwrdom, 0, 0, 0⟩
abbrev Reg.pwrbud : Reg := ⟨.pwrbud, 0, 0, 0⟩
abbrev Reg.pwrtemp : Reg := ⟨.pwrtemp, 0, 0, 0⟩
abbrev Reg.pwrwake : Reg := ⟨.pwrwake, 0, 0, 0⟩
abbrev Reg.pwrwaket : Reg := ⟨.pwrwaket, 0, 0, 0⟩
abbrev Reg.pwrres : Reg := ⟨.pwrres, 0, 0, 0⟩
abbrev Reg.pwrcause : Reg := ⟨.pwrcause, 0, 0, 0⟩
abbrev Reg.pwrreq (i : Nat) : Reg := ⟨.pwrreq, i, 0, 0⟩
abbrev Reg.pwrreqs (i : Nat) : Reg := ⟨.pwrreqs, i, 0, 0⟩
abbrev Reg.pwrown (i : Nat) : Reg := ⟨.pwrown, i, 0, 0⟩
abbrev Reg.clkpll (i : Nat) : Reg := ⟨.clkpll, i, 0, 0⟩
abbrev Reg.clkss (i : Nat) : Reg := ⟨.clkss, i, 0, 0⟩
abbrev Reg.clkxchk : Reg := ⟨.clkxchk, 0, 0, 0⟩
abbrev Reg.mtnow : Reg := ⟨.mtnow, 0, 0, 0⟩
abbrev Reg.mtrate : Reg := ⟨.mtrate, 0, 0, 0⟩
abbrev Reg.mtstep : Reg := ⟨.mtstep, 0, 0, 0⟩
abbrev Reg.mtstat : Reg := ⟨.mtstat, 0, 0, 0⟩
abbrev Reg.clkown (i : Nat) : Reg := ⟨.clkown, i, 0, 0⟩
abbrev Reg.rstcause : Reg := ⟨.rstcause, 0, 0, 0⟩
abbrev Reg.rstcmd : Reg := ⟨.rstcmd, 0, 0, 0⟩
abbrev Reg.rstdom : Reg := ⟨.rstdom, 0, 0, 0⟩
abbrev Reg.rstreq (i : Nat) : Reg := ⟨.rstreq, i, 0, 0⟩
abbrev Reg.rstreqs (i : Nat) : Reg := ⟨.rstreqs, i, 0, 0⟩
abbrev Reg.calstat : Reg := ⟨.calstat, 0, 0, 0⟩
abbrev Reg.calpol : Reg := ⟨.calpol, 0, 0, 0⟩
abbrev Reg.calcmd : Reg := ⟨.calcmd, 0, 0, 0⟩
abbrev Reg.caladc : Reg := ⟨.caladc, 0, 0, 0⟩
abbrev Reg.calrlog : Reg := ⟨.calrlog, 0, 0, 0⟩
abbrev Reg.calres0 (i : Nat) : Reg := ⟨.calres0, i, 0, 0⟩
abbrev Reg.calres1 (i : Nat) : Reg := ⟨.calres1, i, 0, 0⟩
abbrev Reg.calu (i : Nat) : Reg := ⟨.calu, i, 0, 0⟩
abbrev Reg.calf (i : Nat) : Reg := ⟨.calf, i, 0, 0⟩
abbrev Reg.cale (i : Nat) : Reg := ⟨.cale, i, 0, 0⟩
abbrev Reg.lcdid : Reg := ⟨.lcdid, 0, 0, 0⟩
abbrev Reg.lcdstat : Reg := ⟨.lcdstat, 0, 0, 0⟩
abbrev Reg.lcdctl : Reg := ⟨.lcdctl, 0, 0, 0⟩
abbrev Reg.lcdsafe (i : Nat) : Reg := ⟨.lcdsafe, i, 0, 0⟩
abbrev Reg.lcdtrc (i : Nat) : Reg := ⟨.lcdtrc, i, 0, 0⟩
abbrev Reg.lcdtrb (i : Nat) : Reg := ⟨.lcdtrb, i, 0, 0⟩
abbrev Reg.lcdtri (i : Nat) : Reg := ⟨.lcdtri, i, 0, 0⟩
abbrev Reg.talcfg : Reg := ⟨.talcfg, 0, 0, 0⟩
abbrev Reg.talbuf : Reg := ⟨.talbuf, 0, 0, 0⟩
abbrev Reg.talri : Reg := ⟨.talri, 0, 0, 0⟩
abbrev Reg.talstat : Reg := ⟨.talstat, 0, 0, 0⟩
abbrev Reg.talmask (i : Nat) : Reg := ⟨.talmask, i, 0, 0⟩
abbrev Reg.talsel (i : Nat) : Reg := ⟨.talsel, i, 0, 0⟩
abbrev Reg.talblk (i : Nat) : Reg := ⟨.talblk, i, 0, 0⟩
abbrev Reg.talbv (i : Nat) : Reg := ⟨.talbv, i, 0, 0⟩
abbrev Reg.talacc (i j : Nat) : Reg := ⟨.talacc, i, j, 0⟩
abbrev Reg.talview (i : Nat) : Reg := ⟨.talview, i, 0, 0⟩
abbrev Reg.fwrlo (i j : Nat) : Reg := ⟨.fwrlo, i, j, 0⟩
abbrev Reg.fwrhi (i j : Nat) : Reg := ⟨.fwrhi, i, j, 0⟩
abbrev Reg.fwratt (i j : Nat) : Reg := ⟨.fwratt, i, j, 0⟩
abbrev Reg.fwclo (i j : Nat) : Reg := ⟨.fwclo, i, j, 0⟩
abbrev Reg.fwchi (i j : Nat) : Reg := ⟨.fwchi, i, j, 0⟩
abbrev Reg.fwcmd (i : Nat) : Reg := ⟨.fwcmd, i, 0, 0⟩
abbrev Reg.fwstat (i : Nat) : Reg := ⟨.fwstat, i, 0, 0⟩
abbrev Reg.fwcrc (i : Nat) : Reg := ⟨.fwcrc, i, 0, 0⟩
abbrev Reg.fwdrec (i : Nat) : Reg := ⟨.fwdrec, i, 0, 0⟩
abbrev Reg.vnstat : Reg := ⟨.vnstat, 0, 0, 0⟩
abbrev Reg.vnint : Reg := ⟨.vnint, 0, 0, 0⟩
abbrev Reg.vnin (i : Nat) : Reg := ⟨.vnin, i, 0, 0⟩
abbrev Reg.vnxcmd : Reg := ⟨.vnxcmd, 0, 0, 0⟩
abbrev Reg.vnxstat : Reg := ⟨.vnxstat, 0, 0, 0⟩
abbrev Reg.vnhlth (i : Nat) : Reg := ⟨.vnhlth, i, 0, 0⟩

def Fld.layidFullid : Field := ⟨63, 32, .roh, []⟩
def Fld.layidActid : Field := ⟨31, 0, .roh, []⟩
def Fld.laycntStored : Field := ⟨41, 32, .roh, []⟩
def Fld.laycntActive : Field := ⟨9, 0, .roh, []⟩
def Fld.laysrcAddr : Field := ⟨39, 3, .rw, []⟩
def Fld.layactTime : Field := ⟨63, 0, .rw, []⟩
def Fld.laycmdCmd : Field := ⟨7, 0, .rwk, [(1, 4)]⟩
def Fld.laystatSect : Field := ⟨47, 32, .roh, []⟩
def Fld.laystatPhase : Field := ⟨18, 16, .roh, []⟩
def Fld.laystatCode : Field := ⟨7, 0, .roh, []⟩
def Fld.layconfClass : Field := ⟨63, 56, .roh, []⟩
def Fld.layconfHolder : Field := ⟨47, 32, .roh, []⟩
def Fld.layconfIndex : Field := ⟨31, 0, .roh, []⟩
def Fld.layintCl : Field := ⟨47, 44, .rw, []⟩
def Fld.layintIrq : Field := ⟨43, 32, .rw, [(0, 0), (1152, 4095)]⟩
def Fld.layintErr : Field := ⟨2, 2, .w1c, []⟩
def Fld.layintActivated : Field := ⟨1, 1, .w1c, []⟩
def Fld.layintStaged : Field := ⟨0, 0, .w1c, []⟩
def Fld.ircfgPid : Field := ⟨31, 24, .rwk, []⟩
def Fld.ircfgWorld : Field := ⟨23, 23, .rwk, []⟩
def Fld.ircfgDel : Field := ⟨19, 18, .rwk, [(0, 2)]⟩
def Fld.ircfgPrio : Field := ⟨13, 8, .rwk, []⟩
def Fld.ircfgLcore : Field := ⟨6, 0, .rwk, []⟩
def Fld.irstateAnysend : Field := ⟨40, 40, .rw, []⟩
def Fld.irstateSendpid : Field := ⟨39, 32, .rw, []⟩
def Fld.irstateAct : Field := ⟨1, 1, .roh, []⟩
def Fld.irstatePend : Field := ⟨0, 0, .w1c, []⟩
def Fld.msgirqId : Field := ⟨11, 0, .wo, []⟩
def Fld.l2ctlBusy : Field := ⟨16, 16, .roh, []⟩
def Fld.l2ctlAgeerr : Field := ⟨12, 12, .roh, []⟩
def Fld.l2ctlPfen : Field := ⟨8, 8, .rw, []⟩
def Fld.l2ctlRepmode : Field := ⟨5, 4, .rw, [(0, 1)]⟩
def Fld.l2ctlEn : Field := ⟨0, 0, .rw, []⟩
def Fld.l1ctlDbusy : Field := ⟨16, 16, .roh, []⟩
def Fld.l1ctlAgeerr : Field := ⟨12, 12, .roh, []⟩
def Fld.l1ctlPfen : Field := ⟨8, 8, .rw, []⟩
def Fld.l1ctlRepmode : Field := ⟨5, 4, .rw, [(0, 1)]⟩
def Fld.l1ctlIen : Field := ⟨1, 1, .rw, []⟩
def Fld.l1ctlDen : Field := ⟨0, 0, .rw, []⟩
def Fld.l2wayMask : Field := ⟨15, 0, .rwk, [(1, 65535)]⟩
def Fld.skaddrAddr : Field := ⟨39, 6, .rw, []⟩
def Fld.sklenLines : Field := ⟨25, 0, .rw, [(0, 33554432)]⟩
def Fld.skcmdPid : Field := ⟨31, 24, .rwk, []⟩
def Fld.skcmdIncludelocked : Field := ⟨16, 16, .rwk, []⟩
def Fld.skcmdJ : Field := ⟨14, 12, .rwk, []⟩
def Fld.skcmdTarget : Field := ⟨10, 8, .rwk, [(0, 2)]⟩
def Fld.skcmdOp : Field := ⟨7, 0, .rwk, [(1, 6)]⟩
def Fld.skstatBusy : Field := ⟨31, 31, .roh, []⟩
def Fld.skstatRefused : Field := ⟨30, 30, .w1c, []⟩
def Fld.skstatCode : Field := ⟨7, 0, .roh, []⟩
def Fld.skcntSkipped : Field := ⟨57, 32, .roh, []⟩
def Fld.skcntDone : Field := ⟨25, 0, .roh, []⟩
def Fld.skintIrq : Field := ⟨43, 32, .rw, [(0, 0), (1152, 4095)]⟩
def Fld.skintLost : Field := ⟨2, 2, .w1c, []⟩
def Fld.skintErr : Field := ⟨1, 1, .w1c, []⟩
def Fld.skintDone : Field := ⟨0, 0, .w1c, []⟩
def Fld.dirctlMode : Field := ⟨31, 31, .rwk, []⟩
def Fld.dirctlTmo : Field := ⟨9, 0, .rwk, [(16, 1023)]⟩
def Fld.mcstatSingle : Field := ⟨16, 16, .roh, []⟩
def Fld.mcstatDie1 : Field := ⟨9, 8, .roh, []⟩
def Fld.mcstatDie0 : Field := ⟨1, 0, .roh, []⟩
def Fld.mctwinEn : Field := ⟨31, 31, .rwk, []⟩
def Fld.mctwinSize : Field := ⟨19, 10, .rwk, [(0, 512)]⟩
def Fld.mctwinBase : Field := ⟨9, 0, .rwk, []⟩
def Fld.mcscrubPeriod : Field := ⟨7, 0, .rwk, [(1, 168)]⟩
def Fld.mcecntCount : Field := ⟨63, 32, .w1cAll, []⟩
def Fld.mcecntThr : Field := ⟨15, 0, .rw, []⟩
def Fld.spsteerDone : Field := ⟨63, 32, .roh, []⟩
def Fld.spsteerDie : Field := ⟨11, 8, .roh, []⟩
def Fld.spsteerState : Field := ⟨2, 0, .roh, []⟩
def Fld.fbstatPlaneb : Field := ⟨5, 4, .roh, []⟩
def Fld.fbstatPlanea : Field := ⟨1, 0, .roh, []⟩
def Fld.fbcntCmperr : Field := ⟨63, 32, .w1cAll, []⟩
def Fld.fbcntResend : Field := ⟨31, 0, .w1cAll, []⟩
def Fld.fbslotEn : Field := ⟨8, 8, .rwk, []⟩
def Fld.fbslotPid : Field := ⟨7, 0, .rwk, [(0, 254)]⟩
def Fld.gcintEvt : Field := ⟨7, 0, .w1c, []⟩
def Fld.gcdmaeValid : Field := ⟨63, 63, .w1c, []⟩
def Fld.gcdmaeQp : Field := ⟨62, 56, .roh, []⟩
def Fld.gcdmaeBytes : Field := ⟨55, 44, .roh, []⟩
def Fld.gcdmaeAddr : Field := ⟨39, 0, .roh, []⟩
def Fld.qpcfgPid : Field := ⟨31, 24, .rwk, [(0, 254)]⟩
def Fld.qpcfgEn : Field := ⟨23, 23, .rwk, []⟩
def Fld.qpcfgRxlog2 : Field := ⟨15, 12, .rwk, []⟩
def Fld.qpcfgTxlog2 : Field := ⟨11, 8, .rwk, []⟩
def Fld.qprxrBase : Field := ⟨39, 5, .rw, []⟩
def Fld.qptxrBase : Field := ⟨39, 5, .rw, []⟩
def Fld.qpwinSize : Field := ⟨63, 44, .rw, []⟩
def Fld.qpwinBase : Field := ⟨39, 12, .rw, []⟩
def Fld.qprxtHead : Field := ⟨31, 16, .roh, []⟩
def Fld.qprxtTail : Field := ⟨15, 0, .rw, []⟩
def Fld.qptxtHead : Field := ⟨31, 16, .roh, []⟩
def Fld.qptxtTail : Field := ⟨15, 0, .rw, []⟩
def Fld.qpictlDrop : Field := ⟨63, 32, .w1cAll, []⟩
def Fld.qpictlTxpend : Field := ⟨3, 3, .w1c, []⟩
def Fld.qpictlRxpend : Field := ⟨2, 2, .w1c, []⟩
def Fld.qpictlTxie : Field := ⟨1, 1, .rw, []⟩
def Fld.qpictlRxie : Field := ⟨0, 0, .rw, []⟩
def Fld.jposJoin : Field := ⟨25, 24, .roh, []⟩
def Fld.jposSstate : Field := ⟨22, 20, .roh, []⟩
def Fld.jposSpare : Field := ⟨18, 16, .roh, []⟩
def Fld.jposPos3 : Field := ⟨14, 12, .roh, []⟩
def Fld.jposPos2 : Field := ⟨10, 8, .roh, []⟩
def Fld.jposPos1 : Field := ⟨6, 4, .roh, []⟩
def Fld.jposPos0 : Field := ⟨2, 0, .roh, []⟩
def Fld.jwbankAlt : Field := ⟨4, 4, .rw, []⟩
def Fld.jwbankPos : Field := ⟨3, 2, .rw, []⟩
def Fld.jwbankHalf : Field := ⟨1, 1, .rw, []⟩
def Fld.jwbankPart : Field := ⟨0, 0, .rw, []⟩
def Fld.jctlOwner : Field := ⟨31, 16, .rwk, []⟩
def Fld.jctlRun : Field := ⟨0, 0, .rwk, []⟩
def Fld.jstatOvr : Field := ⟨63, 52, .w1cAll, []⟩
def Fld.jstatSkip : Field := ⟨51, 40, .w1cAll, []⟩
def Fld.jstatCause : Field := ⟨39, 32, .roh, []⟩
def Fld.jstatSlot : Field := ⟨31, 24, .roh, []⟩
def Fld.jstatState : Field := ⟨19, 16, .roh, []⟩
def Fld.jstatFpc : Field := ⟨15, 0, .roh, []⟩
def Fld.jlandSize : Field := ⟨47, 32, .rw, []⟩
def Fld.jlandCount : Field := ⟨27, 24, .rw, [(0, 15)]⟩
def Fld.jlandBase : Field := ⟨15, 0, .rw, []⟩
def Fld.portidIfc : Field := ⟨31, 24, .roh, []⟩
def Fld.portidGroup : Field := ⟨15, 8, .ro, []⟩
def Fld.portidPort : Field := ⟨7, 0, .ro, []⟩
def Fld.pctrlSlew : Field := ⟨9, 8, .rw, []⟩
def Fld.pctrlErrclr : Field := ⟨5, 5, .wo, []⟩
def Fld.pctrlLoop : Field := ⟨4, 4, .rw, []⟩
def Fld.pctrlWakeen : Field := ⟨3, 3, .rw, []⟩
def Fld.pctrlTerm : Field := ⟨2, 2, .rw, []⟩
def Fld.pctrlEn : Field := ⟨0, 0, .rw, []⟩
def Fld.pstatStatus : Field := ⟨63, 0, .roh, []⟩
def Fld.perrRxerr : Field := ⟨63, 32, .w1cAll, []⟩
def Fld.perrTxerr : Field := ⟨31, 0, .w1cAll, []⟩
def Fld.pirqIe : Field := ⟨19, 16, .rw, []⟩
def Fld.pirqEvt : Field := ⟨3, 3, .w1c, []⟩
def Fld.pirqFault : Field := ⟨2, 2, .w1c, []⟩
def Fld.pirqErr : Field := ⟨1, 1, .w1c, []⟩
def Fld.pirqWake : Field := ⟨0, 0, .w1c, []⟩
def Fld.canmodeTdco : Field := ⟨23, 16, .rw, []⟩
def Fld.canmodeTdcen : Field := ⟨11, 11, .rw, []⟩
def Fld.canmodeAutorec : Field := ⟨8, 8, .rw, []⟩
def Fld.canmodeMonitor : Field := ⟨7, 7, .rw, []⟩
def Fld.canmodeRestrict : Field := ⟨6, 6, .rw, []⟩
def Fld.canmodeXcvr : Field := ⟨5, 4, .rw, [(0, 2)]⟩
def Fld.canmodeXlen : Field := ⟨1, 1, .rw, []⟩
def Fld.canmodeFden : Field := ⟨0, 0, .rw, []⟩
def Fld.canbtDsjw : Field := ⟨58, 52, .rw, []⟩
def Fld.canbtDtseg2 : Field := ⟨51, 45, .rw, []⟩
def Fld.canbtDtseg1 : Field := ⟨44, 37, .rw, []⟩
def Fld.canbtDbrp : Field := ⟨36, 32, .rw, []⟩
def Fld.canbtNsjw : Field := ⟨26, 20, .rw, []⟩
def Fld.canbtNtseg2 : Field := ⟨19, 13, .rw, []⟩
def Fld.canbtNtseg1 : Field := ⟨12, 5, .rw, []⟩
def Fld.canbtNbrp : Field := ⟨4, 0, .rw, []⟩
def Fld.canswfRate : Field := ⟨43, 42, .rw, []⟩
def Fld.canswfEn : Field := ⟨41, 41, .rw, []⟩
def Fld.canswfDlcen : Field := ⟨40, 40, .rw, []⟩
def Fld.canswfDlc : Field := ⟨35, 32, .rw, [(0, 8)]⟩
def Fld.canswfIde : Field := ⟨29, 29, .rw, []⟩
def Fld.canswfId : Field := ⟨28, 0, .rw, []⟩
def Fld.canswmMask : Field := ⟨28, 0, .rw, []⟩
def Fld.canswdData : Field := ⟨63, 0, .rw, []⟩
def Fld.canswdmMask : Field := ⟨63, 0, .rw, []⟩
def Fld.lincfgRate : Field := ⟨31, 16, .rw, [(1000, 20000)]⟩
def Fld.lincfgBrk : Field := ⟨11, 8, .rw, [(0, 7)]⟩
def Fld.lincfgLowslope : Field := ⟨3, 3, .rw, []⟩
def Fld.lincfgAutobaud : Field := ⟨2, 2, .rw, []⟩
def Fld.lincfgRole : Field := ⟨0, 0, .rw, []⟩
def Fld.t1scfgBtmr : Field := ⟨47, 40, .rw, []⟩
def Fld.t1scfgBurst : Field := ⟨39, 32, .rw, []⟩
def Fld.t1scfgTotmr : Field := ⟨31, 24, .rw, [(1, 255)]⟩
def Fld.t1scfgNcnt : Field := ⟨23, 16, .rw, [(1, 32)]⟩
def Fld.t1scfgNodeid : Field := ⟨15, 8, .rw, [(0, 31)]⟩
def Fld.t1scfgPlcaen : Field := ⟨0, 0, .rw, []⟩
def Fld.t1cfgAnen : Field := ⟨4, 4, .rw, []⟩
def Fld.t1cfgMaster : Field := ⟨3, 3, .rw, []⟩
def Fld.t1cfgSpeed : Field := ⟨2, 0, .rw, [(0, 1)]⟩
def Fld.macaddrPromisc : Field := ⟨48, 48, .rw, []⟩
def Fld.macaddrAddr : Field := ⟨47, 0, .rw, []⟩
def Fld.trkcfgCipher : Field := ⟨17, 16, .rw, [(0, 1)]⟩
def Fld.trkcfgMsecreq : Field := ⟨9, 9, .rw, []⟩
def Fld.trkcfgMsecen : Field := ⟨8, 8, .rw, []⟩
def Fld.trkcfgAnen : Field := ⟨4, 4, .rw, []⟩
def Fld.trkcfgMaster : Field := ⟨3, 3, .rw, []⟩
def Fld.trkcfgSpeed : Field := ⟨2, 0, .rw, [(0, 2)]⟩
def Fld.snscfgVsup : Field := ⟨55, 48, .rw, []⟩
def Fld.snscfgNslot : Field := ⟨45, 44, .rw, []⟩
def Fld.snscfgSyncm : Field := ⟨42, 42, .rw, []⟩
def Fld.snscfgCrc : Field := ⟨41, 41, .rw, []⟩
def Fld.snscfgDbits : Field := ⟨40, 36, .rw, [(10, 28)]⟩
def Fld.snscfgPrate : Field := ⟨32, 32, .rw, []⟩
def Fld.snscfgSlow : Field := ⟨23, 23, .rw, []⟩
def Fld.snscfgPause : Field := ⟨22, 22, .rw, []⟩
def Fld.snscfgCrcleg : Field := ⟨21, 21, .rw, []⟩
def Fld.snscfgNib : Field := ⟨19, 16, .rw, [(1, 6)]⟩
def Fld.snscfgTick : Field := ⟨15, 8, .rw, [(6, 180)]⟩
def Fld.snscfgSel : Field := ⟨0, 0, .rw, []⟩
def Fld.sercfgFlow : Field := ⟨50, 50, .rw, []⟩
def Fld.sercfgVio : Field := ⟨49, 49, .rw, []⟩
def Fld.sercfgDbits : Field := ⟨48, 45, .rw, [(5, 9)]⟩
def Fld.sercfgStop2 : Field := ⟨44, 44, .rw, []⟩
def Fld.sercfgParity : Field := ⟨43, 42, .rw, [(0, 2)]⟩
def Fld.sercfgLsbf : Field := ⟨41, 41, .rw, []⟩
def Fld.sercfgWlen : Field := ⟨40, 36, .rw, [(3, 31)]⟩
def Fld.sercfgSpimode : Field := ⟨35, 34, .rw, []⟩
def Fld.sercfgMode : Field := ⟨33, 32, .rw, [(0, 2)]⟩
def Fld.sercfgRate : Field := ⟨24, 0, .rw, []⟩
def Fld.fldcfgEdge : Field := ⟨35, 34, .rw, []⟩
def Fld.fldcfgSafe : Field := ⟨33, 32, .rw, []⟩
def Fld.fldcfgInv : Field := ⟨31, 31, .rw, []⟩
def Fld.fldcfgArange : Field := ⟨29, 28, .rw, [(0, 2)]⟩
def Fld.fldcfgFilt : Field := ⟨27, 24, .rw, [(0, 11)]⟩
def Fld.fldcfgVtl : Field := ⟨23, 16, .rw, [(0, 240)]⟩
def Fld.fldcfgVth : Field := ⟨15, 8, .rw, [(0, 240)]⟩
def Fld.fldcfgPull : Field := ⟨7, 6, .rw, []⟩
def Fld.fldcfgVout : Field := ⟨3, 3, .rw, []⟩
def Fld.fldcfgMode : Field := ⟨2, 0, .rw, []⟩
def Fld.fldpwmPeriod : Field := ⟨31, 0, .rw, [(10000, 1000000000)]⟩
def Fld.fldadcTime : Field := ⟨63, 16, .roh, []⟩
def Fld.fldadcNew : Field := ⟨15, 15, .w1c, []⟩
def Fld.fldadcCode : Field := ⟨11, 0, .roh, []⟩
def Fld.pcicfgIcl : Field := ⟨19, 16, .rw, []⟩
def Fld.pcicfgRefout : Field := ⟨5, 5, .rw, []⟩
def Fld.pcicfgAspml1 : Field := ⟨4, 4, .rw, []⟩
def Fld.pcicfgMaxgen : Field := ⟨3, 2, .rw, []⟩
def Fld.pcicfgRole : Field := ⟨0, 0, .rw, []⟩
def Fld.pciwinSize : Field := ⟨48, 44, .rw, [(0, 19)]⟩
def Fld.pciwinBase : Field := ⟨39, 12, .rw, []⟩
def Fld.pcimsiVec : Field := ⟨5, 0, .wo, []⟩
def Fld.pxaddrAddr : Field := ⟨63, 0, .rw, []⟩
def Fld.pxlocalAddr : Field := ⟨39, 0, .rw, []⟩
def Fld.pxcmdBusy : Field := ⟨63, 63, .roh, []⟩
def Fld.pxcmdCode : Field := ⟨55, 48, .roh, []⟩
def Fld.pxcmdGo : Field := ⟨31, 31, .wo, []⟩
def Fld.pxcmdDir : Field := ⟨30, 30, .rw, []⟩
def Fld.pxcmdCfg : Field := ⟨29, 29, .rw, []⟩
def Fld.pxcmdLen : Field := ⟨23, 0, .rw, [(1, 16777215)]⟩
def Fld.rtcfgEn : Field := ⟨31, 31, .rwk, []⟩
def Fld.rtcfgMissdel : Field := ⟨8, 8, .rwk, []⟩
def Fld.rtcfgMissqp : Field := ⟨6, 0, .rwk, []⟩
def Fld.rtstatBadidx : Field := ⟨27, 16, .roh, []⟩
def Fld.rtstatUcode : Field := ⟨15, 8, .roh, []⟩
def Fld.rtstatInteg : Field := ⟨2, 2, .w1c, []⟩
def Fld.rtstatUbusy : Field := ⟨1, 1, .roh, []⟩
def Fld.rtstatBank : Field := ⟨0, 0, .roh, []⟩
def Fld.rtacceptAccept : Field := ⟨31, 0, .rwk, []⟩
def Fld.rtcntMiss : Field := ⟨63, 48, .w1cAll, []⟩
def Fld.rtcntQdrop : Field := ⟨47, 32, .w1cAll, []⟩
def Fld.rtcntDenied : Field := ⟨31, 16, .w1cAll, []⟩
def Fld.rtcntAbsent : Field := ⟨15, 0, .w1cAll, []⟩
def Fld.rtupdwValue : Field := ⟨31, 0, .rwk, []⟩
def Fld.rtupdcmdIndex : Field := ⟨27, 16, .rwk, []⟩
def Fld.rtupdcmdCmd : Field := ⟨7, 0, .rwk, [(1, 2)]⟩
def Fld.rtehitHits : Field := ⟨63, 32, .w1cAll, []⟩
def Fld.rtehitFails : Field := ⟨31, 0, .w1cAll, []⟩
def Fld.rteseqLast : Field := ⟨63, 16, .roh, []⟩
def Fld.rteseqLastcnt : Field := ⟨15, 8, .roh, []⟩
def Fld.rteseqEstate : Field := ⟨7, 6, .roh, []⟩
def Fld.rteseqResult : Field := ⟨2, 0, .roh, []⟩
def Fld.rtownValid : Field := ⟨8, 8, .rwk, []⟩
def Fld.rtownPid : Field := ⟨7, 0, .rwk, []⟩
def Fld.svargFeat : Field := ⟨63, 56, .rw, []⟩
def Fld.svargPid : Field := ⟨55, 48, .rw, []⟩
def Fld.svargClass : Field := ⟨47, 40, .rw, []⟩
def Fld.svargCount : Field := ⟨35, 24, .rw, [(1, 4095)]⟩
def Fld.svargIndex : Field := ⟨12, 0, .rw, []⟩
def Fld.svcmdCmd : Field := ⟨7, 0, .rwk, [(1, 7)]⟩
def Fld.svresBusy : Field := ⟨63, 63, .roh, []⟩
def Fld.svresHolder : Field := ⟨47, 32, .roh, []⟩
def Fld.svresIndex : Field := ⟨27, 16, .roh, []⟩
def Fld.svresCode : Field := ⟨7, 0, .roh, []⟩
def Fld.ptentTol : Field := ⟨47, 32, .roh, []⟩
def Fld.ptentNrun : Field := ⟨23, 16, .roh, []⟩
def Fld.ptentWorld : Field := ⟨8, 8, .roh, []⟩
def Fld.ptentState : Field := ⟨2, 0, .roh, []⟩
def Fld.ptcoreCores : Field := ⟨63, 0, .roh, []⟩
def Fld.gcpoolqAny : Field := ⟨8, 8, .rwk, []⟩
def Fld.gcpoolqPid : Field := ⟨7, 0, .rwk, [(0, 254)]⟩
def Fld.gcpooliAny : Field := ⟨8, 8, .rwk, []⟩
def Fld.gcpooliPid : Field := ⟨7, 0, .rwk, [(0, 254)]⟩
def Fld.dbbitsMask : Field := ⟨63, 32, .rw, []⟩
def Fld.dbbitsBits : Field := ⟨31, 0, .w1c, []⟩
def Fld.dbcfgWake : Field := ⟨16, 16, .rw, []⟩
def Fld.dbcfgPrio : Field := ⟨13, 8, .rw, []⟩
def Fld.dbcfgTarget : Field := ⟨2, 0, .rw, []⟩
def Fld.dbringSet : Field := ⟨31, 0, .wo, []⟩
def Fld.mbcfgEn : Field := ⟨31, 31, .rwk, []⟩
def Fld.mbcfgRep : Field := ⟨28, 16, .rwk, []⟩
def Fld.mbcfgSep : Field := ⟨12, 0, .rwk, []⟩
def Fld.mbpoolAnyr : Field := ⟨24, 24, .rwk, []⟩
def Fld.mbpoolRpid : Field := ⟨23, 16, .rwk, []⟩
def Fld.mbpoolAnys : Field := ⟨8, 8, .rwk, []⟩
def Fld.mbpoolSpid : Field := ⟨7, 0, .rwk, []⟩
def Fld.mbbellRbit : Field := ⟨12, 8, .rw, []⟩
def Fld.mbbellSbit : Field := ⟨4, 0, .rw, []⟩
def Fld.mbsctlLen : Field := ⟨39, 32, .rw, [(0, 192)]⟩
def Fld.mbsctlMbto : Field := ⟨19, 0, .rw, [(0, 1000000)]⟩
def Fld.mbstatMseq : Field := ⟨63, 48, .roh, []⟩
def Fld.mbstatLen : Field := ⟨47, 40, .roh, []⟩
def Fld.mbstatOutcome : Field := ⟨33, 32, .roh, []⟩
def Fld.mbstatStale : Field := ⟨16, 16, .roh, []⟩
def Fld.mbstatFull : Field := ⟨0, 0, .roh, []⟩
def Fld.mbsendMseq : Field := ⟨63, 48, .roh, []⟩
def Fld.mbsendCode : Field := ⟨7, 0, .roh, []⟩
def Fld.mbtakeMseq : Field := ⟨63, 48, .roh, []⟩
def Fld.mbtakeLen : Field := ⟨47, 40, .roh, []⟩
def Fld.mbtakeStale : Field := ⟨1, 1, .roh, []⟩
def Fld.mbtakeTaken : Field := ⟨0, 0, .roh, []⟩
def Fld.clworldTcore : Field := ⟨23, 16, .rwk, []⟩
def Fld.clworldTways : Field := ⟨15, 0, .rwk, []⟩
def Fld.horecTopid : Field := ⟨63, 56, .roh, []⟩
def Fld.horecToworld : Field := ⟨55, 55, .roh, []⟩
def Fld.horecFrompid : Field := ⟨47, 40, .roh, []⟩
def Fld.horecFromworld : Field := ⟨39, 39, .roh, []⟩
def Fld.horecKind : Field := ⟨35, 32, .roh, []⟩
def Fld.horecBlock : Field := ⟨31, 8, .roh, []⟩
def Fld.horecState : Field := ⟨1, 0, .roh, []⟩
def Fld.tsstatEpoch : Field := ⟨63, 32, .roh, []⟩
def Fld.tsstatState : Field := ⟨1, 0, .roh, []⟩
def Fld.tswinSize : Field := ⟨63, 44, .rw, []⟩
def Fld.tswinBase : Field := ⟨39, 12, .rw, []⟩
def Fld.carctlEn : Field := ⟨31, 31, .rwk, []⟩
def Fld.carctlKinds : Field := ⟨4, 0, .rwk, []⟩
def Fld.carperPeriod : Field := ⟨31, 0, .rwk, [(30, 604800)]⟩
def Fld.carcmdScope : Field := ⟨21, 16, .rwk, [(0, 51)]⟩
def Fld.carcmdCmd : Field := ⟨7, 0, .rwk, [(1, 3)]⟩
def Fld.carscopeSpare : Field := ⟨59, 56, .roh, []⟩
def Fld.carscopeState : Field := ⟨50, 48, .roh, []⟩
def Fld.carscopeRetired : Field := ⟨40, 32, .roh, []⟩
def Fld.carscopeSteps : Field := ⟨31, 0, .roh, []⟩
def Fld.carqwpEn : Field := ⟨31, 31, .rwk, []⟩
def Fld.carqwpPeriod : Field := ⟨19, 0, .rwk, []⟩
def Fld.carqwoLen : Field := ⟨31, 20, .rwk, [(0, 0), (2, 4095)]⟩
def Fld.carqwoOffset : Field := ⟨19, 0, .rwk, []⟩
def Fld.lkostatOk : Field := ⟨31, 31, .roh, []⟩
def Fld.lkostatLkerr : Field := ⟨30, 30, .roh, []⟩
def Fld.lkostatCause : Field := ⟨23, 16, .roh, []⟩
def Fld.lkocfgHbto : Field := ⟨31, 24, .rwk, []⟩
def Fld.lkocfgHang : Field := ⟨15, 0, .rwk, [(100, 50000)]⟩
def Fld.lkobeatBeat : Field := ⟨63, 0, .wo, []⟩
def Fld.lkocmdLcore : Field := ⟨14, 8, .rwk, []⟩
def Fld.lkocmdCmd : Field := ⟨7, 0, .rwk, [(1, 3)]⟩
def Fld.lkorecValid : Field := ⟨63, 63, .w1c, []⟩
def Fld.lkorecKind : Field := ⟨55, 48, .roh, []⟩
def Fld.lkorecTime : Field := ⟨47, 0, .roh, []⟩
def Fld.elogptrWritten : Field := ⟨63, 32, .roh, []⟩
def Fld.elogptrLost : Field := ⟨31, 16, .w1cAll, []⟩
def Fld.elogptrRd : Field := ⟨9, 0, .rw, []⟩
def Fld.elogcfgUnread : Field := ⟨42, 32, .roh, []⟩
def Fld.elogcfgUrgent : Field := ⟨16, 16, .rw, []⟩
def Fld.elogcfgThr : Field := ⟨9, 0, .rw, []⟩
def Fld.pwrstatVbus : Field := ⟨41, 32, .roh, []⟩
def Fld.pwrstatVinb : Field := ⟨15, 14, .roh, []⟩
def Fld.pwrstatVina : Field := ⟨13, 12, .roh, []⟩
def Fld.pwrstatPhases : Field := ⟨11, 8, .roh, []⟩
def Fld.pwrstatTrim : Field := ⟨6, 4, .roh, []⟩
def Fld.pwrstatAuto : Field := ⟨3, 3, .roh, []⟩
def Fld.pwrstatState : Field := ⟨2, 0, .roh, []⟩
def Fld.pwrphPolhalf : Field := ⟨57, 32, .roh, []⟩
def Fld.pwrphPh : Field := ⟨17, 0, .roh, []⟩
def Fld.pwrdomOn : Field := ⟨60, 0, .roh, []⟩
def Fld.pwrbudThr : Field := ⟨31, 16, .rwk, []⟩
def Fld.pwrbudBudget : Field := ⟨7, 0, .rwk, [(40, 138)]⟩
def Fld.pwrtempTjcrit : Field := ⟨15, 8, .rwk, [(100, 130)]⟩
def Fld.pwrtempTjwarn : Field := ⟨7, 0, .rwk, [(80, 125)]⟩
def Fld.pwrwakeAlarm : Field := ⟨8, 8, .rw, []⟩
def Fld.pwrwakeTo : Field := ⟨4, 4, .rw, []⟩
def Fld.pwrwakeSet : Field := ⟨2, 0, .rw, []⟩
def Fld.pwrwaketTime : Field := ⟨63, 0, .rw, []⟩
def Fld.pwrresAddr : Field := ⟨39, 0, .rw, []⟩
def Fld.pwrcauseValid : Field := ⟨63, 63, .w1c, []⟩
def Fld.pwrcauseSrc : Field := ⟨60, 57, .roh, []⟩
def Fld.pwrcausePort : Field := ⟨56, 48, .roh, []⟩
def Fld.pwrcauseTime : Field := ⟨47, 0, .roh, []⟩
def Fld.pwrreqArg : Field := ⟨15, 8, .rwk, []⟩
def Fld.pwrreqOp : Field := ⟨7, 0, .rwk, [(1, 2), (16, 20)]⟩
def Fld.pwrreqsBusy : Field := ⟨63, 63, .roh, []⟩
def Fld.pwrreqsCode : Field := ⟨7, 0, .roh, []⟩
def Fld.pwrownWorld : Field := ⟨8, 8, .rwk, []⟩
def Fld.pwrownPid : Field := ⟨7, 0, .rwk, []⟩
def Fld.clkpllFreq : Field := ⟨31, 16, .roh, []⟩
def Fld.clkpllState : Field := ⟨10, 8, .roh, []⟩
def Fld.clkpllBackup : Field := ⟨0, 0, .roh, []⟩
def Fld.clkssRate : Field := ⟨15, 8, .rwk, []⟩
def Fld.clkssDepth : Field := ⟨3, 0, .rwk, [(0, 8)]⟩
def Fld.clkxchkPeriod : Field := ⟨9, 0, .rwk, [(10, 600)]⟩
def Fld.mtnowTime : Field := ⟨63, 0, .roh, []⟩
def Fld.mtrateRate : Field := ⟨31, 0, .rwk, [(0, 500000), (4294467296, 4294967295)]⟩
def Fld.mtstepStep : Field := ⟨31, 0, .rwk, []⟩
def Fld.mtstatHold : Field := ⟨1, 1, .roh, []⟩
def Fld.mtstatAligned : Field := ⟨0, 0, .rw, []⟩
def Fld.clkownWorld : Field := ⟨8, 8, .rwk, []⟩
def Fld.clkownPid : Field := ⟨7, 0, .rwk, []⟩
def Fld.rstcauseWake : Field := ⟨4, 4, .w1c, []⟩
def Fld.rstcauseDebug : Field := ⟨3, 3, .w1c, []⟩
def Fld.rstcauseCmd : Field := ⟨2, 2, .w1c, []⟩
def Fld.rstcausePin : Field := ⟨1, 1, .w1c, []⟩
def Fld.rstcausePor : Field := ⟨0, 0, .w1c, []⟩
def Fld.rstcmdCmd : Field := ⟨7, 0, .rwk, [(1, 1)]⟩
def Fld.rstdomHeld : Field := ⟨47, 0, .roh, []⟩
def Fld.rstreqArg : Field := ⟨15, 8, .rwk, [(0, 60)]⟩
def Fld.rstreqOp : Field := ⟨7, 0, .rwk, [(1, 2)]⟩
def Fld.rstreqsBusy : Field := ⟨63, 63, .roh, []⟩
def Fld.rstreqsCode : Field := ⟨7, 0, .roh, []⟩
def Fld.calstatUncal : Field := ⟨31, 16, .roh, []⟩
def Fld.calstatBusy : Field := ⟨15, 15, .roh, []⟩
def Fld.calstatReclost : Field := ⟨14, 14, .w1c, []⟩
def Fld.calstatCode : Field := ⟨7, 0, .roh, []⟩
def Fld.calpolPol : Field := ⟨27, 0, .rwk, []⟩
def Fld.calcmdCmd : Field := ⟨7, 0, .rwk, [(1, 1)]⟩
def Fld.caladcFail : Field := ⟨63, 32, .roh, []⟩
def Fld.caladcStale : Field := ⟨31, 0, .roh, []⟩
def Fld.calrlogWritten : Field := ⟨63, 32, .roh, []⟩
def Fld.calrlogLost : Field := ⟨31, 16, .w1cAll, []⟩
def Fld.calrlogRd : Field := ⟨7, 0, .rw, []⟩
def Fld.calres0Count : Field := ⟨63, 48, .roh, []⟩
def Fld.calres0Bit : Field := ⟨47, 40, .roh, []⟩
def Fld.calres0Step : Field := ⟨39, 36, .roh, []⟩
def Fld.calres0Action : Field := ⟨35, 34, .roh, []⟩
def Fld.calres0Array : Field := ⟨15, 12, .roh, []⟩
def Fld.calres0Unit : Field := ⟨11, 0, .roh, []⟩
def Fld.calres1Addr : Field := ⟨31, 0, .roh, []⟩
def Fld.caluU : Field := ⟨15, 0, .rwk, []⟩
def Fld.calfNf : Field := ⟨63, 32, .ro, []⟩
def Fld.calfF : Field := ⟨15, 0, .ro, []⟩
def Fld.caleUncal : Field := ⟨17, 17, .roh, []⟩
def Fld.caleClamp : Field := ⟨16, 16, .roh, []⟩
def Fld.caleE : Field := ⟨15, 0, .roh, []⟩
def Fld.lcdidId : Field := ⟨63, 0, .ro, []⟩
def Fld.lcdstatPid1 : Field := ⟨39, 32, .roh, []⟩
def Fld.lcdstatPid0 : Field := ⟨31, 24, .roh, []⟩
def Fld.lcdstatReach1 : Field := ⟨22, 20, .roh, []⟩
def Fld.lcdstatReach0 : Field := ⟨18, 16, .roh, []⟩
def Fld.lcdstatHalted : Field := ⟨9, 9, .roh, []⟩
def Fld.lcdstatScan : Field := ⟨8, 8, .roh, []⟩
def Fld.lcdstatLcstate : Field := ⟨2, 0, .roh, []⟩
def Fld.lcdctlServicemode : Field := ⟨0, 0, .rwk, []⟩
def Fld.lcdsafeSafe : Field := ⟨31, 0, .rwk, []⟩
def Fld.lcdtrcEn : Field := ⟨63, 63, .rw, []⟩
def Fld.lcdtrcAnypid : Field := ⟨16, 16, .rw, []⟩
def Fld.lcdtrcPid : Field := ⟨15, 8, .rw, [(0, 254)]⟩
def Fld.lcdtrcLcore : Field := ⟨6, 0, .rw, []⟩
def Fld.lcdtrbSize : Field := ⟨63, 44, .rw, [(1, 256)]⟩
def Fld.lcdtrbBase : Field := ⟨39, 12, .rw, []⟩
def Fld.lcdtriLost : Field := ⟨63, 32, .w1cAll, []⟩
def Fld.lcdtriHead : Field := ⟨31, 16, .roh, []⟩
def Fld.lcdtriTail : Field := ⟨15, 0, .rw, []⟩
def Fld.talcfgEn : Field := ⟨63, 63, .rw, []⟩
def Fld.talcfgSnapie : Field := ⟨62, 62, .rw, []⟩
def Fld.talcfgLcore : Field := ⟨38, 32, .rw, []⟩
def Fld.talcfgPer : Field := ⟨19, 0, .rw, [(0, 0), (100, 1000000)]⟩
def Fld.talbufSize : Field := ⟨63, 44, .rw, [(1, 4096)]⟩
def Fld.talbufBase : Field := ⟨39, 12, .rw, []⟩
def Fld.talriLost : Field := ⟨63, 32, .w1cAll, []⟩
def Fld.talriHead : Field := ⟨31, 16, .roh, []⟩
def Fld.talriTail : Field := ⟨15, 0, .rw, []⟩
def Fld.talstatSkip : Field := ⟨63, 32, .w1cAll, []⟩
def Fld.talstatBusy : Field := ⟨0, 0, .roh, []⟩
def Fld.talmaskMask : Field := ⟨63, 0, .rw, []⟩
def Fld.talselLvl : Field := ⟨25, 24, .rw, [(0, 2)]⟩
def Fld.talselEv3 : Field := ⟨23, 18, .rw, []⟩
def Fld.talselEv2 : Field := ⟨17, 12, .rw, []⟩
def Fld.talselEv1 : Field := ⟨11, 6, .rw, []⟩
def Fld.talselEv0 : Field := ⟨5, 0, .rw, []⟩
def Fld.talblkEn : Field := ⟨63, 63, .rw, []⟩
def Fld.talblkFilt : Field := ⟨56, 56, .rw, []⟩
def Fld.talblkPid : Field := ⟨55, 48, .rw, []⟩
def Fld.talblkEvt : Field := ⟨39, 32, .rw, []⟩
def Fld.talblkUnit : Field := ⟨11, 0, .rw, []⟩
def Fld.talbvCount : Field := ⟨63, 0, .w1cAll, []⟩
def Fld.talaccCount : Field := ⟨63, 0, .roh, []⟩
def Fld.talviewCount : Field := ⟨63, 0, .roh, []⟩
def Fld.fwrloEn : Field := ⟨31, 31, .rwk, []⟩
def Fld.fwrloLo : Field := ⟨27, 0, .rwk, []⟩
def Fld.fwrhiHi : Field := ⟨27, 0, .rwk, []⟩
def Fld.fwrattWorld : Field := ⟨11, 11, .rwk, []⟩
def Fld.fwrattW : Field := ⟨10, 10, .rwk, []⟩
def Fld.fwrattR : Field := ⟨9, 9, .rwk, []⟩
def Fld.fwrattClass : Field := ⟨5, 0, .rwk, []⟩
def Fld.fwcloMember : Field := ⟨31, 0, .rwk, []⟩
def Fld.fwchiMember : Field := ⟨30, 0, .rwk, []⟩
def Fld.fwcmdAll : Field := ⟨8, 8, .rwk, []⟩
def Fld.fwcmdCmd : Field := ⟨7, 0, .rwk, [(1, 2)]⟩
def Fld.fwstatCode : Field := ⟨15, 8, .roh, []⟩
def Fld.fwstatPend : Field := ⟨0, 0, .roh, []⟩
def Fld.fwcrcScrc : Field := ⟨63, 32, .roh, []⟩
def Fld.fwcrcAcrc : Field := ⟨31, 0, .roh, []⟩
def Fld.fwdrecValid : Field := ⟨63, 63, .w1c, []⟩
def Fld.fwdrecW : Field := ⟨62, 62, .roh, []⟩
def Fld.fwdrecWorld : Field := ⟨61, 61, .roh, []⟩
def Fld.fwdrecPid : Field := ⟨59, 52, .roh, []⟩
def Fld.fwdrecAddr : Field := ⟨39, 0, .roh, []⟩
def Fld.vnstatEpoch : Field := ⟨63, 32, .roh, []⟩
def Fld.vnstatPresent : Field := ⟨23, 16, .roh, []⟩
def Fld.vnstatDepslot : Field := ⟨14, 12, .roh, []⟩
def Fld.vnstatRmslot : Field := ⟨10, 8, .roh, []⟩
def Fld.vnstatRole : Field := ⟨5, 4, .roh, []⟩
def Fld.vnstatSlot : Field := ⟨2, 0, .ro, []⟩
def Fld.vnintCl : Field := ⟨47, 44, .rw, []⟩
def Fld.vnintIrq : Field := ⟨43, 32, .rw, [(0, 0), (1152, 4095)]⟩
def Fld.vnintXfer : Field := ⟨3, 3, .w1c, []⟩
def Fld.vnintHealth : Field := ⟨2, 2, .w1c, []⟩
def Fld.vnintPresent : Field := ⟨1, 1, .w1c, []⟩
def Fld.vnintRole : Field := ⟨0, 0, .w1c, []⟩
def Fld.vninEn : Field := ⟨8, 8, .rwk, []⟩
def Fld.vninPid : Field := ⟨7, 0, .rwk, [(1, 254)]⟩
def Fld.vnxcmdSlot : Field := ⟨10, 8, .rwk, []⟩
def Fld.vnxcmdOp : Field := ⟨7, 0, .rwk, [(1, 4)]⟩
def Fld.vnxstatBusy : Field := ⟨63, 63, .roh, []⟩
def Fld.vnxstatSent : Field := ⟨39, 8, .roh, []⟩
def Fld.vnxstatCode : Field := ⟨7, 0, .roh, []⟩
def Fld.vnhlthValid : Field := ⟨63, 63, .roh, []⟩
def Fld.vnhlthAge : Field := ⟨62, 48, .roh, []⟩
def Fld.vnhlthElogw : Field := ⟨47, 32, .roh, []⟩
def Fld.vnhlthCause : Field := ⟨31, 24, .roh, []⟩
def Fld.vnhlthOk : Field := ⟨23, 23, .roh, []⟩
def Fld.vnhlthAligned : Field := ⟨22, 22, .roh, []⟩
def Fld.vnhlthTs : Field := ⟨21, 20, .roh, []⟩
def Fld.vnhlthNospare : Field := ⟨15, 8, .roh, []⟩
def Fld.vnhlthPstate : Field := ⟨2, 0, .roh, []⟩

/-- The named fields of a register; every other bit is reserved (00_scope R3). -/
def RegKind.fields : RegKind → List Field
  | .layid => [Fld.layidFullid, Fld.layidActid]
  | .laycnt => [Fld.laycntStored, Fld.laycntActive]
  | .laysrc => [Fld.laysrcAddr]
  | .layact => [Fld.layactTime]
  | .laycmd => [Fld.laycmdCmd]
  | .laystat => [Fld.laystatSect, Fld.laystatPhase, Fld.laystatCode]
  | .layconf => [Fld.layconfClass, Fld.layconfHolder, Fld.layconfIndex]
  | .layint => [Fld.layintCl, Fld.layintIrq, Fld.layintErr, Fld.layintActivated, Fld.layintStaged]
  | .ircfg => [Fld.ircfgPid, Fld.ircfgWorld, Fld.ircfgDel, Fld.ircfgPrio, Fld.ircfgLcore]
  | .irstate => [Fld.irstateAnysend, Fld.irstateSendpid, Fld.irstateAct, Fld.irstatePend]
  | .msgirq => [Fld.msgirqId]
  | .l2ctl => [Fld.l2ctlBusy, Fld.l2ctlAgeerr, Fld.l2ctlPfen, Fld.l2ctlRepmode, Fld.l2ctlEn]
  | .l1ctl => [Fld.l1ctlDbusy, Fld.l1ctlAgeerr, Fld.l1ctlPfen, Fld.l1ctlRepmode, Fld.l1ctlIen, Fld.l1ctlDen]
  | .l2way => [Fld.l2wayMask]
  | .skaddr => [Fld.skaddrAddr]
  | .sklen => [Fld.sklenLines]
  | .skcmd => [Fld.skcmdPid, Fld.skcmdIncludelocked, Fld.skcmdJ, Fld.skcmdTarget, Fld.skcmdOp]
  | .skstat => [Fld.skstatBusy, Fld.skstatRefused, Fld.skstatCode]
  | .skcnt => [Fld.skcntSkipped, Fld.skcntDone]
  | .skint => [Fld.skintIrq, Fld.skintLost, Fld.skintErr, Fld.skintDone]
  | .dirctl => [Fld.dirctlMode, Fld.dirctlTmo]
  | .mcstat => [Fld.mcstatSingle, Fld.mcstatDie1, Fld.mcstatDie0]
  | .mctwin => [Fld.mctwinEn, Fld.mctwinSize, Fld.mctwinBase]
  | .mcscrub => [Fld.mcscrubPeriod]
  | .mcecnt => [Fld.mcecntCount, Fld.mcecntThr]
  | .spsteer => [Fld.spsteerDone, Fld.spsteerDie, Fld.spsteerState]
  | .fbstat => [Fld.fbstatPlaneb, Fld.fbstatPlanea]
  | .fbcnt => [Fld.fbcntCmperr, Fld.fbcntResend]
  | .fbslot => [Fld.fbslotEn, Fld.fbslotPid]
  | .gcint => [Fld.gcintEvt]
  | .gcdmae => [Fld.gcdmaeValid, Fld.gcdmaeQp, Fld.gcdmaeBytes, Fld.gcdmaeAddr]
  | .qpcfg => [Fld.qpcfgPid, Fld.qpcfgEn, Fld.qpcfgRxlog2, Fld.qpcfgTxlog2]
  | .qprxr => [Fld.qprxrBase]
  | .qptxr => [Fld.qptxrBase]
  | .qpwin => [Fld.qpwinSize, Fld.qpwinBase]
  | .qprxt => [Fld.qprxtHead, Fld.qprxtTail]
  | .qptxt => [Fld.qptxtHead, Fld.qptxtTail]
  | .qpictl => [Fld.qpictlDrop, Fld.qpictlTxpend, Fld.qpictlRxpend, Fld.qpictlTxie, Fld.qpictlRxie]
  | .jpos => [Fld.jposJoin, Fld.jposSstate, Fld.jposSpare, Fld.jposPos3, Fld.jposPos2, Fld.jposPos1, Fld.jposPos0]
  | .jwbank => [Fld.jwbankAlt, Fld.jwbankPos, Fld.jwbankHalf, Fld.jwbankPart]
  | .jctl => [Fld.jctlOwner, Fld.jctlRun]
  | .jstat => [Fld.jstatOvr, Fld.jstatSkip, Fld.jstatCause, Fld.jstatSlot, Fld.jstatState, Fld.jstatFpc]
  | .jland => [Fld.jlandSize, Fld.jlandCount, Fld.jlandBase]
  | .portid => [Fld.portidIfc, Fld.portidGroup, Fld.portidPort]
  | .pctrl => [Fld.pctrlSlew, Fld.pctrlErrclr, Fld.pctrlLoop, Fld.pctrlWakeen, Fld.pctrlTerm, Fld.pctrlEn]
  | .pstat => [Fld.pstatStatus]
  | .perr => [Fld.perrRxerr, Fld.perrTxerr]
  | .pirq => [Fld.pirqIe, Fld.pirqEvt, Fld.pirqFault, Fld.pirqErr, Fld.pirqWake]
  | .canmode => [Fld.canmodeTdco, Fld.canmodeTdcen, Fld.canmodeAutorec, Fld.canmodeMonitor, Fld.canmodeRestrict, Fld.canmodeXcvr, Fld.canmodeXlen, Fld.canmodeFden]
  | .canbt => [Fld.canbtDsjw, Fld.canbtDtseg2, Fld.canbtDtseg1, Fld.canbtDbrp, Fld.canbtNsjw, Fld.canbtNtseg2, Fld.canbtNtseg1, Fld.canbtNbrp]
  | .canswf => [Fld.canswfRate, Fld.canswfEn, Fld.canswfDlcen, Fld.canswfDlc, Fld.canswfIde, Fld.canswfId]
  | .canswm => [Fld.canswmMask]
  | .canswd => [Fld.canswdData]
  | .canswdm => [Fld.canswdmMask]
  | .lincfg => [Fld.lincfgRate, Fld.lincfgBrk, Fld.lincfgLowslope, Fld.lincfgAutobaud, Fld.lincfgRole]
  | .t1scfg => [Fld.t1scfgBtmr, Fld.t1scfgBurst, Fld.t1scfgTotmr, Fld.t1scfgNcnt, Fld.t1scfgNodeid, Fld.t1scfgPlcaen]
  | .t1cfg => [Fld.t1cfgAnen, Fld.t1cfgMaster, Fld.t1cfgSpeed]
  | .macaddr => [Fld.macaddrPromisc, Fld.macaddrAddr]
  | .trkcfg => [Fld.trkcfgCipher, Fld.trkcfgMsecreq, Fld.trkcfgMsecen, Fld.trkcfgAnen, Fld.trkcfgMaster, Fld.trkcfgSpeed]
  | .snscfg => [Fld.snscfgVsup, Fld.snscfgNslot, Fld.snscfgSyncm, Fld.snscfgCrc, Fld.snscfgDbits, Fld.snscfgPrate, Fld.snscfgSlow, Fld.snscfgPause, Fld.snscfgCrcleg, Fld.snscfgNib, Fld.snscfgTick, Fld.snscfgSel]
  | .sercfg => [Fld.sercfgFlow, Fld.sercfgVio, Fld.sercfgDbits, Fld.sercfgStop2, Fld.sercfgParity, Fld.sercfgLsbf, Fld.sercfgWlen, Fld.sercfgSpimode, Fld.sercfgMode, Fld.sercfgRate]
  | .fldcfg => [Fld.fldcfgEdge, Fld.fldcfgSafe, Fld.fldcfgInv, Fld.fldcfgArange, Fld.fldcfgFilt, Fld.fldcfgVtl, Fld.fldcfgVth, Fld.fldcfgPull, Fld.fldcfgVout, Fld.fldcfgMode]
  | .fldpwm => [Fld.fldpwmPeriod]
  | .fldadc => [Fld.fldadcTime, Fld.fldadcNew, Fld.fldadcCode]
  | .pcicfg => [Fld.pcicfgIcl, Fld.pcicfgRefout, Fld.pcicfgAspml1, Fld.pcicfgMaxgen, Fld.pcicfgRole]
  | .pciwin => [Fld.pciwinSize, Fld.pciwinBase]
  | .pcimsi => [Fld.pcimsiVec]
  | .pxaddr => [Fld.pxaddrAddr]
  | .pxlocal => [Fld.pxlocalAddr]
  | .pxcmd => [Fld.pxcmdBusy, Fld.pxcmdCode, Fld.pxcmdGo, Fld.pxcmdDir, Fld.pxcmdCfg, Fld.pxcmdLen]
  | .rtcfg => [Fld.rtcfgEn, Fld.rtcfgMissdel, Fld.rtcfgMissqp]
  | .rtstat => [Fld.rtstatBadidx, Fld.rtstatUcode, Fld.rtstatInteg, Fld.rtstatUbusy, Fld.rtstatBank]
  | .rtaccept => [Fld.rtacceptAccept]
  | .rtcnt => [Fld.rtcntMiss, Fld.rtcntQdrop, Fld.rtcntDenied, Fld.rtcntAbsent]
  | .rtupdw => [Fld.rtupdwValue]
  | .rtupdcmd => [Fld.rtupdcmdIndex, Fld.rtupdcmdCmd]
  | .rtehit => [Fld.rtehitHits, Fld.rtehitFails]
  | .rteseq => [Fld.rteseqLast, Fld.rteseqLastcnt, Fld.rteseqEstate, Fld.rteseqResult]
  | .rtown => [Fld.rtownValid, Fld.rtownPid]
  | .svarg => [Fld.svargFeat, Fld.svargPid, Fld.svargClass, Fld.svargCount, Fld.svargIndex]
  | .svcmd => [Fld.svcmdCmd]
  | .svres => [Fld.svresBusy, Fld.svresHolder, Fld.svresIndex, Fld.svresCode]
  | .ptent => [Fld.ptentTol, Fld.ptentNrun, Fld.ptentWorld, Fld.ptentState]
  | .ptcore => [Fld.ptcoreCores]
  | .gcpoolq => [Fld.gcpoolqAny, Fld.gcpoolqPid]
  | .gcpooli => [Fld.gcpooliAny, Fld.gcpooliPid]
  | .dbbits => [Fld.dbbitsMask, Fld.dbbitsBits]
  | .dbcfg => [Fld.dbcfgWake, Fld.dbcfgPrio, Fld.dbcfgTarget]
  | .dbring => [Fld.dbringSet]
  | .mbcfg => [Fld.mbcfgEn, Fld.mbcfgRep, Fld.mbcfgSep]
  | .mbpool => [Fld.mbpoolAnyr, Fld.mbpoolRpid, Fld.mbpoolAnys, Fld.mbpoolSpid]
  | .mbbell => [Fld.mbbellRbit, Fld.mbbellSbit]
  | .mbsctl => [Fld.mbsctlLen, Fld.mbsctlMbto]
  | .mbstat => [Fld.mbstatMseq, Fld.mbstatLen, Fld.mbstatOutcome, Fld.mbstatStale, Fld.mbstatFull]
  | .mbsend => [Fld.mbsendMseq, Fld.mbsendCode]
  | .mbtake => [Fld.mbtakeMseq, Fld.mbtakeLen, Fld.mbtakeStale, Fld.mbtakeTaken]
  | .clworld => [Fld.clworldTcore, Fld.clworldTways]
  | .horec => [Fld.horecTopid, Fld.horecToworld, Fld.horecFrompid, Fld.horecFromworld, Fld.horecKind, Fld.horecBlock, Fld.horecState]
  | .tsstat => [Fld.tsstatEpoch, Fld.tsstatState]
  | .tswin => [Fld.tswinSize, Fld.tswinBase]
  | .carctl => [Fld.carctlEn, Fld.carctlKinds]
  | .carper => [Fld.carperPeriod]
  | .carcmd => [Fld.carcmdScope, Fld.carcmdCmd]
  | .carscope => [Fld.carscopeSpare, Fld.carscopeState, Fld.carscopeRetired, Fld.carscopeSteps]
  | .carqwp => [Fld.carqwpEn, Fld.carqwpPeriod]
  | .carqwo => [Fld.carqwoLen, Fld.carqwoOffset]
  | .lkostat => [Fld.lkostatOk, Fld.lkostatLkerr, Fld.lkostatCause]
  | .lkocfg => [Fld.lkocfgHbto, Fld.lkocfgHang]
  | .lkobeat => [Fld.lkobeatBeat]
  | .lkocmd => [Fld.lkocmdLcore, Fld.lkocmdCmd]
  | .lkorec => [Fld.lkorecValid, Fld.lkorecKind, Fld.lkorecTime]
  | .elogptr => [Fld.elogptrWritten, Fld.elogptrLost, Fld.elogptrRd]
  | .elogcfg => [Fld.elogcfgUnread, Fld.elogcfgUrgent, Fld.elogcfgThr]
  | .pwrstat => [Fld.pwrstatVbus, Fld.pwrstatVinb, Fld.pwrstatVina, Fld.pwrstatPhases, Fld.pwrstatTrim, Fld.pwrstatAuto, Fld.pwrstatState]
  | .pwrph => [Fld.pwrphPolhalf, Fld.pwrphPh]
  | .pwrdom => [Fld.pwrdomOn]
  | .pwrbud => [Fld.pwrbudThr, Fld.pwrbudBudget]
  | .pwrtemp => [Fld.pwrtempTjcrit, Fld.pwrtempTjwarn]
  | .pwrwake => [Fld.pwrwakeAlarm, Fld.pwrwakeTo, Fld.pwrwakeSet]
  | .pwrwaket => [Fld.pwrwaketTime]
  | .pwrres => [Fld.pwrresAddr]
  | .pwrcause => [Fld.pwrcauseValid, Fld.pwrcauseSrc, Fld.pwrcausePort, Fld.pwrcauseTime]
  | .pwrreq => [Fld.pwrreqArg, Fld.pwrreqOp]
  | .pwrreqs => [Fld.pwrreqsBusy, Fld.pwrreqsCode]
  | .pwrown => [Fld.pwrownWorld, Fld.pwrownPid]
  | .clkpll => [Fld.clkpllFreq, Fld.clkpllState, Fld.clkpllBackup]
  | .clkss => [Fld.clkssRate, Fld.clkssDepth]
  | .clkxchk => [Fld.clkxchkPeriod]
  | .mtnow => [Fld.mtnowTime]
  | .mtrate => [Fld.mtrateRate]
  | .mtstep => [Fld.mtstepStep]
  | .mtstat => [Fld.mtstatHold, Fld.mtstatAligned]
  | .clkown => [Fld.clkownWorld, Fld.clkownPid]
  | .rstcause => [Fld.rstcauseWake, Fld.rstcauseDebug, Fld.rstcauseCmd, Fld.rstcausePin, Fld.rstcausePor]
  | .rstcmd => [Fld.rstcmdCmd]
  | .rstdom => [Fld.rstdomHeld]
  | .rstreq => [Fld.rstreqArg, Fld.rstreqOp]
  | .rstreqs => [Fld.rstreqsBusy, Fld.rstreqsCode]
  | .calstat => [Fld.calstatUncal, Fld.calstatBusy, Fld.calstatReclost, Fld.calstatCode]
  | .calpol => [Fld.calpolPol]
  | .calcmd => [Fld.calcmdCmd]
  | .caladc => [Fld.caladcFail, Fld.caladcStale]
  | .calrlog => [Fld.calrlogWritten, Fld.calrlogLost, Fld.calrlogRd]
  | .calres0 => [Fld.calres0Count, Fld.calres0Bit, Fld.calres0Step, Fld.calres0Action, Fld.calres0Array, Fld.calres0Unit]
  | .calres1 => [Fld.calres1Addr]
  | .calu => [Fld.caluU]
  | .calf => [Fld.calfNf, Fld.calfF]
  | .cale => [Fld.caleUncal, Fld.caleClamp, Fld.caleE]
  | .lcdid => [Fld.lcdidId]
  | .lcdstat => [Fld.lcdstatPid1, Fld.lcdstatPid0, Fld.lcdstatReach1, Fld.lcdstatReach0, Fld.lcdstatHalted, Fld.lcdstatScan, Fld.lcdstatLcstate]
  | .lcdctl => [Fld.lcdctlServicemode]
  | .lcdsafe => [Fld.lcdsafeSafe]
  | .lcdtrc => [Fld.lcdtrcEn, Fld.lcdtrcAnypid, Fld.lcdtrcPid, Fld.lcdtrcLcore]
  | .lcdtrb => [Fld.lcdtrbSize, Fld.lcdtrbBase]
  | .lcdtri => [Fld.lcdtriLost, Fld.lcdtriHead, Fld.lcdtriTail]
  | .talcfg => [Fld.talcfgEn, Fld.talcfgSnapie, Fld.talcfgLcore, Fld.talcfgPer]
  | .talbuf => [Fld.talbufSize, Fld.talbufBase]
  | .talri => [Fld.talriLost, Fld.talriHead, Fld.talriTail]
  | .talstat => [Fld.talstatSkip, Fld.talstatBusy]
  | .talmask => [Fld.talmaskMask]
  | .talsel => [Fld.talselLvl, Fld.talselEv3, Fld.talselEv2, Fld.talselEv1, Fld.talselEv0]
  | .talblk => [Fld.talblkEn, Fld.talblkFilt, Fld.talblkPid, Fld.talblkEvt, Fld.talblkUnit]
  | .talbv => [Fld.talbvCount]
  | .talacc => [Fld.talaccCount]
  | .talview => [Fld.talviewCount]
  | .fwrlo => [Fld.fwrloEn, Fld.fwrloLo]
  | .fwrhi => [Fld.fwrhiHi]
  | .fwratt => [Fld.fwrattWorld, Fld.fwrattW, Fld.fwrattR, Fld.fwrattClass]
  | .fwclo => [Fld.fwcloMember]
  | .fwchi => [Fld.fwchiMember]
  | .fwcmd => [Fld.fwcmdAll, Fld.fwcmdCmd]
  | .fwstat => [Fld.fwstatCode, Fld.fwstatPend]
  | .fwcrc => [Fld.fwcrcScrc, Fld.fwcrcAcrc]
  | .fwdrec => [Fld.fwdrecValid, Fld.fwdrecW, Fld.fwdrecWorld, Fld.fwdrecPid, Fld.fwdrecAddr]
  | .vnstat => [Fld.vnstatEpoch, Fld.vnstatPresent, Fld.vnstatDepslot, Fld.vnstatRmslot, Fld.vnstatRole, Fld.vnstatSlot]
  | .vnint => [Fld.vnintCl, Fld.vnintIrq, Fld.vnintXfer, Fld.vnintHealth, Fld.vnintPresent, Fld.vnintRole]
  | .vnin => [Fld.vninEn, Fld.vninPid]
  | .vnxcmd => [Fld.vnxcmdSlot, Fld.vnxcmdOp]
  | .vnxstat => [Fld.vnxstatBusy, Fld.vnxstatSent, Fld.vnxstatCode]
  | .vnhlth => [Fld.vnhlthValid, Fld.vnhlthAge, Fld.vnhlthElogw, Fld.vnhlthCause, Fld.vnhlthOk, Fld.vnhlthAligned, Fld.vnhlthTs, Fld.vnhlthNospare, Fld.vnhlthPstate]

/-- Whether a register is keyed (00_scope R5). -/
def RegKind.keyed (k : RegKind) : Bool := k.fields.any (fun f => f.acc == .rwk)

/-- The physical address of a register. -/
def Reg.addr (r : Reg) : Nat :=
  match r.kind with
  | .layid => 0xC00070000
  | .laycnt => 0xC00070008
  | .laysrc => 0xC00070010
  | .layact => 0xC00070018
  | .laycmd => 0xC00070020
  | .laystat => 0xC00070028
  | .layconf => 0xC00070030
  | .layint => 0xC00070038
  | .ircfg => 0x900080000 + r.i * 0x100000 + r.j * 0x10
  | .irstate => 0x900080008 + r.i * 0x100000 + r.j * 0x10
  | .msgirq => 0x900090000 + r.i * 0x100000
  | .l2ctl => 0x9000B0000 + r.i * 0x100000
  | .l1ctl => 0x9000B0100 + r.i * 0x100000 + r.j * 0x10
  | .l2way => 0x9000B2000 + r.i * 0x100000 + r.j * 0x8
  | .skaddr => 0x9000B1000 + r.i * 0x100000
  | .sklen => 0x9000B1008 + r.i * 0x100000
  | .skcmd => 0x9000B1010 + r.i * 0x100000
  | .skstat => 0x9000B1018 + r.i * 0x100000
  | .skcnt => 0x9000B1020 + r.i * 0x100000
  | .skint => 0x9000B1028 + r.i * 0x100000
  | .dirctl => 0xA00008000 + r.i * 0x100000
  | .mcstat => 0xA00000000 + r.i * 0x100000
  | .mctwin => 0xA00000100 + r.i * 0x100000 + r.j * 0x8
  | .mcscrub => 0xA00000200 + r.i * 0x100000
  | .mcecnt => 0xA00000300 + r.i * 0x100000 + r.j * 0x8
  | .spsteer => 0xA00000400 + r.i * 0x400000
  | .fbstat => 0xA0000A000
  | .fbcnt => 0xA0000A008
  | .fbslot => 0xA0000B000 + r.i * 0x100000 + r.j * 0x8
  | .gcint => 0x800000010 + r.i * 0x1000000
  | .gcdmae => 0x800000018 + r.i * 0x1000000
  | .qpcfg => 0x800001000 + r.i * 0x1000000 + r.j * 0x40
  | .qprxr => 0x800001008 + r.i * 0x1000000 + r.j * 0x40
  | .qptxr => 0x800001010 + r.i * 0x1000000 + r.j * 0x40
  | .qpwin => 0x800001018 + r.i * 0x1000000 + r.j * 0x40
  | .qprxt => 0x800001020 + r.i * 0x1000000 + r.j * 0x40
  | .qptxt => 0x800001028 + r.i * 0x1000000 + r.j * 0x40
  | .qpictl => 0x800001030 + r.i * 0x1000000 + r.j * 0x40
  | .jpos => 0x800010000 + r.i * 0x1000000
  | .jwbank => 0x800010008 + r.i * 0x1000000
  | .jctl => 0x800010100 + r.i * 0x1000000 + r.j * 0x40
  | .jstat => 0x800010108 + r.i * 0x1000000 + r.j * 0x40
  | .jland => 0x800010200 + r.i * 0x1000000 + r.j * 0x20 + r.k * 0x8
  | .portid => 0x800200000 + r.i * 0x1000000 + r.j * 0x10000
  | .pctrl => 0x800200008 + r.i * 0x1000000 + r.j * 0x10000
  | .pstat => 0x800200010 + r.i * 0x1000000 + r.j * 0x10000
  | .perr => 0x800200018 + r.i * 0x1000000 + r.j * 0x10000
  | .pirq => 0x800200020 + r.i * 0x1000000 + r.j * 0x10000
  | .canmode => 0x800200100 + r.i * 0x1000000 + r.j * 0x10000
  | .canbt => 0x800200108 + r.i * 0x1000000 + r.j * 0x10000
  | .canswf => 0x800200110 + r.i * 0x1000000 + r.j * 0x10000
  | .canswm => 0x800200118 + r.i * 0x1000000 + r.j * 0x10000
  | .canswd => 0x800200120 + r.i * 0x1000000 + r.j * 0x10000
  | .canswdm => 0x800200128 + r.i * 0x1000000 + r.j * 0x10000
  | .lincfg => 0x800200100 + r.i * 0x1000000 + r.j * 0x10000
  | .t1scfg => 0x800200100 + r.i * 0x1000000 + r.j * 0x10000
  | .t1cfg => 0x800200100 + r.i * 0x1000000 + r.j * 0x10000
  | .macaddr => 0x800200108 + r.i * 0x1000000 + r.j * 0x10000
  | .trkcfg => 0x800200100 + r.i * 0x1000000 + r.j * 0x10000
  | .snscfg => 0x800200100 + r.i * 0x1000000 + r.j * 0x10000
  | .sercfg => 0x800200100 + r.i * 0x1000000 + r.j * 0x10000
  | .fldcfg => 0x800200100 + r.i * 0x1000000 + r.j * 0x10000
  | .fldpwm => 0x800200108 + r.i * 0x1000000 + r.j * 0x10000
  | .fldadc => 0x800200110 + r.i * 0x1000000 + r.j * 0x10000
  | .pcicfg => 0x800200100 + r.i * 0x1000000 + r.j * 0x10000
  | .pciwin => 0x800200108 + r.i * 0x1000000 + r.j * 0x10000
  | .pcimsi => 0x800200110 + r.i * 0x1000000 + r.j * 0x10000
  | .pxaddr => 0x800200118 + r.i * 0x1000000 + r.j * 0x10000
  | .pxlocal => 0x800200120 + r.i * 0x1000000 + r.j * 0x10000
  | .pxcmd => 0x800200128 + r.i * 0x1000000 + r.j * 0x10000
  | .rtcfg => 0x800190000 + r.i * 0x1000000
  | .rtstat => 0x800190008 + r.i * 0x1000000
  | .rtaccept => 0x800190010 + r.i * 0x1000000
  | .rtcnt => 0x800190018 + r.i * 0x1000000
  | .rtupdw => 0x800190100 + r.i * 0x1000000 + r.j * 0x8
  | .rtupdcmd => 0x800190140 + r.i * 0x1000000
  | .rtehit => 0x800180000 + r.i * 0x1000000 + r.j * 0x10
  | .rteseq => 0x800180008 + r.i * 0x1000000 + r.j * 0x10
  | .rtown => 0x800191000 + r.i * 0x1000000 + r.j * 0x8
  | .svarg => 0xC00071000 + r.i * 0x20
  | .svcmd => 0xC00071008 + r.i * 0x20
  | .svres => 0xC00071010 + r.i * 0x20
  | .ptent => 0xC00074000 + r.i * 0x8
  | .ptcore => 0xC00076000 + r.i * 0x10 + r.j * 0x8
  | .gcpoolq => 0x800004000 + r.i * 0x1000000 + r.j * 0x8
  | .gcpooli => 0x800004400 + r.i * 0x1000000 + r.j * 0x8
  | .dbbits => 0x9000A0000 + r.i * 0x100000 + r.j * 0x20
  | .dbcfg => 0x9000A0008 + r.i * 0x100000 + r.j * 0x20
  | .dbring => 0x9000A0010 + r.i * 0x100000 + r.j * 0x20
  | .mbcfg => 0xC00100000 + r.i * 0x100
  | .mbpool => 0xC00100008 + r.i * 0x100
  | .mbbell => 0xC00100010 + r.i * 0x100
  | .mbsctl => 0xC00100018 + r.i * 0x100
  | .mbstat => 0xC00100020 + r.i * 0x100
  | .mbsend => 0xC00100028 + r.i * 0x100
  | .mbtake => 0xC00100030 + r.i * 0x100
  | .clworld => 0x9000B3000 + r.i * 0x100000
  | .horec => 0xB00020000 + r.i * 0x8
  | .tsstat => 0xB00000000
  | .tswin => 0xB00010000 + r.i * 0x8
  | .carctl => 0xC00040000
  | .carper => 0xC00040010 + r.i * 0x8
  | .carcmd => 0xC00040040
  | .carscope => 0xC00040100 + r.i * 0x8
  | .carqwp => 0xC00041000 + r.i * 0x10
  | .carqwo => 0xC00041008 + r.i * 0x10
  | .lkostat => 0xC00050000
  | .lkocfg => 0xC00050008
  | .lkobeat => 0xC00050010
  | .lkocmd => 0xC00050018
  | .lkorec => 0xC00051000 + r.i * 0x8
  | .elogptr => 0xC000A0000
  | .elogcfg => 0xC000A0008
  | .pwrstat => 0xC00010000
  | .pwrph => 0xC00010008
  | .pwrdom => 0xC00010010
  | .pwrbud => 0xC00010018
  | .pwrtemp => 0xC00010020
  | .pwrwake => 0xC00010028
  | .pwrwaket => 0xC00010030
  | .pwrres => 0xC00010038
  | .pwrcause => 0xC00010040
  | .pwrreq => 0xC00011000 + r.i * 0x10
  | .pwrreqs => 0xC00011008 + r.i * 0x10
  | .pwrown => 0xC00018000 + r.i * 0x8
  | .clkpll => 0xC00020000 + r.i * 0x8
  | .clkss => 0xC00020100 + r.i * 0x8
  | .clkxchk => 0xC00020200
  | .mtnow => 0xC00020300
  | .mtrate => 0xC00020308
  | .mtstep => 0xC00020310
  | .mtstat => 0xC00020318
  | .clkown => 0xC00028000 + r.i * 0x8
  | .rstcause => 0xC00030000
  | .rstcmd => 0xC00030008
  | .rstdom => 0xC00030010
  | .rstreq => 0xC00031000 + r.i * 0x10
  | .rstreqs => 0xC00031008 + r.i * 0x10
  | .calstat => 0xC00080000
  | .calpol => 0xC00080008
  | .calcmd => 0xC00080010
  | .caladc => 0xC00080018
  | .calrlog => 0xC00080020
  | .calres0 => 0xC00088000 + r.i * 0x10
  | .calres1 => 0xC00088008 + r.i * 0x10
  | .calu => 0xC00081000 + r.i * 0x8
  | .calf => 0xC00082000 + r.i * 0x8
  | .cale => 0xC00083000 + r.i * 0x8
  | .lcdid => 0xC00090000
  | .lcdstat => 0xC00090008
  | .lcdctl => 0xC00090010
  | .lcdsafe => 0xC00090020 + r.i * 0x8
  | .lcdtrc => 0xC00090100 + r.i * 0x20
  | .lcdtrb => 0xC00090108 + r.i * 0x20
  | .lcdtri => 0xC00090110 + r.i * 0x20
  | .talcfg => 0xC00060000
  | .talbuf => 0xC00060008
  | .talri => 0xC00060010
  | .talstat => 0xC00060018
  | .talmask => 0xC00060020 + r.i * 0x8
  | .talsel => 0xC00061000 + r.i * 0x8
  | .talblk => 0xC00062000 + r.i * 0x8
  | .talbv => 0xC00063000 + r.i * 0x8
  | .talacc => 0xC00064000 + r.i * 0x80 + r.j * 0x8
  | .talview => 0xC0006C000 + r.i * 0x8
  | .fwrlo => if r.i < 8 then 0xA00010000 + r.i * 0x100000 + r.j * 0x20 else 0x800008000 + (r.i - 8) * 0x1000000 + r.j * 0x20
  | .fwrhi => if r.i < 8 then 0xA00010008 + r.i * 0x100000 + r.j * 0x20 else 0x800008008 + (r.i - 8) * 0x1000000 + r.j * 0x20
  | .fwratt => if r.i < 8 then 0xA00010010 + r.i * 0x100000 + r.j * 0x20 else 0x800008010 + (r.i - 8) * 0x1000000 + r.j * 0x20
  | .fwclo => if r.i < 8 then 0xA00011000 + r.i * 0x100000 + r.j * 0x10 else 0x800009000 + (r.i - 8) * 0x1000000 + r.j * 0x10
  | .fwchi => if r.i < 8 then 0xA00011008 + r.i * 0x100000 + r.j * 0x10 else 0x800009008 + (r.i - 8) * 0x1000000 + r.j * 0x10
  | .fwcmd => if r.i < 8 then 0xA00012000 + r.i * 0x100000 else 0x80000A000 + (r.i - 8) * 0x1000000
  | .fwstat => if r.i < 8 then 0xA00012008 + r.i * 0x100000 else 0x80000A008 + (r.i - 8) * 0x1000000
  | .fwcrc => if r.i < 8 then 0xA00012010 + r.i * 0x100000 else 0x80000A010 + (r.i - 8) * 0x1000000
  | .fwdrec => if r.i < 8 then 0xA00012018 + r.i * 0x100000 else 0x80000A018 + (r.i - 8) * 0x1000000
  | .vnstat => 0xC00078000
  | .vnint => 0xC00078008
  | .vnin => 0xC00078100 + r.i * 0x8
  | .vnxcmd => 0xC00078200
  | .vnxstat => 0xC00078208
  | .vnhlth => 0xC00078300 + r.i * 0x8

/-- A run of registers of one kind: the address of the first, the stride and count of each index, and the number that
the first index counts from. -/
structure RegRow where
  kind : RegKind
  base : Nat
  dims : List (Nat × Nat)
  first : Nat

/-- Where the registers of every kind lie. -/
def regRows0 : List RegRow := [
  ⟨.layid, 0xC00070000, [], 0⟩,
  ⟨.laycnt, 0xC00070008, [], 0⟩,
  ⟨.laysrc, 0xC00070010, [], 0⟩,
  ⟨.layact, 0xC00070018, [], 0⟩,
  ⟨.laycmd, 0xC00070020, [], 0⟩,
  ⟨.laystat, 0xC00070028, [], 0⟩,
  ⟨.layconf, 0xC00070030, [], 0⟩,
  ⟨.layint, 0xC00070038, [], 0⟩,
  ⟨.ircfg, 0x900080000, [(0x100000, 16), (0x10, 4096)], 0⟩,
  ⟨.irstate, 0x900080008, [(0x100000, 16), (0x10, 4096)], 0⟩,
  ⟨.msgirq, 0x900090000, [(0x100000, 16)], 0⟩,
  ⟨.l2ctl, 0x9000B0000, [(0x100000, 16)], 0⟩,
  ⟨.l1ctl, 0x9000B0100, [(0x100000, 16), (0x10, 8)], 0⟩,
  ⟨.l2way, 0x9000B2000, [(0x100000, 16), (0x8, 256)], 0⟩,
  ⟨.skaddr, 0x9000B1000, [(0x100000, 16)], 0⟩,
  ⟨.sklen, 0x9000B1008, [(0x100000, 16)], 0⟩,
  ⟨.skcmd, 0x9000B1010, [(0x100000, 16)], 0⟩,
  ⟨.skstat, 0x9000B1018, [(0x100000, 16)], 0⟩,
  ⟨.skcnt, 0x9000B1020, [(0x100000, 16)], 0⟩,
  ⟨.skint, 0x9000B1028, [(0x100000, 16)], 0⟩,
  ⟨.dirctl, 0xA00008000, [(0x100000, 8)], 0⟩,
  ⟨.mcstat, 0xA00000000, [(0x100000, 8)], 0⟩,
  ⟨.mctwin, 0xA00000100, [(0x100000, 8), (0x8, 16)], 0⟩,
  ⟨.mcscrub, 0xA00000200, [(0x100000, 8)], 0⟩,
  ⟨.mcecnt, 0xA00000300, [(0x100000, 8), (0x8, 2)], 0⟩,
  ⟨.spsteer, 0xA00000400, [(0x400000, 2)], 0⟩,
  ⟨.fbstat, 0xA0000A000, [(0x100000, 8)], 0⟩,
  ⟨.fbcnt, 0xA0000A008, [(0x100000, 8)], 0⟩,
  ⟨.fbslot, 0xA0000B000, [(0x100000, 8), (0x8, 250)], 0⟩,
  ⟨.gcint, 0x800000010, [(0x1000000, 32)], 0⟩,
  ⟨.gcdmae, 0x800000018, [(0x1000000, 32)], 0⟩,
  ⟨.qpcfg, 0x800001000, [(0x1000000, 32), (0x40, 128)], 0⟩,
  ⟨.qprxr, 0x800001008, [(0x1000000, 32), (0x40, 128)], 0⟩,
  ⟨.qptxr, 0x800001010, [(0x1000000, 32), (0x40, 128)], 0⟩,
  ⟨.qpwin, 0x800001018, [(0x1000000, 32), (0x40, 128)], 0⟩,
  ⟨.qprxt, 0x800001020, [(0x1000000, 32), (0x40, 128)], 0⟩,
  ⟨.qptxt, 0x800001028, [(0x1000000, 32), (0x40, 128)], 0⟩,
  ⟨.qpictl, 0x800001030, [(0x1000000, 32), (0x40, 128)], 0⟩,
  ⟨.jpos, 0x800010000, [(0x1000000, 32)], 0⟩,
  ⟨.jwbank, 0x800010008, [(0x1000000, 32)], 0⟩]
def regRows1 : List RegRow := [
  ⟨.jctl, 0x800010100, [(0x1000000, 32), (0x40, 4)], 0⟩,
  ⟨.jstat, 0x800010108, [(0x1000000, 32), (0x40, 4)], 0⟩,
  ⟨.jland, 0x800010200, [(0x1000000, 32), (0x20, 4), (0x8, 4)], 0⟩,
  ⟨.portid, 0x800200000, [(0x1000000, 32), (0x10000, 16)], 0⟩,
  ⟨.pctrl, 0x800200008, [(0x1000000, 32), (0x10000, 16)], 0⟩,
  ⟨.pstat, 0x800200010, [(0x1000000, 32), (0x10000, 16)], 0⟩,
  ⟨.perr, 0x800200018, [(0x1000000, 32), (0x10000, 16)], 0⟩,
  ⟨.pirq, 0x800200020, [(0x1000000, 32), (0x10000, 16)], 0⟩,
  ⟨.canmode, 0x800200100, [(0x1000000, 32), (0x10000, 16)], 0⟩,
  ⟨.canbt, 0x800200108, [(0x1000000, 32), (0x10000, 16)], 0⟩,
  ⟨.canswf, 0x800200110, [(0x1000000, 32), (0x10000, 16)], 0⟩,
  ⟨.canswm, 0x800200118, [(0x1000000, 32), (0x10000, 16)], 0⟩,
  ⟨.canswd, 0x800200120, [(0x1000000, 32), (0x10000, 16)], 0⟩,
  ⟨.canswdm, 0x800200128, [(0x1000000, 32), (0x10000, 16)], 0⟩,
  ⟨.lincfg, 0x800200100, [(0x1000000, 32), (0x10000, 16)], 0⟩,
  ⟨.t1scfg, 0x800200100, [(0x1000000, 32), (0x10000, 16)], 0⟩,
  ⟨.t1cfg, 0x800200100, [(0x1000000, 32), (0x10000, 16)], 0⟩,
  ⟨.macaddr, 0x800200108, [(0x1000000, 32), (0x10000, 16)], 0⟩,
  ⟨.trkcfg, 0x800200100, [(0x1000000, 32), (0x10000, 16)], 0⟩,
  ⟨.snscfg, 0x800200100, [(0x1000000, 32), (0x10000, 16)], 0⟩,
  ⟨.sercfg, 0x800200100, [(0x1000000, 32), (0x10000, 16)], 0⟩,
  ⟨.fldcfg, 0x800200100, [(0x1000000, 32), (0x10000, 16)], 0⟩,
  ⟨.fldpwm, 0x800200108, [(0x1000000, 32), (0x10000, 16)], 0⟩,
  ⟨.fldadc, 0x800200110, [(0x1000000, 32), (0x10000, 16)], 0⟩,
  ⟨.pcicfg, 0x800200100, [(0x1000000, 32), (0x10000, 16)], 0⟩,
  ⟨.pciwin, 0x800200108, [(0x1000000, 32), (0x10000, 16)], 0⟩,
  ⟨.pcimsi, 0x800200110, [(0x1000000, 32), (0x10000, 16)], 0⟩,
  ⟨.pxaddr, 0x800200118, [(0x1000000, 32), (0x10000, 16)], 0⟩,
  ⟨.pxlocal, 0x800200120, [(0x1000000, 32), (0x10000, 16)], 0⟩,
  ⟨.pxcmd, 0x800200128, [(0x1000000, 32), (0x10000, 16)], 0⟩,
  ⟨.rtcfg, 0x800190000, [(0x1000000, 32)], 0⟩,
  ⟨.rtstat, 0x800190008, [(0x1000000, 32)], 0⟩,
  ⟨.rtaccept, 0x800190010, [(0x1000000, 32)], 0⟩,
  ⟨.rtcnt, 0x800190018, [(0x1000000, 32)], 0⟩,
  ⟨.rtupdw, 0x800190100, [(0x1000000, 32), (0x8, 8)], 0⟩,
  ⟨.rtupdcmd, 0x800190140, [(0x1000000, 32)], 0⟩,
  ⟨.rtehit, 0x800180000, [(0x1000000, 32), (0x10, 4096)], 0⟩,
  ⟨.rteseq, 0x800180008, [(0x1000000, 32), (0x10, 4096)], 0⟩,
  ⟨.rtown, 0x800191000, [(0x1000000, 32), (0x8, 512)], 0⟩,
  ⟨.svarg, 0xC00071000, [(0x20, 256)], 0⟩]
def regRows2 : List RegRow := [
  ⟨.svcmd, 0xC00071008, [(0x20, 256)], 0⟩,
  ⟨.svres, 0xC00071010, [(0x20, 256)], 0⟩,
  ⟨.ptent, 0xC00074000, [(0x8, 256)], 0⟩,
  ⟨.ptcore, 0xC00076000, [(0x10, 256), (0x8, 2)], 0⟩,
  ⟨.gcpoolq, 0x800004000, [(0x1000000, 32), (0x8, 128)], 0⟩,
  ⟨.gcpooli, 0x800004400, [(0x1000000, 32), (0x8, 92)], 0⟩,
  ⟨.dbbits, 0x9000A0000, [(0x100000, 16), (0x20, 255)], 0⟩,
  ⟨.dbcfg, 0x9000A0008, [(0x100000, 16), (0x20, 255)], 0⟩,
  ⟨.dbring, 0x9000A0010, [(0x100000, 16), (0x20, 255)], 0⟩,
  ⟨.mbcfg, 0xC00100000, [(0x100, 1024)], 0⟩,
  ⟨.mbpool, 0xC00100008, [(0x100, 1024)], 0⟩,
  ⟨.mbbell, 0xC00100010, [(0x100, 1024)], 0⟩,
  ⟨.mbsctl, 0xC00100018, [(0x100, 1024)], 0⟩,
  ⟨.mbstat, 0xC00100020, [(0x100, 1024)], 0⟩,
  ⟨.mbsend, 0xC00100028, [(0x100, 1024)], 0⟩,
  ⟨.mbtake, 0xC00100030, [(0x100, 1024)], 0⟩,
  ⟨.clworld, 0x9000B3000, [(0x100000, 16)], 0⟩,
  ⟨.horec, 0xB00020000, [(0x8, 16)], 0⟩,
  ⟨.tsstat, 0xB00000000, [], 0⟩,
  ⟨.tswin, 0xB00010000, [(0x8, 511)], 0⟩,
  ⟨.carctl, 0xC00040000, [], 0⟩,
  ⟨.carper, 0xC00040010, [(0x8, 5)], 0⟩,
  ⟨.carcmd, 0xC00040040, [], 0⟩,
  ⟨.carscope, 0xC00040100, [(0x8, 52)], 0⟩,
  ⟨.carqwp, 0xC00041000, [(0x10, 128)], 0⟩,
  ⟨.carqwo, 0xC00041008, [(0x10, 128)], 0⟩,
  ⟨.lkostat, 0xC00050000, [], 0⟩,
  ⟨.lkocfg, 0xC00050008, [], 0⟩,
  ⟨.lkobeat, 0xC00050010, [], 0⟩,
  ⟨.lkocmd, 0xC00050018, [], 0⟩,
  ⟨.lkorec, 0xC00051000, [(0x8, 128)], 0⟩,
  ⟨.elogptr, 0xC000A0000, [], 0⟩,
  ⟨.elogcfg, 0xC000A0008, [], 0⟩,
  ⟨.pwrstat, 0xC00010000, [], 0⟩,
  ⟨.pwrph, 0xC00010008, [], 0⟩,
  ⟨.pwrdom, 0xC00010010, [], 0⟩,
  ⟨.pwrbud, 0xC00010018, [], 0⟩,
  ⟨.pwrtemp, 0xC00010020, [], 0⟩,
  ⟨.pwrwake, 0xC00010028, [], 0⟩,
  ⟨.pwrwaket, 0xC00010030, [], 0⟩]
def regRows3 : List RegRow := [
  ⟨.pwrres, 0xC00010038, [], 0⟩,
  ⟨.pwrcause, 0xC00010040, [], 0⟩,
  ⟨.pwrreq, 0xC00011000, [(0x10, 256)], 0⟩,
  ⟨.pwrreqs, 0xC00011008, [(0x10, 256)], 0⟩,
  ⟨.pwrown, 0xC00018000, [(0x8, 61)], 0⟩,
  ⟨.clkpll, 0xC00020000, [(0x8, 24)], 0⟩,
  ⟨.clkss, 0xC00020100, [(0x8, 17)], 0⟩,
  ⟨.clkxchk, 0xC00020200, [], 0⟩,
  ⟨.mtnow, 0xC00020300, [], 0⟩,
  ⟨.mtrate, 0xC00020308, [], 0⟩,
  ⟨.mtstep, 0xC00020310, [], 0⟩,
  ⟨.mtstat, 0xC00020318, [], 0⟩,
  ⟨.clkown, 0xC00028000, [(0x8, 60)], 0⟩,
  ⟨.rstcause, 0xC00030000, [], 0⟩,
  ⟨.rstcmd, 0xC00030008, [], 0⟩,
  ⟨.rstdom, 0xC00030010, [], 0⟩,
  ⟨.rstreq, 0xC00031000, [(0x10, 256)], 0⟩,
  ⟨.rstreqs, 0xC00031008, [(0x10, 256)], 0⟩,
  ⟨.calstat, 0xC00080000, [], 0⟩,
  ⟨.calpol, 0xC00080008, [], 0⟩,
  ⟨.calcmd, 0xC00080010, [], 0⟩,
  ⟨.caladc, 0xC00080018, [], 0⟩,
  ⟨.calrlog, 0xC00080020, [], 0⟩,
  ⟨.calres0, 0xC00088000, [(0x10, 256)], 0⟩,
  ⟨.calres1, 0xC00088008, [(0x10, 256)], 0⟩,
  ⟨.calu, 0xC00081000, [(0x8, 512)], 0⟩,
  ⟨.calf, 0xC00082000, [(0x8, 512)], 0⟩,
  ⟨.cale, 0xC00083000, [(0x8, 512)], 0⟩,
  ⟨.lcdid, 0xC00090000, [], 0⟩,
  ⟨.lcdstat, 0xC00090008, [], 0⟩,
  ⟨.lcdctl, 0xC00090010, [], 0⟩,
  ⟨.lcdsafe, 0xC00090020, [(0x8, 8)], 0⟩,
  ⟨.lcdtrc, 0xC00090100, [(0x20, 4)], 0⟩,
  ⟨.lcdtrb, 0xC00090108, [(0x20, 4)], 0⟩,
  ⟨.lcdtri, 0xC00090110, [(0x20, 4)], 0⟩,
  ⟨.talcfg, 0xC00060000, [], 0⟩,
  ⟨.talbuf, 0xC00060008, [], 0⟩,
  ⟨.talri, 0xC00060010, [], 0⟩,
  ⟨.talstat, 0xC00060018, [], 0⟩,
  ⟨.talmask, 0xC00060020, [(0x8, 4)], 0⟩]
def regRows4 : List RegRow := [
  ⟨.talsel, 0xC00061000, [(0x8, 256)], 0⟩,
  ⟨.talblk, 0xC00062000, [(0x8, 32)], 0⟩,
  ⟨.talbv, 0xC00063000, [(0x8, 32)], 0⟩,
  ⟨.talacc, 0xC00064000, [(0x80, 256), (0x8, 9)], 0⟩,
  ⟨.talview, 0xC0006C000, [(0x8, 9)], 0⟩,
  ⟨.fwrlo, 0xA00010000, [(0x100000, 8), (0x20, 64)], 0⟩,
  ⟨.fwrlo, 0x800008000, [(0x1000000, 32), (0x20, 64)], 8⟩,
  ⟨.fwrhi, 0xA00010008, [(0x100000, 8), (0x20, 64)], 0⟩,
  ⟨.fwrhi, 0x800008008, [(0x1000000, 32), (0x20, 64)], 8⟩,
  ⟨.fwratt, 0xA00010010, [(0x100000, 8), (0x20, 64)], 0⟩,
  ⟨.fwratt, 0x800008010, [(0x1000000, 32), (0x20, 64)], 8⟩,
  ⟨.fwclo, 0xA00011000, [(0x100000, 8), (0x10, 256)], 0⟩,
  ⟨.fwclo, 0x800009000, [(0x1000000, 32), (0x10, 256)], 8⟩,
  ⟨.fwchi, 0xA00011008, [(0x100000, 8), (0x10, 256)], 0⟩,
  ⟨.fwchi, 0x800009008, [(0x1000000, 32), (0x10, 256)], 8⟩,
  ⟨.fwcmd, 0xA00012000, [(0x100000, 8)], 0⟩,
  ⟨.fwcmd, 0x80000A000, [(0x1000000, 32)], 8⟩,
  ⟨.fwstat, 0xA00012008, [(0x100000, 8)], 0⟩,
  ⟨.fwstat, 0x80000A008, [(0x1000000, 32)], 8⟩,
  ⟨.fwcrc, 0xA00012010, [(0x100000, 8)], 0⟩,
  ⟨.fwcrc, 0x80000A010, [(0x1000000, 32)], 8⟩,
  ⟨.fwdrec, 0xA00012018, [(0x100000, 8)], 0⟩,
  ⟨.fwdrec, 0x80000A018, [(0x1000000, 32)], 8⟩,
  ⟨.vnstat, 0xC00078000, [], 0⟩,
  ⟨.vnint, 0xC00078008, [], 0⟩,
  ⟨.vnin, 0xC00078100, [(0x8, 8)], 0⟩,
  ⟨.vnxcmd, 0xC00078200, [], 0⟩,
  ⟨.vnxstat, 0xC00078208, [], 0⟩,
  ⟨.vnhlth, 0xC00078300, [(0x8, 8)], 0⟩]
def regRows : List RegRow := regRows0 ++ regRows1 ++ regRows2 ++ regRows3 ++ regRows4

/-- The indices at an offset of a run of registers: the largest stride stands first. -/
def regIdx : List (Nat × Nat) → Nat → Option (List Nat)
  | [], off => if off = 0 then some [] else none
  | (st, n) :: ds, off =>
    if off / st < n then (regIdx ds (off % st)).map (fun l => off / st :: l)
    else none

/-- The register of a run at an address, when there is one. -/
def RegRow.at (r : RegRow) (a : Nat) : Option Reg :=
  if a < r.base then none else
  match regIdx r.dims (a - r.base) with
  | some [] => some ⟨r.kind, r.first, 0, 0⟩
  | some [i] =>
    match r.kind with
    | .fbstat => some .fbstat
    | .fbcnt => some .fbcnt
    | k => some ⟨k, r.first + i, 0, 0⟩
  | some [i, j] => some ⟨r.kind, r.first + i, j, 0⟩
  | some [i, j, k] => some ⟨r.kind, r.first + i, j, k⟩
  | _ => none

/-- The value a register holds after reset, where the spec gives one value for the kind; 00_scope's reset column.
`Reg.reset` in the same file adds the registers whose reset depends on the index. -/
def RegKind.reset : RegKind → W64
  | .laycmd | .ircfg | .skcmd | .mctwin | .fbslot | .qpcfg | .jctl | .rtcfg => 0xFFFFFFFF00000000
  | .rtaccept | .rtupdw | .rtupdcmd | .rtown | .svcmd | .gcpoolq | .gcpooli | .dbbits => 0xFFFFFFFF00000000
  | .mbcfg | .mbpool | .clworld | .carctl | .carcmd | .carqwp | .carqwo | .lkocmd => 0xFFFFFFFF00000000
  | .pwrreq | .pwrown | .clkss | .mtrate | .mtstep | .clkown | .rstcmd | .rstreq => 0xFFFFFFFF00000000
  | .calcmd | .calu | .lcdctl | .lcdsafe | .fwrlo | .fwrhi | .fwratt | .fwclo => 0xFFFFFFFF00000000
  | .fwchi | .fwcmd | .vnin | .vnxcmd | .calf => 0xFFFFFFFF00000000
  | .laystat => 0x0000FFFF00000000
  | .l2ctl => 0x0000000000000010
  | .l1ctl => 0x0000000000000110
  | .l2way => 0xFFFF00000000FFFF
  | .dirctl => 0xFFFFFFBF00000040
  | .mcscrub => 0xFFFFFFF700000008
  | .mcecnt => 0x000000000000FFFF
  | .jpos => 0x0000000000143210
  | .lincfg => 0x000000004E200000
  | .t1scfg => 0x0000000020000000
  | .pcicfg => 0x000000000000000C
  | .rteseq => 0x0000000000000007
  | .carscope => 0x0F00000000000000
  | .lkostat | .pwrph => 0x0000000000010000
  | .rstcause => 1
  | .lkocfg => 0xFFFFFC17000003E8
  | .pwrbud => 0xFFFFFF750000008A
  | .pwrtemp => 0xFFFF829100007D6E
  | .pwrwaket => 0xFFFFFFFFFFFFFFFF
  | .clkxchk => 0xFFFFFFC30000003C
  | .calpol => 0xFAAAAAAA05555555
  | .layid | .laycnt | .laysrc | .layact | .layconf | .layint | .irstate | .msgirq => 0
  | .skaddr | .sklen | .skstat | .skcnt | .skint | .mcstat | .spsteer | .fbstat => 0
  | .fbcnt | .gcint | .gcdmae | .qprxr | .qptxr | .qpwin | .qprxt | .qptxt => 0
  | .qpictl | .jwbank | .jstat | .jland | .portid | .pctrl | .pstat | .perr => 0
  | .pirq | .canmode | .canbt | .canswf | .canswm | .canswd | .canswdm | .t1cfg => 0
  | .macaddr | .trkcfg | .snscfg | .sercfg | .fldcfg | .fldpwm | .fldadc | .pciwin => 0
  | .pcimsi | .pxaddr | .pxlocal | .pxcmd | .rtstat | .rtcnt | .rtehit | .svarg => 0
  | .svres | .ptent | .ptcore | .dbcfg | .dbring | .mbbell | .mbsctl | .mbstat => 0
  | .mbsend | .mbtake | .horec | .tsstat | .tswin | .carper | .lkobeat | .lkorec => 0
  | .elogptr | .elogcfg | .pwrstat | .pwrdom | .pwrwake | .pwrres | .pwrcause | .pwrreqs => 0
  | .clkpll | .mtnow | .mtstat | .rstdom | .rstreqs | .calstat | .caladc => 0
  | .calrlog | .calres0 | .calres1 | .cale | .lcdid | .lcdstat | .lcdtrc => 0
  | .lcdtrb | .lcdtri | .talcfg | .talbuf | .talri | .talstat | .talmask | .talsel => 0
  | .talblk | .talbv | .talacc | .talview | .fwstat | .fwcrc | .fwdrec | .vnstat => 0
  | .vnint | .vnxstat | .vnhlth => 0

/-- CARPER k after reset (16 R436). -/
def carperReset : Nat → W64
  | 0 => 0xFFFFFED30000012C
  | 1 => 0xFFFFFED30000012C
  | 2 => 0xFFFF573F0000A8C0
  | 3 => 0xFFFFFFC30000003C
  | _ => 0xFFFFFDA700000258

/-- CARSCOPE after reset: SPARE none, STATE 0b111 (16 R436). -/
def carscopeReset : W64 := 0x0F07000000000000

/-- The value every register holds after reset. PWROWN 60 and CLKOWN 57-59 are fixed (15 R404). -/
def Reg.reset (r : Reg) : W64 :=
  match r.kind with
  | .carper => carperReset r.i
  | .carscope => carscopeReset
  | .portid => BitVec.ofNat 64 (r.i * 256 + r.j)
  | .pwrown => if r.i = 60 then 0xFFFFFE00000001FF else r.kind.reset
  | .clkown => if 57 ≤ r.i then 0xFFFFFE00000001FF else r.kind.reset
  | k => k.reset

end Sys2Proof.Machine
end

