-- ==== Sys2Proof/Machine/State.lean ====
section
/-! DEFINITION. The state of the module as plain data: every register, store, queue, mode and pin the spec names, and the
queue of waiting commands. Reset values are the spec's; those it does not give are named in the assumption log. -/
namespace Sys2Proof.Machine

/-- How a command can end the machine with a fault. The spec describes none for the module: every error of a command is
recorded in the state (ELOG, status fields, exceptions). Nobody raises this one; it is safe. -/
inductive Fault where
  /-- Never raised: the spec gives no event that stops the whole machine. Safe. -/
  | none
deriving DecidableEq, Repr

/-- How a command can have no meaning. -/
inductive Refusal where
  /-- Raised by a dispatch arm whose command has no meaning yet. Safe. -/
  | notModelled (mnemonic : String)
deriving DecidableEq, Repr

/-! ### Logical cores, the Trust Core and Jugglers (03-06) -/

/-- A result not yet written: file, register, value, and the schedule cycle at whose end it is written (04 R82). -/
structure Pend where
  fp  : Bool
  reg : Nat
  val : W64
  at_ : Nat
deriving DecidableEq, Repr

/-- A synchronous exception raised and not yet entered (05 R147): cause and detail (06 Table 3), the table level and
S2WALK of a translation fault, VEC, what EVAL, HEIPA and EPC receive, and the schedule cycle of its detection where that is not its
instruction's own (06 R169). -/
structure Exc where
  cause  : Nat
  detail : Nat
  level  : Nat
  s2walk : Bool
  vec    : Bool
  eval   : W64
  ipa    : W64
  epc    : W64
  det    : Nat
deriving DecidableEq, Repr

/-- A store-buffer entry (05 R133, R149): up to 8 bytes at a physical address within one line, whether it is a Device or
Remote store, whether it carries REL, and whether the request for its line has left the core. -/
structure SBEntry where
  pa   : Nat
  bytes : List Byte
  dev  : Bool
  rel  : Bool
  sent : Bool
  /-- The last schedule cycle of the windows the store was issued in: until it has passed the entry is uncommitted; and whether an
  older instruction is to raise an exception, which discards it (05 R149). -/
  commit : Nat
  doomed : Bool
  /-- It carries STREAM; and it has asked for its line, so that its write is no second use of it (07 R196). -/
  old : Bool
  asked : Bool
deriving DecidableEq, Repr

/-- What the history buffer restores when an instruction raises an exception after younger ones have issued (05 R147, R148). -/
structure Undo where
  g  : KV W64
  f  : KV W64
  cr : KV W64
  inflight : List Pend
  pc : W64
  privPend : BitVec 32
  privAct  : BitVec 32
deriving DecidableEq, Repr

/-- An FP instruction in its unit that will raise an exception: what it raises, in which schedule cycle, and what is undone then. -/
structure Doom where
  exc  : Exc
  undo : Undo
deriving DecidableEq, Repr

/-- One part of a data access that lies within one line: its virtual and physical address, its length, and once they have arrived its
bytes and its first poisoned byte. -/
structure Piece where
  va  : W64
  pa  : Nat
  n   : Nat
  got : Option (List Byte)
  poison : Option Nat
deriving DecidableEq, Repr

/-- What an access that freezes the core does when its data are there. -/
inductive AccKind where
  /-- A load of `n` bytes, sign-extended or not, into a general or FP register; `single` clears [63:32] (04 R89). -/
  | load (fp : Bool) (reg : Nat) (sign : Bool)
  /-- LDR: load and reserve (04 R104). -/
  | reserve (reg : Nat) (sign : Bool)
  /-- STC: store when the reservation holds (04 R105). -/
  | cond (reg : Nat) (val : W64)
  /-- AMO: operation 0-4 in the order of 04 R106 (04 R106). -/
  | amo (op : Nat) (reg : Nat) (val : W64)
  /-- RETM: `full` once the frame word has been read and the whole frame is named (04 R111). -/
  | ret (full : Bool)
deriving DecidableEq, Repr

/-- A data access that holds the core frozen (05 R130, R131): its pieces, the base update that stands when it completes
(04 R71), whether it is a repetition (04 R100), the instruction, and the identity of its requests. -/
structure PendAcc where
  kind   : AccKind
  pieces : List Piece
  upd    : Option (Nat × W64)
  rep    : Bool
  iss    : Iss
  old    : Bool
  pid    : Nat
  world  : Bool
  /-- A load already issued, whose freeze falls after the cycle that follows its own: that cycle, and what is undone when it raises an
  exception (05 R131, R148). -/
  late   : Option (Nat × Undo)
  /-- The freeze cycles that its parts served so far add (05 R134). -/
  extra  : Nat
  /-- It has asked for its line (07 R196). -/
  asked  : Bool
deriving DecidableEq, Repr

/-- Why a core is frozen (05 R130). -/
inductive Freeze where
  | access (a : PendAcc)
  /-- The store buffer is full: the entries that still wait for room (05 R133). -/
  | stores (rest : List SBEntry)
  /-- FENCE, FENCE.SL (`io = false`) or FENCE.IO waits (04 R113). -/
  | fence (io : Bool)
  /-- An access under REL waits until every earlier access is performed (08 R242). -/
  | release
  /-- A TLB miss whose walk has not ended (06 R176). -/
  | walk (va : W64) (fetch store : Bool)
  /-- Decode needs bytes that are not in the fetch window (05 R135). -/
  | fetch (va : W64)
deriving DecidableEq, Repr

/-- Why a core waits: WFI, or a Juggler's WFI or TWAIT (04 R116, R124). -/
inductive Wait where
  | wfi
  | until (t since : W64)
deriving DecidableEq, Repr

/-- The issue group in formation (03 R59): its instructions by class, whether it can take no more, whether a control
transfer stands before the next instruction (03 R60), and whether a class-S instruction or a REP stood last. -/
structure Group where
  n    : Nat
  m    : Nat
  intf : Nat
  shut : Bool
  ctl  : Bool
deriving DecidableEq, Repr

/-- The branch predictor and return stack of a core (05 R137-R140). -/
structure Pred where
  ctr : KV (BitVec 2)
  gh  : BitVec 14
  ras : KV (BitVec 48)
  top : BitVec 4
deriving DecidableEq, Repr

/-- A TLB entry (06 R176): the virtual page and its size in bits (12, 21, 30), its tags, and the combined translation with
the permissions R, W, X and U of stage 1 and R, W, X of stage 2. `h` marks an entry of the H regime, `off` one made while
TBASE.MODE was off; `ipn` is the page of the IPA; `lv1` and `lv2` are the levels of the leaves. -/
structure TlbE where
  vpn  : Nat
  bits : Nat
  pid  : Nat
  asid : Nat
  glob : Bool
  h    : Bool
  off  : Bool
  ipn  : Nat
  ppn  : Nat
  perm : BitVec 7
  lv1  : Nat
  lv2  : Nat
deriving DecidableEq, Repr

/-- A stride detector (07 R199, R200): last line, stride, confidence, and the partition of its training access. -/
structure Stride where
  line : Nat
  s    : Int
  c    : Nat
  pid  : Nat
deriving DecidableEq, Repr

/-- Slot and event counts of a logical core (21 R512-R515); `ev` counts by event code. -/
structure Live where
  cycles  : Nat
  retired : Nat
  wasted  : Nat
  front   : Nat
  back    : Nat
  ev      : KV Nat
deriving DecidableEq, Repr

/-- Counts of one level under one partition, with the TALSEL value in force for them (21 R517, R518). -/
structure Bucket where
  pid : Nat
  lvl : Nat
  sel : W64
  cnt : Live
deriving DecidableEq, Repr

/-- How a logical core is served (16 R410-R418): a pair of two physical cores, one core of a split, a degraded pair, or
lost. -/
inductive Duty where
  | pair | split | degraded | lost
deriving DecidableEq, Repr

/-- One instruction-issuing engine: a logical core, the Trust Core or a Juggler. -/
structure Core where
  g : KV W64
  f : KV W64
  pc : W64
  cr : KV W64
  /-- Results not yet written, in the order in which they are written. -/
  inflight : List Pend
  /-- The schedule cycle of the last issued group, and the first in which the next group can issue. -/
  cyc  : Nat
  nxt  : Nat
  group : Group
  /-- Instructions left in the mode shadow, and the control registers it runs under (05 R153). -/
  shadow : Nat
  oldCr  : KV W64
  frozen : Option Freeze
  wait   : Option Wait
  exc    : Option Exc
  /-- The oldest FP instruction in its unit that will raise an exception (05 R148). -/
  doom   : Option Doom
  sbuf   : List SBEntry
  /-- Device and Remote stores sent and not yet acknowledged (08 R241, R247). -/
  devOut : Nat
  /-- The 64-byte granule of the reservation (04 R104, 08 R245). -/
  resv   : Option Nat
  /-- A repetition of the repeated store under way has matched the fetch window (05 R157). -/
  repHit : Bool
  /-- A repetition has been performed, and the instruction at the pc goes on with the next (04 R100, 21 Table 1). -/
  repOn  : Bool
  lostStore : Option Nat
  recovery  : Bool
  /-- Private IDs pending and active (06 Table 8). -/
  privPend : BitVec 32
  privAct  : BitVec 32
  pred : Pred
  ftlb : List TlbE
  dtlb : List TlbE
  stlb : List TlbE
  stride : List Stride
  /-- The fetch window's first byte (05 R157); none after it has been discarded. -/
  win  : Option W64
  /-- Executing: out of reset and powered. -/
  run  : Bool
  /-- Halted by a debug port; a halt that waits for its boundary, at reach PART with the partition it may act in; STEP lets one
  group issue before it (20 R503, R505). -/
  halted : Bool
  haltPend : Option (Option Nat)
  stepFree : Bool
  /-- The next instruction is the first after an ERET (06 R178 SKIP). -/
  afterEret : Bool
  /-- The watchpoints that the repeated instruction under way does not match: it was the first after an ERET (06 R178). -/
  skipOn : BitVec 2
  /-- The next instruction is the first of a vector (06 R170). -/
  atVec : Bool
  /-- The last schedule cycle in which an FP instruction or a division writes its result (04 R93), and in which an FP instruction issued
  under an FSTAT enable bit does: until then a store is uncommitted (05 R148, R149). -/
  fpEnd : Nat
  fpWin : Nat
  /-- Held by Lookout's triple vote: issues nothing (16 R414). -/
  pausing : Bool
  /-- Live counts by level since the last flush, the cycles no group has issued in yet, the partition they belong to and
  the TALSEL values loaded at that flush for it and for H; and the counts of partitions left since, not yet added to the
  accumulators (21 R514, R517). -/
  live : KV Live
  owed : Live
  cntPid : Nat
  sel  : W64
  selH : W64
  stash : List Bucket
  /-- The cluster and window index (07 R554): 8 * cluster + j. -/
  place : Option Nat
  duty  : Duty
  lead  : Nat
  mate  : Option Nat
  /-- The times of the pair's rollbacks, the latest first (16 R414). -/
  rollbacks : List Nat
  /-- MTIME when a group last issued, or when the core last left what keeps it from issuing: WFI, a halt, Lookout's vote (16 R418). -/
  issuedAt : W64
deriving DecidableEq, Repr

/-! ### Caches, directory, messages (07, 08) -/

/-- The state of a line in a cache (08 Table 2); the leaving states MI, EI, SI are entries of `State.leaving`. -/
inductive LineSt where
  | m | e | s | i
deriving DecidableEq, Repr

/-- A line of a cache: its state, its line address PA[39:6], 64 bytes with a poison bit per word, whether it is locked,
its age, and whether a prefetch filled it and no demand access has met it yet. -/
structure Line where
  st   : LineSt
  line : Nat
  data : List Byte
  poison : BitVec 8
  locked : Bool
  age  : Nat
  pf   : Bool
deriving DecidableEq, Repr

/-- A way that holds nothing. -/
def Line.none : Line := ⟨.i, 0, [], 0, false, 0, false⟩

/-- A line leaving a cache (MI, EI or SI): agent, line, dirty data, and whether its WbD or EvC has been sent (08 Table 2,
R227). -/
structure Leaving where
  agent : Nat
  line  : Nat
  dirty : Bool
  data  : List Byte
  poison : BitVec 8
  pid   : Nat
  world : Bool
  sent  : Bool
deriving DecidableEq, Repr

/-- The coherence and register messages (08 Table 4, 10 R272). -/
inductive MsgKind where
  | rds | rdx | upg | wbd | evc | iord | iowr | snps | snpi | snpx | data | ack | ackEvicted | retry | poison | absent
  | drd | dwr | drsp
deriving DecidableEq, Repr

/-- A message in flight. `agent` is the agent a coherence message names; `unit` and `lcore` identify the requester of a
Device or Remote access. -/
structure Msg where
  kind  : MsgKind
  src   : Nat
  dst   : Nat
  agent : Nat
  addr  : Nat
  tag   : Nat
  pid   : Nat
  world : Bool
  data  : List Byte
  poison : BitVec 8
  mask  : Nat
  grant : Nat
  credit : Bool
  /-- DEM: a load, fetch or table walk (10 R282). -/
  dem   : Bool
  /-- DRsp: the target's access rules denied the load. -/
  refused : Bool
  unit  : Nat
  lcore : Option Nat
  seq   : Nat
  /-- ACKSEQ, when ACKV is set. -/
  ack   : Option Nat
deriving DecidableEq, Repr

/-- A request at a home (08 R224). -/
structure HomeReq where
  kind  : MsgKind
  agent : Nat
  line  : Nat
  tag   : Nat
  pid   : Nat
  world : Bool
  mask  : Nat
  data  : List Byte
  poison : BitVec 8
  /-- It holds its agent's reserved tracker entry (08 R226). -/
  credit : Bool
deriving DecidableEq, Repr

/-- A request of a caching agent (or of agents 48, 49) that waits for its answer: the logical cores and arrays it fills. -/
structure Want where
  kind  : MsgKind
  agent : Nat
  line  : Nat
  pid   : Nat
  world : Bool
  /-- The L1D of this core is filled when the line arrives; `pf`: no demand access waits; `old`: inserted with age 3. -/
  l1    : Option Nat
  pf    : Bool
  old   : Bool
  /-- The transaction tag (08 R222). -/
  tag   : Nat
deriving DecidableEq, Repr

/-- A transaction in progress on a line: the request (none for a directory eviction), the agents whose answer is awaited,
those that answered AckEvicted and whose WbD or EvC is awaited, the data an answer brought, and the requests of Lookout's
answer counted per agent (08 R224, R229, R232, R233). -/
structure Txn where
  req   : Option HomeReq
  waits : List Nat
  evicted : List Nat
  got   : Option (List Byte × BitVec 8)
  reports : List (Nat × Nat)
  /-- The cache that answered AckEvicted was the owner, so the request completes as with no holder (08 R229). -/
  lostOwner : Bool
  wait  : Option HomeReq
  /-- DIRCTL.MODE and TMO when the transaction was accepted, and when that was (08 R235, R236). -/
  fore  : Bool
  tmo   : Nat
  since : Nat
deriving DecidableEq, Repr

/-- A directory entry (08 R221): sharers or owner, the transaction in progress, the age. -/
structure DirEnt where
  line  : Nat
  owner : Option Nat
  shares : BitVec 48
  busy  : Option Txn
  age   : Nat
deriving DecidableEq, Repr

/-- An unused directory way. -/
def DirEnt.none : DirEnt := ⟨0, .none, 0, .none, 0⟩

/-- A home agent: arbiter pointer, agents whose reserved tracker entry is held by a credit, credited requests waiting for
their line, the agents removed from a line without an answer (08 R225-R227, R235), and a failed analogue reference check that waits for its
repeat (19 R479). -/
structure Home where
  arb : Nat
  credits : List Nat
  queue : List HomeReq
  late : List (Nat × Nat)
  refFail : Bool
deriving DecidableEq, Repr

/-- A Skidder operation running in a cluster (07 R207): the operation, its target, INCLUDE_LOCKED, the PID of a LOCK, the
lines skipped and whether a lock was left undone, an ABORT received; `none` operation = a disable clean (07 R212). -/
structure Skid where
  op    : Nat
  target : SkTarget
  incl  : Bool
  pid   : Nat
  first : Nat
  lines : Nat
  abort : Bool
deriving DecidableEq, Repr

/-! ### Fabric (10) -/

/-- One ordered pair of attachments (10 R274): next SEQ at the source, SEQ expected at the destination, unacknowledged
messages, consecutive timeouts of the oldest, and whether the pair sends on the plane opposite to R271. -/
structure PairSt where
  next   : BitVec 16
  expect : BitVec 16
  replay : List Msg
  timeouts : Nat
  moved  : Bool
  /-- An E2ENak under way to the source, with the SEQ expected. -/
  nak    : Option (BitVec 16)
deriving DecidableEq, Repr

/-- A pair that has carried nothing. -/
def PairSt.none : PairSt := ⟨0, 0, [], 0, false, Option.none⟩

/-- The fabric: pairs, the frame count, whether a plane is being emptied for test, and actions tied
to the next frame start (10 R271-R284). -/
structure Fabric where
  pairs  : KV PairSt
  frames : Nat
  emptying : Option Bool
  testing  : Option Bool
  /-- The FABRIC plan of an armed delta: FBSLOT values by address, and the MTIME from which it holds (10 R284). -/
  plan : Option (KV W64 × W64)
  /-- For each link, by plane, router and direction: the flit its receiver last asked for again, and how often it has failed (10 R269). -/
  links : KV (BitVec 32 × Nat)
deriving DecidableEq, Repr

/-! ### Port groups, ports, router (11-13) -/

/-- A frame in the module (11 R301, R307, 13 R343): the port it came from or goes to (0x200 + q: queue pair q), its kind and ID, its time,
the router entry that matched it, its status and its bytes. -/
structure Frame where
  port : Nat
  kind : Nat
  id   : Nat
  time : W64
  entry : Nat
  status : Nat
  data : List Byte
deriving DecidableEq, Repr

/-- The frame under way on a queue pair's transmit ring (11 R308). -/
structure TxDesc where
  frame  : Frame
  launch : W64
  status : Nat
deriving DecidableEq, Repr

/-- A service position (11): the dispatcher's place (n, i) of the start dispatched last, whether the position leaves its idle
state at the next start, the bank in use, a port instruction refused in this slot, and the join in progress. -/
structure Pos where
  n : Nat
  i : Nat
  started : Bool
  running : Bool
  idle : Bool
  /-- The bank that is the active one: false = first. -/
  bank : Bool
  refused : Bool
  /-- The join copies the alternate bank for a delta switch, at or after this MTIME. -/
  joinAlt : Option W64
  /-- MTIME at which the join in progress started (11 R303). -/
  joinAt : Option W64
  /-- MTIME of a hard fault whose slot starts are skipped. -/
  faultAt : Option W64
  /-- The port settings of an armed delta that change with the position's Juggler (02 Table 7). -/
  settings : List (Reg × W64)
  /-- SLIM of the Juggler whose hard fault left the position without service, for the spare that takes over (04 R120). -/
  slim : W64
  /-- MTIME at which the copy of the active bank started (11 R292). -/
  loadAt : Option W64
  /-- Of a position whose Juggler failed while it was not in service: the STATE it had, to which a spare restores it (log entry 175). -/
  haltedAs : Option Nat
deriving DecidableEq, Repr

/-- A port's landing ring (11 R302): frames placed and not yet returned, by slot, the next slot to fill, the slot returned by
the last FRGET. -/
structure Landing where
  full : List (Nat × Nat)
  next : Nat
  held : Option Nat
deriving DecidableEq, Repr

/-- What a port is doing beside its registers (12): receive and transmit FIFOs (11 R300), the stored control word (11 Table 4), UP, ERR and
WAKE of the status word, the interface field IFS, the sampled lands, the output level, whether the enable test runs; CAN counters and bus
state; standby, bus sleep, wake pulse, supply, synchronisation, gates, landing ring. -/
structure Port where
  rx : List W64
  tx : List W64
  ctl : W64
  up  : Bool
  errF : Bool
  wakeF : Bool
  ifs : BitVec 32
  lands : BitVec 8
  out : W64
  testing : Bool
  /-- CAN: TEC, REC, bus-off, error-passive; integrating. -/
  tec : Nat
  rec_ : Nat
  busOff : Bool
  integrating : Bool
  faulted : Bool
  standby : Bool
  asleep : Bool
  wakePulse : Bool
  supply : Bool
  sync : Bool
  gates : BitVec 8
  landing : Landing
  /-- Frames waiting in the router's queues for the port (13 R353), and the frame being received, as words. -/
  queue : List Frame
  /-- A frame in reception has lost words and ends with LOST once there is room (11 R300). -/
  rxDrop : Bool
  /-- Bytes of a UART not yet delivered, a count while a CAN port stands by. -/
  partialRx : List Byte
  pwm : W64
  /-- A field pin's output is at high impedance until the next POUT: without power (23 R544), in its idle state at SAFE 0b00 (11 R305), after
an overcurrent (12 R339). -/
  hiz : Bool
  speed : Nat
  /-- The MTIME at which a PCIe transfer under way began (12 PXCMD). -/
  syncs : List W64
deriving DecidableEq, Repr

/-- A forward being reassembled at its destination group (13 R354). -/
structure Forward where
  src : Nat
  dst : Nat
  port : Nat
  frame : Frame
  got : Nat
  /-- MTIME of the first fragment's arrival. -/
  at_ : W64
deriving DecidableEq, Repr

/-- A port group's own state beside its registers. -/
structure Group2 where
  pos : KV Pos
  timers : KV (Option W64)
  fired : KV Bool
  adcQ : List Nat
  rxJob : KV (List Frame)
  txJob : KV (Option TxDesc)
  /-- The transmit rings left at a descriptor with OWN = 0 until the next write of TAIL (11 R308). -/
  txHeld : List Nat
  /-- Frames the router has accepted and not yet matched (13 R343). -/
  accept : List Frame
  forwards : List Forward
  /-- Router table swap armed for a delta, with its MTIME (13 R363). -/
  swapAt : Option W64
  restoring : Bool
deriving DecidableEq, Repr

/-! ### Layout, partitions, mailboxes, trust (02, 14, 15) -/

/-- A claim in force (02 R48): class, first index, count, owner field, whether an image or a run-time command made it. -/
structure Claim where
  cls   : Nat
  first : Nat
  count : Nat
  owner : Nat
  image : Bool
  /-- The PORTGROUP group number or FABRIC section it came from (32 = FABRIC, 33 = none). -/
  inst  : Nat
deriving DecidableEq, Repr

/-- A PART record (02 Table 4). -/
structure Part where
  pid   : Nat
  world : Bool
  tol   : Nat
  mask  : BitVec 128
  entry : W64
deriving DecidableEq, Repr

/-- A parsed section of an image: type, group number, its place in the section table, EARLY, and its body. -/
structure Sect where
  type : Nat
  inst : Nat
  idx  : Nat
  early : Bool
  live : Bool
  body : List Byte
deriving DecidableEq, Repr

/-- A parsed image (02 Table 1). -/
structure Image where
  delta   : Bool
  counter : Nat
  id      : Nat
  base    : Nat
  length  : Nat
  sects   : List Sect
deriving DecidableEq, Repr

/-- The Layout loader (02): the delta in progress with its place in memory, its PORTGROUP and ROUTER switches that have not
been made, whether one stayed PARTIAL, the sections in force, and claims and declarations. -/
structure Layout where
  delta  : Option Image
  src    : Nat
  /-- The length of the delta's bytes, which are protected from STAGE on (02 R42), and the activation time. -/
  len    : Nat
  time   : W64
  todo   : List (Nat × Nat)
  partialAt : Option Nat
  abort  : Bool
  active : List Sect
  memoryDone : Bool
  claims : List Claim
  parts  : List Part
  /-- The PART record each created partition was read with (14 R371). -/
  created : List Part
  epochs : KV Nat
  sepoch : KV Nat
  mbTimer : KV (Option W64)
deriving DecidableEq, Repr

/-- A key of the key store (15 R393). -/
structure Key where
  alg   : Nat
  usage : Nat
  owner : Nat
  value : Nat
deriving DecidableEq, Repr

/-- A hand-over in progress (15 R402): its record n, the trust pair and TAG to answer, and TOCLASS. -/
structure Hand where
  n    : Nat
  pair : Nat
  tag  : Nat
  cls  : Nat
deriving DecidableEq, Repr

/-- The Trust Core's services (15): the key store; by pair, the record of the last state-changing request (whether a restart has
followed it, its SVC and TAG, its answer); TRNG health; the owners that hand-overs have set, by 2^16 * KIND + BLOCK; hand-overs in
progress; the times of the restarts that failed, the moment that started the present one, the generation the always-on domain keeps. -/
structure Trust where
  keys   : KV (Option Key)
  last   : KV (Bool × List Byte × List Byte)
  trngOk : Bool
  owners : KV (Option (Nat × Bool))
  hands  : List Hand
  restarts : List W64
  startedAt : W64
  gen    : Nat
  doorbell : W64
  doorCfg  : W64
  /-- Lookout has told the Trust Core of the emergency; notices that wait for mailbox 1,023 (15 R406). -/
  notices : List (Nat × Nat × W64)
deriving DecidableEq, Repr

/-- Firebreak switching (15 R396-R399): staged tables by register address, where they differ from the active; the tables of
the 2 µs after a switch, with its MTIME; the MTIME of the pending APPLY; the verdict copies being reloaded; the last denial entry's time
and the count not written. -/
structure Firebreak where
  staged : KV W64
  old    : KV (List (Nat × W64) × W64)
  applyAt : KV (Option W64)
  reload  : List Nat
  lastLog : KV (W64 × Nat)
deriving DecidableEq, Repr

/-! ### Fault tolerance, power, clocks, test, debug, counters, vehicle network (16-22) -/

/-- Lookout (16 R426-R429): causes in force, heartbeats, the domains an emergency cut waits to be powered again, reports. -/
structure Lookout where
  causes  : List Nat
  okOn    : Bool
  stopped : Bool
  trustBeat : W64
  hBeat   : Option W64
  cutDomains : Nat
  dead    : List Nat
  emergencies : List (Nat × Nat × W64)
deriving DecidableEq, Repr

/-- A Carousel scope (16 R420): held, failed tests of the element out, when each element last left test, time of the last
swap, whether the test is a repetition, core waiting for or in a swap pause. -/
structure Carousel where
  hold   : List Nat
  retest : List Nat
  served : KV W64
  swapAt : KV W64
  swapping : KV (Option Nat)
  /-- Physical cores of lost logical cores that have not passed test since: 16 * cluster + slot (16 R418). -/
  lostTest : List Nat
deriving DecidableEq, Repr

/-- Power (17): the VBUS band and that of the sample before, the feeds in 0.1 V, times kept (0 = none, else MTIME + 1), feeds
disconnected, PWRSTAT [6:0] before an automatic Lean and the domains it cuts, requests in progress and those that wait for the Trust Core's
consent, rails without a second half, throttle steps of the clusters, and whether the module is in Standby or Doze. -/
structure Power where
  band    : Nat
  candidate : Nat
  vina    : Int
  vinb    : Int
  vbus    : Int
  since   : KV W64
  feedOff : BitVec 2
  back    : Nat
  cutByAuto : Nat
  request : KV (Option (Nat × Nat))
  consent : List Nat
  polHalf2 : Nat
  throttle : KV Nat
  budgetMiss : Bool
  standby : Bool
  dozing  : Bool
  /-- PWRSTAT [6:0] before the request in progress; wakes latched while a Doze or Standby request is in progress (17 R451). -/
  prior   : Nat
  latched : List (Nat × Nat)
  /-- Standby follows the emergency cut that waits (17 R444, Table 1). -/
  falling : Bool
deriving DecidableEq, Repr

/-- Clocks and reset (18): the internal oscillator in use, start-up done, the maker test mode (23 R541), the spread in force by CLKSS
index, and the step of MTIME to be applied at the next edge. -/
structure Clock where
  internal : Bool
  started : Bool
  maker   : Bool
  spread  : KV W64
  mtAdd   : Int
deriving DecidableEq, Repr

/-- One-time-programmable memory: stored counter, vehicle slot, key slots, fuses, module ID, factory trims, repair fuses. -/
structure Otp where
  counter : Nat
  slot    : Nat
  window  : Mem
  revoked : Nat
  lcFuse  : Nat
  lcDone  : Nat
  devKey  : Nat
  devKeyOff : Bool
  id      : W64
  trims   : KV W64
  fuses   : KV Nat
deriving DecidableEq, Repr

/-- An event of the repair record (19 R484): unit, array code, address, action, marked for fuse. -/
structure Repair where
  unit  : Nat
  array : Nat
  addr  : Nat
  action : Nat
  fuse  : Bool
deriving DecidableEq, Repr

/-- Self-test and repair (19): the repair record, the events that wait while the Trust Core is down (R484), and the last check of each
group's ADC (R477). -/
structure SelfTest where
  repairs : List Repair
  pendingR : List Repair
  adcSeen : KV W64
  /-- Groups reset since their ADC's last check: a check that passes then clears CALADC.FAIL (19 R477). -/
  adcFresh : List Nat
  /-- Result entries not yet read (19 CALRLOG). -/
  unread : Nat
  /-- The remaps and retirements in force since start-up (19 R482-R484). -/
  inForce : List Repair
deriving DecidableEq, Repr

/-- A debug port (20 R496-R500): nonce with its time; authorised level (0 none, 1 partition, 2 module, 3 maker) and PID; the last
response as TAG, STATUS and payload; the bytes of the response sent last; by flash slot, the least offset the next IMGLOAD may have; the STEP
that has not ended, as TAG and engine number. -/
structure Dbg where
  nonce  : Option (Nat × W64)
  level  : Nat
  pid    : Nat
  last   : Option (Nat × Nat × List Byte)
  sent   : List Byte
  next   : KV Nat
  step   : Option (Nat × Nat)
deriving DecidableEq, Repr

/-- A trace channel's records not yet written (20 R510). -/
structure Trace where
  buf : List (List Byte)
  lost : Nat
deriving DecidableEq, Repr

/-- Debug: the two ports, trace channels, SCAN. -/
structure Debug where
  p0 : Dbg
  p1 : Dbg
  tr : KV Trace
  scan : Bool
deriving DecidableEq, Repr

/-- Tally (21): the number of snapshots begun, the snapshot in progress, and the least MTIME the next tick may have. -/
structure Tally where
  seq  : Nat
  snap : List Byte
  next : W64
deriving DecidableEq, Repr

/-- A remote request waiting for its response, and when it left group 31 (22 R533). -/
structure Remote where
  tag  : Nat
  slot : Nat
  msg  : Msg
  left : W64
deriving DecidableEq, Repr

/-- What leaves the module: a beacon on trunk port i, the payload of a remote frame towards a slot, a transfer's image towards a slot with
its operation and LAYACT (22 R525, R535, R536), what a PCIe port sends (12 R341). -/
inductive Sent where
  | beacon (port : Nat) (b : BeaconMsg)
  | remote (slot : Nat) (payload : List Byte)
  | transfer (slot op : Nat) (act : W64) (image : List Byte)
  | pcie (port : Nat) (bytes : List Byte)
deriving DecidableEq, Repr

/-- The vehicle network (22): the arrival of the last beacon by slot; the 10 ms without a role, with the MTIME at which the first trunk
port came up and whether a beacon named a Ringmaster (R526); what leaves the module, the oldest first; remote requests under way; successive
sync results within 10 ns, whether the first under a new Ringmaster is awaited, and when the last arrived (R532). -/
structure Vn where
  seen    : KV (Option W64)
  hold    : Bool
  upAt    : Option W64
  named   : Bool
  outbox  : List Sent
  remotes : List Remote
  nextTag : Nat
  good    : Nat
  newRm   : Bool
  lastSync : W64
deriving DecidableEq, Repr

/-- The byte stores, each unlisted byte reading as the assumption log says. -/
structure Stores where
  main  : Mem
  syn   : KV (BitVec 8)
  spare : Mem
  spareSyn : KV (BitVec 8)
  lmem  : Mem
  lmemSyn : KV (BitVec 8)
  jcode : Mem
  jdata : Mem
  jsyn  : KV (BitVec 8)
  jstore : Mem
  jstoreSyn : KV (BitVec 8)
  mbdata : Mem
  sram  : Mem
  flash : Mem
  /-- The MACsec key stores of the trunk ports, 4 KiB each (12 R334). -/
  msec  : Mem
deriving DecidableEq, Repr

/-- The state of the module. -/
structure State where
  pending : List Instr
  /-- The model's own count of free values taken. -/
  fresh   : Nat
  mtime   : W64
  mtFrac  : BitVec 24
  regs    : KV W64
  st      : Stores
  otp     : Otp
  cores   : KV Core
  lines   : KV Line
  lfsr    : KV (BitVec 16)
  /-- The caches whose ages are being rewritten (07 R198). -/
  ageErr  : List Nat
  /-- The element of a die group that serves the place of die d, where it is not die d itself: 1 + its index, 8 the spare die (09 R262-R264). -/
  dieAt   : KV Nat
  leaving : List Leaving
  l2pf    : KV (List Stride)
  skid    : KV (Option Skid)
  dir     : KV DirEnt
  homes   : KV Home
  net     : List Msg
  wants   : List Want
  fab     : Fabric
  groups  : KV Group2
  ports   : KV Port
  lay     : Layout
  trust   : Trust
  fw      : Firebreak
  elog    : List (List Byte)
  lko     : Lookout
  car     : Carousel
  pwr     : Power
  clk     : Clock
  test    : SelfTest
  dbg     : Debug
  tal     : Tally
  vn      : Vn
deriving DecidableEq, Repr

/-! ### Reset values -/

/-- Control registers after reset (06 Table 1); every other is 0. -/
def crReset : Nat → W64
  | 0x0001 => 2
  | 0x0031 => 0xFFFFFFFFFFFFFFFF
  | 0x0048 => 0xFFFFFFFF00000000
  | 0x0049 => 0xFFFFFFFF00000000
  | 0x0050 => 0xFFFFFFFFFFFFFFFF
  | _ => 0

/-- An issue group with nothing in it, before whose next instruction a control transfer stands (03 R60). -/
def Group.fresh : Group := ⟨0, 0, 0, false, true⟩

/-- Predictor and return stack after reset (05 R139). -/
def Pred.reset : Pred := ⟨[], 0, [], 0⟩

/-- Live counters after a flush (21 R512). -/
def Live.zero : Live := ⟨0, 0, 0, 0, 0, []⟩

/-- An engine after reset (06 R163, 05 R139). Registers without a reset value of the spec are 0 (log entries 4, 5). -/
def Core.reset : Core :=
  { g := [], f := [], pc := 0, cr := [], inflight := [], cyc := 0, nxt := 0, group := Group.fresh, shadow := 0,
    oldCr := [], frozen := none, wait := none, exc := none, doom := none, sbuf := [], devOut := 0, resv := none, repHit := false, repOn := false,
    lostStore := none, recovery := false, privPend := 0, privAct := 0, pred := Pred.reset, ftlb := [], dtlb := [],
    stlb := [], stride := [], win := none, run := false, halted := false, haltPend := none, stepFree := false, afterEret := false, skipOn := 0, atVec := false, fpEnd := 0, fpWin := 0,
    pausing := false, live := [], owed := Live.zero, cntPid := 0, sel := 0, selH := 0, stash := [], place := none, duty := .pair, lead := 0, mate := none, rollbacks := [],
    issuedAt := 0 }

/-- A home agent after reset (08; the arbiter pointer, log entry 6). -/
def Home.reset : Home := ⟨0, [], [], [], false⟩

/-- A service position after reset. -/
def Pos.reset : Pos := ⟨0, 0, false, false, true, false, false, none, none, none, [], 0, none, none⟩

/-- A landing ring after reset. -/
def Landing.reset : Landing := ⟨[], 0, none⟩

/-- A port after reset (12 R318): disabled, FIFOs empty, its lands in their unpowered state (23 R544). -/
def Port.reset : Port :=
  { rx := [], tx := [], ctl := 0, up := false, errF := false, wakeF := false, ifs := 0, lands := 0, out := 0,
    testing := false, tec := 0, rec_ := 0, busOff := false, integrating := false, faulted := false, standby := false,
    asleep := false, wakePulse := false, supply := false, sync := false, gates := 0, landing := Landing.reset,
    queue := [], rxDrop := false, partialRx := [], pwm := 0, hiz := true, speed := 0, syncs := [] }

/-- A port group after reset. -/
def Group2.reset : Group2 :=
  { pos := [], timers := [], fired := [], adcQ := [], rxJob := [], txJob := [], txHeld := [], accept := [], forwards := [],
    swapAt := none, restoring := false }

/-- A debug port after reset. -/
def Dbg.reset : Dbg := ⟨none, 0, 0, none, [], [], none⟩

/-- The module right after reset: every register at the spec's reset value, every queue empty, MTIME 0. -/
def State.reset : State :=
  { pending := [], fresh := 0, mtime := 0, mtFrac := 0, regs := [],
    st := ⟨[], [], [], [], [], [], [], [], [], [], [], [], [], [], []⟩,
    otp := ⟨0, 0, [], 0, 0, 0, 0, false, 0, [], []⟩,
    cores := [], lines := [], lfsr := [], ageErr := [], dieAt := [], leaving := [], l2pf := [], skid := [], dir := [], homes := [], net := [], wants := [],
    fab := ⟨[], 0, none, none, none, []⟩, groups := [], ports := [],
    lay := ⟨none, 0, 0, 0, [], none, false, [], false, [], [], [], [], [], []⟩,
    trust := ⟨[], [], true, [], [], [], 0, 0, 0xFFFFFFFF00000000, 0, []⟩,
    fw := ⟨[], [], [], [], []⟩, elog := [],
    lko := ⟨[1], false, false, 0, none, 0, [], []⟩,
    car := ⟨[], [], [], [], [], []⟩,
    pwr := ⟨0, 0, 480, 480, 480, [], 0, 0, 0, [], [], 0, [], false, false, false, 0, [], false⟩,
    clk := ⟨false, false, false, [], 0⟩,
    test := ⟨[], [], [], [], 0, []⟩,
    dbg := ⟨Dbg.reset, Dbg.reset, [], false⟩, tal := ⟨0, [], 0⟩,
    vn := ⟨[], true, none, false, [], [], 0, 0, false, 0⟩ }

end Sys2Proof.Machine
end

