-- ==== Sys2Proof/Machine/Ops.lean ====
section
/-! DEFINITION. Named operations over the state: module registers, the error log, interrupt IDs, engines and their
identity, power and reset of domains, and taking an exception. -/
namespace Sys2Proof.Machine

/-- What a command answers. -/
abbrev Result := Host.Outcome State Fault Refusal

/-- Only PID 0 and 255 reach most blocks' registers. -/
def isHost (r : Req) : Bool := r.pid == 0 || r.pid == 255

/-! ### Registers -/

/-- The stored value of a register. -/
def State.rd (s : State) (r : Reg) : W64 := KV.get 0 s.regs r.addr ^^^ r.reset

/-- Store a value in a register. -/
def State.wr (s : State) (r : Reg) (v : W64) : State :=
  { s with regs := KV.set 0 s.regs r.addr (v ^^^ r.reset) }

/-- A field of a register. -/
def State.fld (s : State) (r : Reg) (f : Field) : Nat := bitsOf (s.rd r) f.hi f.lo

/-- Store a field of a register; in a keyed register the complement follows (00_scope R5). -/
def State.putFld (s : State) (r : Reg) (f : Field) (n : Nat) : State :=
  let v := withBits (s.rd r) f.hi f.lo n
  s.wr r (if r.kind.keyed then keyedPair (bitsOf v 31 0) else v)

/-- A one-bit field. -/
def State.flag (s : State) (r : Reg) (f : Field) : Bool := s.fld r f == 1

/-- Set or clear a one-bit field. -/
def State.putFlag (s : State) (r : Reg) (f : Field) (b : Bool) : State := s.putFld r f (if b then 1 else 0)

/-- Add to a count field that stays at its greatest value. -/
def State.bump (s : State) (r : Reg) (f : Field) (n : Nat) : State :=
  s.putFld r f (satAdd (2 ^ (f.hi + 1 - f.lo) - 1) (s.fld r f) n)

/-- Bit `n` of a field that is a set of bits. -/
def State.bitIn (s : State) (r : Reg) (f : Field) (n : Nat) : Bool := s.fld r f / 2 ^ n % 2 == 1

/-- Set or clear bit `n` of such a field. -/
def State.putBit (s : State) (r : Reg) (f : Field) (n : Nat) (b : Bool) : State :=
  let v := s.fld r f
  let w := if b == (v / 2 ^ n % 2 == 1) then v else if b then v + 2 ^ n else v - 2 ^ n
  s.putFld r f w

/-! ### Free values -/

/-- Take a value the spec leaves open: the value and the state with the count of such values advanced. -/
def State.takeFree (s : State) : W64 × State := (Config.freeValue s.fresh, { s with fresh := s.fresh + 1 })

/-! ### Engines -/

/-- Where an engine's state is kept. -/
def engKey : Engine → Nat
  | .lcore l => l.val
  | .trust => 128
  | .juggler g k => 129 + 5 * g.val + k.val

/-- The engine of a core number. -/
def engOf (k : Nat) : Engine := if h : k < 128 then .lcore ⟨k, h⟩ else .trust

/-- Whether an engine is a Juggler. -/
def isJug : Engine → Bool
  | .juggler _ _ => true
  | _ => false

/-- Whether an engine is the Trust Core. -/
def isTrust : Engine → Bool
  | .trust => true
  | _ => false

/-- An engine's state. -/
def State.core (s : State) (e : Engine) : Core := KV.get Core.reset s.cores (engKey e)

/-- Replace an engine's state. -/
def State.setCore (s : State) (e : Engine) (c : Core) : State :=
  { s with cores := KV.set Core.reset s.cores (engKey e) c }

/-- A logical core by number. -/
def State.lc (s : State) (l : Nat) : Core := KV.get Core.reset s.cores l

/-- Replace a logical core by number. -/
def State.setLc (s : State) (l : Nat) (c : Core) : State :=
  { s with cores := KV.set Core.reset s.cores l c }

/-- The numbers of the logical cores. -/
def lcores : List Nat := List.range 128

/-- Whether cluster `c` hosts logical core `l` (07 R554). -/
def State.hosts (s : State) (c l : Nat) : Bool :=
  match (s.lc l).place with
  | some p => p / 8 == c
  | none => false

/-- The logical core at window index `j` of cluster `c`. -/
def State.coreAt (s : State) (c j : Nat) : Option Nat := lcores.find? (fun l => (s.lc l).place == some (8 * c + j))

/-- The cluster of a logical core. -/
def Core.cluster (c : Core) : Nat :=
  match c.place with
  | some p => p / 8
  | none => 0

/-- The unit ID an engine's entries carry: the leading physical core of a logical core (01 R13, 00_scope Table 3). -/
def State.unitOf (s : State) : Engine → Nat
  | .lcore l => let c := s.lc l.val; 0x100 + c.cluster * 16 + c.lead
  | .trust => 0x700
  | .juggler g k => 0x300 + g.val * 8 + k.val

/-- A control register of an engine. -/
def Core.creg (c : Core) (n : Nat) : W64 := KV.get 0 c.cr n ^^^ crReset n

/-- Store a control register. -/
def Core.setCreg (c : Core) (n : Nat) (v : W64) : Core := { c with cr := KV.set 0 c.cr n (v ^^^ crReset n) }

/-- The level an engine runs at: 0 = U, 1 = S, 2 = H, 3 = T (06 MSTAT; the Trust Core runs only at T). -/
def Core.level (e : Engine) (c : Core) : Nat := if isTrust e then 3 else bitsOf (c.creg 1) 1 0

/-- The partition in HCTX; the Trust Core's reads 255 (06). -/
def Core.hpid (e : Engine) (c : Core) : Nat := if isTrust e then 255 else bitsOf (c.creg 0x48) 7 0

/-- The partition ID of an engine's requests: HCTX.PID at U and S, 0 at H, 255 for the Trust Core. -/
def Core.pid (e : Engine) (c : Core) : Nat := if c.level e == 2 then 0 else c.hpid e

/-- The world of a partition as PTENT shows it; the Trust Core's own is trusted. -/
def State.pidWorld (s : State) (p : Nat) : Bool := p == 255 || s.flag (.ptent p) Fld.ptentWorld

/-- The world of an engine's requests (15 R395). -/
def State.worldOf (s : State) (e : Engine) : Bool :=
  let c := s.core e
  if c.level e == 2 then false else s.pidWorld (c.hpid e)

/-- A general register; g0 reads zero (03 R52). -/
def Core.greg (c : Core) (r : Nat) : W64 := if r = 0 then 0 else KV.get 0 c.g r

/-- An FP register. -/
def Core.freg (c : Core) (r : Nat) : W64 := KV.get 0 c.f r

/-- Write one result that is due. -/
def Core.land (c : Core) (p : Pend) : Core :=
  if p.fp then { c with f := KV.set 0 c.f p.reg p.val }
  else if p.reg = 0 then c else { c with g := KV.set 0 c.g p.reg p.val }

/-- Write, in time order, the results due before schedule cycle `t` (04 R84, 05 R129). -/
def Core.landAll (c : Core) (t : Nat) : Core :=
  let d := (c.inflight.filter (fun p => p.at_ < t)).foldl Core.land c
  { d with inflight := c.inflight.filter (fun p => !(p.at_ < t)) }

/-- Write every result in flight: the drain of 05 R146. -/
def Core.drain (c : Core) : Core := { c.inflight.foldl Core.land c with inflight := [] }

/-- Put a result among those in flight, behind those written in the same or an earlier cycle. -/
def insertPend (p : Pend) : List Pend → List Pend
  | [] => [p]
  | q :: qs => if p.at_ < q.at_ then p :: q :: qs else q :: insertPend p qs

/-- A result of latency `lat` of the instruction issued in the present cycle (04 R82); a write to g0 is discarded. -/
def Core.put (c : Core) (fp : Bool) (reg : Nat) (val : W64) (lat : Nat) : Core :=
  if !fp && reg == 0 then c
  else { c with inflight := insertPend ⟨fp, reg, val, c.cyc + lat - 1⟩ c.inflight }

/-! ### Counts of Tally (21 R512-R515) -/

/-- Add an event count. -/
def Live.event (l : Live) (code n : Nat) : Live := { l with ev := KV.set 0 l.ev code (KV.get 0 l.ev code + n) }

/-- Sum of two counts. -/
def Live.add (a b : Live) : Live :=
  { cycles := a.cycles + b.cycles, retired := a.retired + b.retired, wasted := a.wasted + b.wasted,
    front := a.front + b.front, back := a.back + b.back,
    ev := b.ev.foldl (fun m e => KV.set 0 m e.1 (KV.get 0 m e.1 + e.2)) a.ev }

/-- Cycles in which no group issues, of class WASTED. They belong to the next group that issues. -/
def Core.oweWasted (on : Bool) (c : Core) (n : Nat) : Core :=
  if on then { c with owed := { c.owed with cycles := c.owed.cycles + n, wasted := c.owed.wasted + 3 * n } } else c

/-- Cycles of class BACK. -/
def Core.oweBack (on : Bool) (c : Core) (n : Nat) : Core :=
  if on then { c with owed := { c.owed with cycles := c.owed.cycles + n, back := c.owed.back + 3 * n } } else c

/-- Cycles of class FRONT. -/
def Core.oweFront (on : Bool) (c : Core) (n : Nat) : Core :=
  if on then { c with owed := { c.owed with cycles := c.owed.cycles + n, front := c.owed.front + 3 * n } } else c

/-- A core event of 21 Table 2. -/
def Core.count (on : Bool) (c : Core) (code n : Nat) : Core :=
  if on then { c with owed := c.owed.event code n } else c

/-- Whether Tally counts (21 R512). -/
def State.talOn (s : State) : Bool := s.flag .talcfg Fld.talcfgEn

/-- Whether Tally counts an engine: only logical cores have live counters. -/
def State.talFor (s : State) (e : Engine) : Bool := s.talOn && !isJug e && !isTrust e

/-- Block events (21 R516): the enabled block counters that select the unit and the event, and whose filter the request's partition
passes, count; `pid` is 256 for an event that no request causes. -/
def State.blockEvent (s : State) (unit evt pid n : Nat) : State :=
  if !s.talOn then s else (List.range 32).foldl (fun t b =>
    let r := Reg.talblk b
    if t.flag r Fld.talblkEn && t.fld r Fld.talblkUnit == unit && t.fld r Fld.talblkEvt == evt
        && (!t.flag r Fld.talblkFilt || t.fld r Fld.talblkPid == pid) then t.bump (.talbv b) Fld.talbvCount n else t) s

/-! ### Error log (16 R434, R435) -/

/-- The classes of an entry. -/
def clsCorrected : Nat := 0
def clsRecovered : Nat := 1
def clsDeferred : Nat := 2
def clsContained : Nat := 3

/-- An entry's 32 bytes (16 Table 11). -/
def elogBytes (t : W64) (unit cls merged pid : Nat) (world : Bool) (addr syn : Nat) : List Byte :=
  toBytes 8 t.toNat ++ toBytes 2 (unit % 4096 + cls % 4 * 4096) ++ toBytes 1 merged ++ [0]
    ++ toBytes 4 (pid % 256 + if world then 256 else 0) ++ toBytes 8 (addr % 2 ^ 40) ++ toBytes 8 syn

/-- The class of an entry. -/
def elogClass (e : List Byte) : Nat := (e.getD 9 0).toNat / 16 % 4

/-- The place in age order of the entry a new one replaces: the oldest of class corrected, or the oldest. -/
def elogVictim (es : List (List Byte)) : Nat :=
  match es.findIdx? (fun e => elogClass e == clsCorrected) with
  | some i => i
  | none => 0

/-- Keep RD at (WRITTEN - UNREAD) mod 1,024 (16 R435). -/
def State.elogSync (s : State) : State :=
  s.putFld .elogptr Fld.elogptrRd ((s.fld .elogptr Fld.elogptrWritten + 1024 - s.fld .elogcfg Fld.elogcfgUnread) % 1024)

/-- Write an entry in the ring; no interrupt. -/
def State.elogRaw (s : State) (e : List Byte) : State :=
  let n := s.elog.length
  let u := s.fld .elogcfg Fld.elogcfgUnread
  let full := n ≥ 1024
  let v := elogVictim s.elog
  let lost := full && v + u ≥ n
  let es := if full then s.elog.eraseIdx v else s.elog
  let s1 := { s with elog := es ++ [e] }
  let s2 := if lost then s1.bump .elogptr Fld.elogptrLost 1 else s1
  let u1 := if lost then u - 1 else u
  let s3 := s2.putFld .elogcfg Fld.elogcfgUnread (satAdd 1024 u1 1)
  let s4 := s3.putFld .elogptr Fld.elogptrWritten ((s3.fld .elogptr Fld.elogptrWritten + 1) % 2 ^ 32)
  s4.elogSync

/-! ### Interrupt IDs (06 R179) -/

/-- An ID reaches one cluster: PEND where enabled; an entry whose LCORE the cluster does not host drops and logs it
(06 R180). Answers whether it was dropped. -/
def State.idAt (s : State) (c n : Nat) : State × Bool :=
  let r := Reg.ircfg c n
  if s.fld r Fld.ircfgDel = 0 then (s, false)
  else if s.hosts c (s.fld r Fld.ircfgLcore) then (s.putFlag (.irstate c n) Fld.irstatePend true, false)
  else (s.elogRaw (elogBytes s.mtime (0x10F + c * 16) clsContained 0 0 false r.addr n), true)

/-- An ID of 32-1,151 reaches all 16 clusters; answers whether some cluster dropped it. -/
def State.idAll (s : State) (n : Nat) : State × Bool :=
  (List.range 16).foldl (fun a c => let b := a.1.idAt c n; (b.1, a.2 || b.2)) (s, false)

/-- ELOG's interrupt 1,124. A drop of this ID is logged without raising it again (log entry 22). -/
def State.elogIrq (s : State) : State := (s.idAll 1124).1

/-- Write an entry, with interrupt 1,124 by ELOGCFG. -/
def State.elogEntry (s : State) (e : List Byte) : State :=
  let s' := s.elogRaw e
  let c := elogClass e
  if s'.fld .elogcfg Fld.elogcfgUnread ≥ s'.fld .elogcfg Fld.elogcfgThr
      || (s'.flag .elogcfg Fld.elogcfgUrgent && (c == clsDeferred || c == clsContained))
  then s'.elogIrq else s'

/-- Write an entry for an event now. -/
def State.log (s : State) (unit cls pid : Nat) (world : Bool) (addr syn : Nat) : State :=
  s.elogEntry (elogBytes s.mtime unit cls 0 pid world addr syn)

/-- An entry of an event that no request caused. -/
def State.logEvent (s : State) (unit cls addr syn : Nat) : State := s.log unit cls 0 false addr syn

/-- Raise an ID of 32-1,151 (06 R179). -/
def State.raiseId (s : State) (n : Nat) : State :=
  let a := s.idAll n
  if a.2 then
    if a.1.fld .elogcfg Fld.elogcfgUnread ≥ a.1.fld .elogcfg Fld.elogcfgThr || a.1.flag .elogcfg Fld.elogcfgUrgent
    then a.1.elogIrq else a.1
  else a.1

/-- Raise an ID of 1,152-4,095 at one cluster; 0 = none (06 R181). -/
def State.raiseAt (s : State) (c n : Nat) : State :=
  if n < 1152 then s else
  let a := s.idAt c n
  if a.2 then
    if a.1.fld .elogcfg Fld.elogcfgUnread ≥ a.1.fld .elogcfg Fld.elogcfgThr || a.1.flag .elogcfg Fld.elogcfgUrgent
    then a.1.elogIrq else a.1
  else a.1

/-- Make a core-local ID pending at a logical core (06 Table 8). -/
def State.raisePriv (s : State) (l n : Nat) : State :=
  let c := s.lc l
  s.setLc l { c with privPend := c.privPend ||| (1 <<< n) }

/-! ### Power and reset of domains (17, 18) -/

/-- Whether switched domain `d` is powered: 0-15 clusters, 16-47 groups, 48-55 channels, 56-57 planes, 58-59 spare-die
pairs, 60 the Trust Core. -/
def State.powered (s : State) (d : Nat) : Bool := s.bitIn .pwrdom Fld.pwrdomOn d

/-- Whether domain `d` is held in reset. -/
def State.inReset (s : State) (d : Nat) : Bool := s.bitIn .rstdom Fld.rstdomHeld d

/-- Whether domain `d` answers: powered, not held in reset, not declared dead (08 R246). -/
def State.alive (s : State) (d : Nat) : Bool := s.powered d && !s.inReset d && !s.lko.dead.contains d

/-! ### Life cycle (20 R490, R493, R494) -/

/-- The life-cycle state, as the highest blown transition fuse gives it: 0 BLANK, 1 MAKER, 2 PROVISIONED, 3 FIELD, 4 RETURN,
5 DECOMMISSIONED. -/
def State.lifeCycle (s : State) : Nat :=
  match topBit 5 s.otp.lcFuse with
  | some i => i + 1
  | none => 0

/-- The bytes of an OTP key slot, and whether it holds a programmed bit. -/
def State.otpBytes (s : State) (slot off n : Nat) : List Byte := KV.getAll 0 s.otp.window (slot * 0x840 + off) n
def State.otpHeld (s : State) (slot : Nat) : Bool := s.otp.window.any (fun e => slot * 0x840 ≤ e.1 && e.1 < (slot + 1) * 0x840)

/-- The two public keys of a slot: ECDSA P-384, ML-DSA-65. -/
def State.slotKeys (s : State) (slot : Nat) : List Byte × List Byte := (s.otpBytes slot 0 97, s.otpBytes slot 0x80 1952)

/-- The keys that a signer key index names in the present state; none when it is not provisioned. -/
def State.signerKey (s : State) (i : Nat) : Option (List Byte × List Byte) :=
  let lc := s.lifeCycle
  let slot := if (lc = 1 || lc = 4) && i = 0 then some 1 else if (lc = 2 || lc = 3) && i < 4 then some (2 + i) else none
  match slot with
  | some k => if s.otpHeld k && s.otp.revoked / 2 ^ k % 2 = 0 then some (s.slotKeys k) else none
  | none => none

/-! ### Exceptions -/

/-- An exception record with no detail. -/
def Exc.of (cause : Nat) (eval epc : W64) : Exc := ⟨cause, 0, 0, false, false, eval, 0, epc, 0⟩

/-- Illegal instruction with its subcode (03 R78). -/
def Exc.illegal (sub : Nat) (epc : W64) : Exc := ⟨1, sub, 0, false, false, 0, 0, epc, 0⟩

/-- Raise a synchronous exception: the instruction has no other effect (05 R147). -/
def Core.raiseExc (c : Core) (x : Exc) : Core := { c with exc := some x }

/-- What the history buffer keeps of an engine before an instruction that can raise an exception later (05 R148; log entry 50). -/
def Core.undoRec (c : Core) : Undo := ⟨c.g, c.f, c.cr, c.inflight, c.pc, c.privPend, c.privAct⟩

/-- Every instruction from a recorded one on is undone: each register holds what the older instructions leave, and their uncommitted
stores are discarded (05 R147-R149). A store lost and an interrupt pending meanwhile stay, and the predictor's counters (05 R139). -/
def Core.undone (c : Core) (u : Undo) : Core :=
  { c with
    g := u.g, f := u.f, inflight := u.inflight, pc := u.pc
    cr := KV.set 0 u.cr 0x21 (KV.get 0 u.cr 0x21 ||| (c.creg 0x21 &&& 1))
    privPend := c.privPend ||| u.privPend, privAct := u.privAct
    sbuf := c.sbuf.filter (fun b => !b.doomed)
    exc := none, doom := none, frozen := none, wait := none, shadow := 0, oldCr := [], group := Group.fresh, repOn := false, win := none }

/-- An FP instruction that was to raise an exception raises it: the younger instructions are undone (05 R147, R148). -/
def Core.fireDoom (c : Core) : Core :=
  match c.doom with
  | some d => (c.undone d.undo).raiseExc d.exc
  | none => c

/-- An exception of an instruction that never issues, found where the next group would issue; that of an older FP instruction comes first. -/
def Core.raiseAhead (c : Core) (x : Exc) : Core := if c.doom.isSome then c.fireDoom else c.raiseExc { x with det := c.nxt }

/-- An access that holds the core frozen ends with an exception; a load issued before its freeze is undone (05 R131, R147). -/
def Core.failAccess (c : Core) (a : PendAcc) (x : W64 → Exc) : Core :=
  let d := match a.late with
    | some l => c.undone l.2
    | none => { c with frozen := none }
  d.raiseExc (x d.pc)

/-- The class an exception goes to: whether it is taken at H (06 R167). -/
def Core.toH (c : Core) (cause : Nat) : Bool :=
  bitsOf (c.creg 1) 1 0 == 2 || cause == 0x07 || cause == 0x0D || cause == 0x11 || !bitOf (c.creg 0x4B) cause

/-- Entry to S (`h = false`) or H (06 R168): saved PC, cause and value, saved level and enable, the new level, and the pc at
the vector. A reservation is lost (04 R104), and the first handler instruction starts a group (03 R60). Instructions fetched and not issued have
left no history and no return-stack entry, so none is removed (05 R141); and the bytes that repetitions before the entry have stored count no
more in the comparison after the last repetition (05 R157): DESIGN CHOICE, log entry 171. -/
def Core.enterAt (c : Core) (h : Bool) (epc cause eval : W64) (off : Nat) : Core :=
  let m := c.creg 1
  let lvl := bitsOf m 1 0
  let c1 := if h then
      (((c.setCreg 0x41 epc).setCreg 0x42 cause).setCreg 0x43 eval).setCreg 1
        (withBits (withBits (withBits (withBits m 8 7 lvl) 9 9 (bitsOf m 3 3)) 3 3 0) 1 0 2)
    else
      (((c.setCreg 9 epc).setCreg 0xA cause).setCreg 0xB eval).setCreg 1
        (withBits (withBits (withBits (withBits m 5 4 lvl) 6 6 (bitsOf m 2 2)) 2 2 0) 1 0 1)
  let base := if h then c.creg 0x40 else c.creg 8
  { c1 with pc := base + BitVec.ofNat 64 off, resv := none, repHit := false, repOn := false, exc := none, shadow := 0, oldCr := [], afterEret := false, atVec := true, stepFree := false,
            win := none, frozen := none, wait := none, group := Group.fresh, nxt := c.nxt + 7 }

/-- ECAUSE of an exception (06 R171). -/
def Exc.word (x : Exc) (h : Bool) : W64 :=
  BitVec.ofNat 64 (x.cause + x.detail * 2 ^ 16 + (if x.s2walk then 2 ^ 24 else 0) + x.level * 2 ^ 25
    + (if x.vec && h then 2 ^ 28 else 0))

/-- The schedule cycle after the last result in flight, when that is later than the next issue cycle. -/
def Core.drainEnd (c : Core) : Nat := c.inflight.foldl (fun t p => if p.at_ + 1 > t then p.at_ + 1 else t) c.nxt

/-- The return of ERET from X (S or H): level and enable from the saved fields, the pc from X's EPC (06 R168). -/
def Core.eretFrom (c : Core) (h : Bool) : Core :=
  let m := c.creg 1
  let m' := if h then withBits (withBits m 1 0 (bitsOf m 8 7)) 3 3 (bitsOf m 9 9)
            else withBits (withBits m 1 0 (bitsOf m 5 4)) 2 2 (bitsOf m 6 6)
  { c.setCreg 1 m' with pc := if h then c.creg 0x41 else c.creg 9 }

/-! ### Halts by a debug port (20 R503-R505) -/

/-- Whether a pending halt acts on a core: at reach PART only at U or S under the token's partition (20 R503). -/
def Core.haltActs (c : Core) (e : Engine) : Bool :=
  !c.stepFree && c.shadow == 0 && (match c.haltPend with
    | none => false
    | some none => true
    | some (some p) => decide (c.level e < 2) && c.hpid e == p)

/-- Check of a debug frame: CRC-16-CCITT over the bytes from TAG on (20 R496, 13 Table 3). -/
def dbgBytes (tag status : Nat) (payload : List Byte) : List Byte :=
  let b := toBytes 1 tag ++ toBytes 1 status ++ toBytes 2 payload.length ++ payload
  [0xA5] ++ b ++ toBytes 2 (crcMsb 16 0x1021 0xFFFF b)

/-- A port answers: the response is sent and kept (20 R497). -/
def Dbg.reply (d : Dbg) (tag status : Nat) (payload : List Byte) : Dbg :=
  { d with last := some (tag, status, payload), sent := dbgBytes tag status payload, step := none }

/-- The response of a STEP whose core has halted: the next instruction address. -/
def Dbg.stepDone (d : Dbg) (n : Nat) (pc : W64) : Dbg :=
  match d.step with
  | some (tag, m) => if m = n then d.reply tag 0 (toBytes 8 pc.toNat) else d
  | none => d

/-- A core halts at a group boundary, after its drain: its reservation ends, and a STEP of it is answered (20 R503-R505). -/
def State.haltNow (s : State) (e : Engine) : State :=
  let c := (s.core e).fireDoom
  let d := ({ c.drain with nxt := c.drainEnd }).oweWasted (s.talFor e) (c.drainEnd - c.nxt)
  let s1 := s.setCore e { d with halted := true, haltPend := none, resv := none, group := Group.fresh }
  { s1 with dbg := { s1.dbg with p0 := s1.dbg.p0.stepDone (engKey e) c.pc, p1 := s1.dbg.p1.stepDone (engKey e) c.pc } }

end Sys2Proof.Machine
end

