-- ==== Sys2Proof/Machine/Issue.lean ====
section
/-! DEFINITION. Issuing one instruction: the checks of 03 R59, R76, R77 that depend on the engine, the groups of 03 R59 and
R60, schedule cycles (05 R127-R129) and slot counts (21 R512-R514). -/
namespace Sys2Proof.Machine

/-- The issue classes of 03 Table 3. -/
inductive Cls where
  | i | f | m | b | s
deriving DecidableEq, Repr

/-- Which engines decode a cell: all, the cores and the Trust Core only, Jugglers only (03 R76, 04 R118). -/
inductive Cell where
  | all | core | jug
deriving DecidableEq, Repr

/-- The illegal-instruction subcodes used below (03 Table 12). -/
def subSubset : Nat := 0x06
def subField : Nat := 0x08
def subValue : Nat := 0x09
def subPrefix : Nat := 0x0A
def subRepRc : Nat := 0x0B
def subGroup : Nat := 0x0C
def subShadow : Nat := 0x0D

/-- Whether an instruction of class `k` may join the group (03 R59). -/
def Group.takes (g : Group) (k : Cls) : Bool :=
  g.n < 3 && !g.shut &&
  match k with
  | .i => g.intf < 2
  | .f => g.intf < 2
  | .m => g.m < 1
  | .b => true
  | .s => false

/-- The group with an instruction of class `k` added. -/
def Group.with (g : Group) (k : Cls) : Group :=
  { n := g.n + 1, m := g.m + (if k = .m then 1 else 0), intf := g.intf + (if k = .i || k = .f then 1 else 0),
    shut := k = .b || k = .s, ctl := false }

/-- A group with nothing in it. -/
def Group.empty : Group := ⟨0, 0, 0, false, false⟩

/-- Whether an engine can issue: executing, and not frozen, waiting, halted, pausing or stopped on an exception. -/
def Core.ready (c : Core) : Bool :=
  c.run && !c.halted && !c.pausing && c.frozen.isNone && c.wait.isNone && c.exc.isNone

/-- Whether an instruction joins the group before it (03 R57, R60). -/
def Core.joins (c : Core) (x : Iss) : Bool := x.grp && !c.group.ctl

/-- The subcode with which an instruction is illegal here: a cell the engine does not decode, the instruction's own check
`chk`, a GROUP byte that breaks R59, or an instruction that is not shadow-safe in a shadow, in the order of 03 R79. -/
def illegalHere (x : Iss) (k : Cls) (cell : Cell) (safe : Bool) (chk : Option Nat) (c : Core) : Option Nat :=
  if (cell == .core && isJug x.eng) || (cell == .jug && !isJug x.eng) then some subSubset
  else match chk with
    | some n => some n
    | none =>
      if c.joins x && !c.group.takes k then some subGroup
      else if c.shadow > 0 && !safe then some subShadow
      else none

/-- Move the live counts of the partition left to the stash, and load the events of the one entered (21 R517). -/
def Core.changePid (c : Core) (e : Engine) (sel selH : W64) : Core :=
  if c.cntPid = c.hpid e then c
  else { c with
    stash := c.stash ++ c.live.map (fun b => ⟨if b.1 = 2 then 0 else c.cntPid, b.1, if b.1 = 2 then c.selH else c.sel, b.2⟩)
    live := [], cntPid := c.hpid e, sel := sel, selH := selH }

/-- Slot counts of one issue: a new group opens a cycle of three slots and takes the cycles owed (21 R512, R514). -/
def Core.tallyIssue (c : Core) (on : Bool) (lv : Nat) (new : Bool) : Core :=
  if !on then c else
  let l := KV.get Live.zero c.live lv
  let l1 := if new then { (l.add c.owed) with cycles := l.cycles + c.owed.cycles + 1, front := l.front + c.owed.front + 3 }
            else l
  { c with live := KV.set Live.zero c.live lv { l1 with retired := l1.retired + 1, front := l1.front - 1 },
           owed := if new then Live.zero else c.owed }

/-- SKIP of both watchpoints is cleared as the first instruction after an ERET issues; its later repetitions do not match either
(06 R178). -/
def Core.endSkip (c : Core) : Core :=
  if c.afterEret then
    { (c.setCreg 0x61 (withBits (c.creg 0x61) 15 15 0)).setCreg 0x63 (withBits (c.creg 0x63) 15 15 0) with
      skipOn := BitVec.ofNat 2 (bitsOf (c.creg 0x61) 15 15 + 2 * bitsOf (c.creg 0x63) 15 15) }
  else if c.repOn then c else { c with skipOn := 0 }

/-- The schedule cycle in which an instruction presented now issues. -/
def Core.issueCycle (c : Core) (x : Iss) : Nat := if c.joins x then c.cyc else c.nxt

/-- An engine as an instruction reads it: in a new group's cycle, with the results written that are due before it (04 R82, R84; 05 R129). -/
def Core.reading (c : Core) (x : Iss) : Core := if c.joins x then c else { c.landAll c.nxt with cyc := c.nxt }

/-- Whether an instruction issues beside a load that has missed: in the load's own cycle t or in t + 1, before its freeze (05 R131).
DEDUCED: a memory, system or branch instruction of these groups is held until the data are there, which changes no schedule cycle (log
entry 164). -/
def Core.beside (c : Core) (x : Iss) (k : Cls) : Bool :=
  c.run && !c.halted && !c.pausing && c.wait.isNone && c.exc.isNone && (k == .i || k == .f) &&
  match c.frozen with
  | some (.access a) => (match a.late with
    | some l => c.issueCycle x ≤ l.1 + 1
    | none => false)
  | _ => false

/-- The bookkeeping of one issued instruction: results due are written, the cycle, group, shadow and pc advance. -/
def Core.enter (c' : Core) (x : Iss) (k : Cls) (on : Bool) (sel selH : W64) : Core :=
  let c := c'.reading x
  let lv := if c.shadow > 0 then bitsOf (KV.get 0 c.oldCr 1 ^^^ crReset 1) 1 0 else bitsOf (c.creg 1) 1 0
  let c0 := if c.shadow > 0 then c else c.changePid x.eng sel selH
  let j := c.joins x
  let c1 := if j then c0 else { c0 with cyc := c.nxt, nxt := c.nxt + 1, group := Group.empty }
  let c2 := (c1.tallyIssue on lv (!j)).endSkip
  { c2 with group := c1.group.with k, shadow := c.shadow - 1, oldCr := if c.shadow ≤ 1 then [] else c.oldCr,
            pc := c.pc + BitVec.ofNat 64 x.len.val, stepFree := c.stepFree && j, afterEret := false, atVec := false, win := some (c.pc + BitVec.ofNat 64 x.len.val) }

/-- The engine once the instruction has been issued. -/
def State.entered (s : State) (x : Iss) (k : Cls) : Core :=
  let c := s.core x.eng
  { c.enter x k (s.talFor x.eng) (s.rd (.talsel (c.hpid x.eng))) (s.rd (.talsel 0)) with issuedAt := s.mtime }

/-- The state in which an instruction's operands are read and its effect takes place. -/
def State.reading (s : State) (x : Iss) : State := s.setCore x.eng ((s.core x.eng).reading x)

/-- The exception of a Juggler's fetch beyond code address 0xFFFF (04 R121). -/
def codeEnd (c : Core) : Exc := Exc.of 4 (if c.pc.toNat < 0x10000 then 0x10000 else c.pc) c.pc

/-- The bytes of an instruction that its checks before SUBSET need: all up to the opcode, where a Juggler does not decode the cell (03 R80).
DEDUCED: the bytes after the opcode are two in format R, none in format Z, and at least one in the others (log entry 162). -/
def issNeed (x : Iss) (k : Cls) (cell : Cell) : Nat :=
  if cell == .core then x.len.val - (match k with | .f => 2 | .s => 0 | _ => 1) else x.len.val

/-- An instruction that can issue: Illegal instruction where a check fails, otherwise its own effect. A Juggler's fetch beyond code
address 0xFFFF is a Fetch translation fault (04 R121). -/
def State.issueNow (s : State) (x : Iss) (k : Cls) (cell : Cell) (safe : Bool) (chk : Option Nat)
    (effect : State → State) : State :=
  let c := s.core x.eng
  if isJug x.eng && 0x10000 < c.pc.toNat + issNeed x k cell then s.setCore x.eng ((c.reading x).raiseExc (codeEnd c))
  else match illegalHere x k cell safe chk c with
    | some n => s.setCore x.eng ((c.reading x).raiseExc (Exc.illegal n c.pc))
    | none => effect (s.reading x)

/-- An instruction younger than an FP instruction that will raise an exception: it issues and will be undone, so nothing of it leaves the
engine. Once the FP instruction's cycle has come, or a freeze, a wait or an exception would follow, that exception is raised instead. -/
def State.issueDoomed (s : State) (x : Iss) (d : Doom) (t : State) : State :=
  let c := s.core x.eng
  let k := t.core x.eng
  if d.exc.det < c.issueCycle x then s.setCore x.eng c.fireDoom
  else if k.frozen.isSome || k.wait.isSome || k.exc.isSome then s.setCore x.eng k.fireDoom
  else s.setCore x.eng k

/-- Issue an instruction: turned away while the engine cannot issue (log entry 23). -/
def State.issue (s : State) (x : Iss) (k : Cls) (cell : Cell) (safe : Bool) (chk : Option Nat)
    (effect : State → State) : State :=
  let c := s.core x.eng
  if !c.ready && !c.beside x k then s
  else if c.ready && c.haltActs x.eng && !c.joins x then s.haltNow x.eng
  else
    let t := s.issueNow x k cell safe chk effect
    match c.doom with
    | none => t
    | some d => s.issueDoomed x d t

/-- Issue an instruction whose effect is on its own engine's registers only. -/
def State.issuePure (s : State) (x : Iss) (k : Cls) (cell : Cell) (safe : Bool) (chk : Option Nat)
    (f : Core → Core) : State :=
  s.issue x k cell safe chk (fun s => s.setCore x.eng (f (s.entered x k)))

/-- Control passes elsewhere: the pc changes and the next instruction starts a group (03 R60). -/
def Core.goTo (c : Core) (pc : W64) : Core := { c with pc := pc, group := { c.group with ctl := true }, win := some pc }

/-- The next group issues `n` cycles after the present one; the cycles between are of class WASTED or BACK (21 Table 1). -/
def Core.cost (c : Core) (on wasted : Bool) (n : Nat) : Core :=
  let d := { c with nxt := c.cyc + n }
  if wasted then d.oweWasted on (n - 1) else d.oweBack on (n - 1)

/-- Raise an exception at the instruction that an engine is about to issue (05 R147). -/
def State.raise (s : State) (e : Engine) (x : Exc) : State := s.setCore e ((s.core e).raiseExc x)

end Sys2Proof.Machine
end

