-- ==== Sys2Proof/Machine/Trace.lean ====
section
/-! DEFINITION. Trace records of the four trace channels (20 R509, R510), and the free length of freezes. -/
namespace Sys2Proof.Machine

/-- A trace record's 16 bytes (20 Table 7). -/
def traceRec (t : W64) (va kind lvl cause : Nat) : List Byte :=
  toBytes 8 t.toNat ++ toBytes 6 va ++ toBytes 1 (kind + 16 * lvl) ++ toBytes 1 cause

/-- Whether channel `c` records logical core `l` now. -/
def State.traces (s : State) (c l : Nat) : Bool :=
  let r := Reg.lcdtrc c
  let p := bitsOf ((s.lc l).creg 0x48) 7 0
  s.flag r Fld.lcdtrcEn && s.fld r Fld.lcdtrcLcore == l && (s.flag r Fld.lcdtrcAnypid || s.fld r Fld.lcdtrcPid == p)
    && !s.pidWorld p

/-- Records in a channel's ring. -/
def State.ringRecords (s : State) (c : Nat) : Nat := 256 * s.fld (.lcdtrb c) Fld.lcdtrbSize

/-- Add a record to a channel: dropped when the buffer holds 64 or the ring is full; the next one kept is preceded by a LOST
record. -/
def State.traceOn (s : State) (c va kind lvl cause : Nat) : State :=
  let b := KV.get ⟨[], 0⟩ s.dbg.tr c
  let r := Reg.lcdtri c
  let used := (s.fld r Fld.lcdtriHead + 65536 - s.fld r Fld.lcdtriTail) % 65536
  let es := (if b.lost = 0 then [] else [traceRec s.mtime 0 4 lvl b.lost]) ++ [traceRec s.mtime va kind lvl cause]
  let put := fun (t : State) (b : Trace) => { t with dbg := { t.dbg with tr := KV.set ⟨[], 0⟩ t.dbg.tr c b } }
  if 64 < b.buf.length + es.length || used ≥ s.ringRecords c then
    put (s.bump r Fld.lcdtriLost 1) { b with lost := satAdd 255 b.lost 1 }
  else put s ⟨b.buf ++ es, 0⟩

/-- An event of an engine is traced, with the engine's pc and level after it: KIND 1 a taken transfer, 2 an entry, 3 ERET. -/
def State.traced (s : State) (e : Engine) (kind cause : Nat) : State :=
  match e with
  | .lcore l =>
    (List.range 4).foldl (fun t c =>
      if t.traces c l.val then t.traceOn c (s.core e).pc.toNat kind ((s.core e).level e) cause else t) s
  | _ => s

/-- The end of a freeze whose length the spec leaves open: its cycles are a free value, counted when Tally counts. -/
def State.freezeEnd (s : State) (e : Engine) (fetch : Bool) : State :=
  if !s.talFor e then s
  else
    let n := Config.freezeCycles s.fresh
    let c := s.core e
    { s.setCore e (if fetch then (c.oweFront true n).count true 0x0B n else (c.oweBack true n).count true 0x0A n) with
      fresh := s.fresh + 1 }

end Sys2Proof.Machine
end

