-- ==== Sys2Proof/Machine/Branch.lean ====
section
/-! DEFINITION. Branches and jumps (04 R108, R109), the direction predictor (05 R137-R139). -/
namespace Sys2Proof.Machine

/-- The counter of a conditional branch at address `a` (05 R137). -/
def Core.predIndex (c : Core) (a : W64) : Nat :=
  Nat.xor (Nat.xor (bitsOf a 15 2) (bitsOf a 29 16)) c.pred.gh.toNat

/-- Whether a branch is predicted taken; under HINT never. -/
def Core.predicts (c : Core) (a : W64) (hint : Bool) : Bool := !hint && 2 ≤ (KV.get 0 c.pred.ctr (c.predIndex a)).toNat

/-- A resolved branch without HINT moves its counter and enters global history with its true direction (05 R138, R139, R141). -/
def Core.trainPred (c : Core) (a : W64) (hint taken : Bool) : Core :=
  if hint then c else
  let i := c.predIndex a
  let v := KV.get 0 c.pred.ctr i
  let v' : BitVec 2 := if taken then (if v = 3 then 3 else v + 1) else (if v = 0 then 0 else v - 1)
  { c with pred := { c.pred with ctr := KV.set 0 c.pred.ctr i v', gh := c.pred.gh <<< 1 ||| (if taken then 1 else 0) } }

/-- A conditional branch: the pc, the predictor, and the cost of 04 R109; in a Juggler the cost of 04 R122. -/
def State.branch (s : State) (x : Iss) (hint : Bool) (disp : W64) (rel : Core → Bool) : State :=
  s.issue x .b .all false none (fun s =>
    let c := s.core x.eng
    let d := s.entered x .b
    let taken := rel c
    let d1 := if taken then d.goTo (c.pc + disp) else d
    if isJug x.eng then s.setCore x.eng (if taken then d1.cost false false 3 else d1)
    else
      let on := s.talFor x.eng
      let t := d1.trainPred c.pc hint taken
      let s1 := s.setCore x.eng (if c.predicts c.pc hint == taken then t else (t.cost on true 7).count on 6 1)
      if taken then s1.traced x.eng 1 0 else s1)

def execBeq (x : Iss) (hint : Bool) (a b : Fin 32) (disp : W64) (s : State) : Result :=
  .next (s.branch x hint disp (fun c => c.greg a.val == c.greg b.val))
def execBne (x : Iss) (hint : Bool) (a b : Fin 32) (disp : W64) (s : State) : Result :=
  .next (s.branch x hint disp (fun c => c.greg a.val != c.greg b.val))
def execBlt (x : Iss) (hint : Bool) (a b : Fin 32) (disp : W64) (s : State) : Result :=
  .next (s.branch x hint disp (fun c => (c.greg a.val).toInt < (c.greg b.val).toInt))
def execBge (x : Iss) (hint : Bool) (a b : Fin 32) (disp : W64) (s : State) : Result :=
  .next (s.branch x hint disp (fun c => (c.greg b.val).toInt ≤ (c.greg a.val).toInt))
def execBltu (x : Iss) (hint : Bool) (a b : Fin 32) (disp : W64) (s : State) : Result :=
  .next (s.branch x hint disp (fun c => (c.greg a.val).toNat < (c.greg b.val).toNat))
def execBgeu (x : Iss) (hint : Bool) (a b : Fin 32) (disp : W64) (s : State) : Result :=
  .next (s.branch x hint disp (fun c => (c.greg b.val).toNat ≤ (c.greg a.val).toNat))
def execBeqi (x : Iss) (hint : Bool) (a : Fin 32) (imm disp : W64) (s : State) : Result :=
  .next (s.branch x hint disp (fun c => c.greg a.val == imm))
def execBnei (x : Iss) (hint : Bool) (a : Fin 32) (imm disp : W64) (s : State) : Result :=
  .next (s.branch x hint disp (fun c => c.greg a.val != imm))
def execBlti (x : Iss) (hint : Bool) (a : Fin 32) (imm disp : W64) (s : State) : Result :=
  .next (s.branch x hint disp (fun c => (c.greg a.val).toInt < imm.toInt))
def execBgei (x : Iss) (hint : Bool) (a : Fin 32) (imm disp : W64) (s : State) : Result :=
  .next (s.branch x hint disp (fun c => imm.toInt ≤ (c.greg a.val).toInt))

/-- J: control passes to the instruction address plus the displacement; 1 cycle, 3 in a Juggler. -/
def execJ (x : Iss) (disp : W64) (s : State) : Result :=
  .next (s.issue x .b .all false none (fun s =>
    let d := (s.entered x .b).goTo ((s.core x.eng).pc + disp)
    (s.setCore x.eng (if isJug x.eng then d.cost false false 3 else d)).traced x.eng 1 0))

/-- JR: control passes to SRC1 read at issue; always 7 cycles, 3 in a Juggler. -/
def execJr (x : Iss) (a : Fin 32) (s : State) : Result :=
  .next (s.issue x .b .all false none (fun s =>
    let on := s.talFor x.eng
    let d := (s.entered x .b).goTo ((s.core x.eng).greg a.val)
    (s.setCore x.eng (if isJug x.eng then d.cost false false 3 else (d.cost on true 7).count on 6 1)).traced x.eng 1 0))

end Sys2Proof.Machine
end

