-- ==== Sys2Proof/Machine/JugMem.lean ====
section
/-! DEFINITION. A port group's memories: positions and the Jugglers that serve them (11 JPOS), data and code LMEM, the position
store that mirrors every write of a position's data (11 R291). -/
namespace Sys2Proof.Machine

/-- The number of a Juggler among the byte stores of the Jugglers; 0 for another engine. -/
def jugNo : Engine → Nat
  | .juggler g k => 5 * g.val + k.val
  | _ => 0

/-- A byte address of a Juggler's LMEM in its store. -/
def jugAddr (e : Engine) (a : Nat) : Nat := jugNo e * 65536 + a

/-- The field of JPOS that names the Juggler serving a position. -/
def jposFld (p : Nat) : Field :=
  if p = 0 then Fld.jposPos0 else if p = 1 then Fld.jposPos1 else if p = 2 then Fld.jposPos2 else Fld.jposPos3

/-- The Juggler serving a position; 7 = none. -/
def State.server (s : State) (g p : Nat) : Nat := s.fld (.jpos g) (jposFld p)

/-- The position a Juggler serves. -/
def State.served (s : State) : Engine → Option Nat
  | .juggler g k => (List.range 4).find? (fun p => s.server g.val p == k.val)
  | _ => none

/-- The engine of Juggler k of a group, for k 0-4. -/
def jugEng (g k : Nat) : Engine := .juggler (Fin.ofNat 32 g) (Fin.ofNat 5 k)

def State.group (s : State) (g : Nat) : Group2 := KV.get Group2.reset s.groups g
def State.setGroup (s : State) (g : Nat) (x : Group2) : State := { s with groups := KV.set Group2.reset s.groups g x }
def State.pos (s : State) (g p : Nat) : Pos := KV.get Pos.reset (s.group g).pos p
def State.setPos (s : State) (g p : Nat) (x : Pos) : State :=
  let gr := s.group g
  s.setGroup g { gr with pos := KV.set Pos.reset gr.pos p x }

/-- The byte number in the position store of offset `off` of a half (false = code) of a bank of position p. -/
def storeAddr (g p : Nat) (second data : Bool) (off : Nat) : Nat :=
  (((g * 4 + p) * 2 + (if second then 1 else 0)) * 2 + (if data then 1 else 0)) * 65536 + off

/-- Syndromes after bytes are written: a word written whole is good again. -/
def goodWords (m : KV (BitVec 8)) (a n : Nat) : KV (BitVec 8) :=
  (List.range n).foldl (fun m i => if (a + i) % 8 = 0 && i + 8 ≤ n then KV.set 0 m ((a + i) / 8) 0 else m) m

/-- The key of a data LMEM word's syndrome, and of a code LMEM word's. -/
def jdataWord (a : Nat) : Nat := a / 8
def jcodeWord (a : Nat) : Nat := 2 ^ 24 + a / 8

/-- Write data LMEM of Juggler number `n`. -/
def State.putJdata (s : State) (n a : Nat) (bs : List Byte) : State :=
  { s with st := { s.st with jdata := KV.setAll 0 s.st.jdata (n * 65536 + a) bs, jsyn := goodWords s.st.jsyn (n * 65536 + a) bs.length } }

/-- Write the position store. -/
def State.putStore (s : State) (at_ : Nat) (bs : List Byte) : State :=
  { s with st := { s.st with jstore := KV.setAll 0 s.st.jstore at_ bs, jstoreSyn := goodWords s.st.jstoreSyn at_ bs.length } }

/-- A write to a position's data: the active bank's data half, and during a rotation join also the spare's data LMEM (11 R291,
R303). -/
def State.mirror (s : State) (g p a : Nat) (bs : List Byte) : State :=
  let s1 := s.putStore (storeAddr g p (s.pos g p).bank true a) bs
  if s.fld (.jpos g) Fld.jposSstate == 2 && s.fld (.jpos g) Fld.jposJoin == p && (s.pos g p).joinAlt.isNone
      && s.fld (.jpos g) Fld.jposSpare < 5 then
    s1.putJdata (5 * g + s.fld (.jpos g) Fld.jposSpare) a bs
  else s1

/-- A write to data LMEM of an engine by its own store: mirrored when it serves a position. -/
def State.jugWrite (s : State) (e : Engine) (a : Nat) (bs : List Byte) : State :=
  let s1 := s.putJdata (jugNo e) a bs
  match e, s.served e with
  | .juggler g _, some p => s1.mirror g.val p a bs
  | _, _ => s1

/-- A write to a position's data LMEM by the router or another agent. -/
def State.posWrite (s : State) (g p a : Nat) (bs : List Byte) : State :=
  let k := s.server g p
  if k < 5 then (s.putJdata (5 * g + k) a bs).mirror g p a bs else s.mirror g p a bs

/-- Bytes of data or code LMEM, and whether a word they lie in is poisoned. -/
def State.jugRead (s : State) (e : Engine) (code : Bool) (a n : Nat) : List Byte × Bool :=
  let b := jugAddr e a
  (KV.getAll 0 (if code then s.st.jcode else s.st.jdata) b n,
   (List.range n).any (fun i => KV.get 0 s.st.jsyn (if code then jcodeWord (b + i) else jdataWord (b + i)) == 0x7F))

end Sys2Proof.Machine
end

