-- ==== Sys2Proof/Machine/PortOps.lean ====
section
/-! DEFINITION. Operations on a port: kinds (01 R18), the status word, words and FIFOs (11 R300, 12 R320), events (12 R319),
enabling and disabling (12 R318), idle states (11 Table 6). -/
namespace Sys2Proof.Machine

def State.port (s : State) (n : Nat) : Port := KV.get Port.reset s.ports n
def State.setPort (s : State) (n : Nat) (p : Port) : State := { s with ports := KV.set Port.reset s.ports n p }

/-- The interface code of a port (11 Table 3, 01 Table 6); a sensor port's follows SNSCFG.SEL. -/
def State.ifc (s : State) (n : Nat) : Nat :=
  let g := n / 16
  let p := n % 16
  if g < 8 then (if p < 8 then 1 else if p < 14 then 2 else 8)
  else if g < 16 then (if p < 4 then 3 else if p < 7 then 4 else if p = 7 then 8 else 9)
  else if g < 18 then (if s.flag (.snscfg g p) Fld.snscfgSel then 7 else 6)
  else if g < 31 then 9
  else if p < 4 then 5 else if p < 6 then 0xA else if p < 8 then 0xB else 9

/-- The rails that supply the PHYs, drivers and transceivers of an interface (17 Table 2). -/
def phyRails (ifc : Nat) : List Nat :=
  match ifc with
  | 1 => [24]
  | 3 => [21]
  | 4 => [21]
  | 5 => [21]
  | 6 => [24]
  | 7 => [25]
  | 8 => [23, 24]
  | 9 => [23, 24]
  | 0xA => [21]
  | _ => []

/-- Whether a port's PHY block is unsupplied: a rail of it has lost both halves; its lands are then in their unpowered state (23 R544). -/
def State.unsupplied (s : State) (n : Nat) : Bool := (phyRails (s.ifc n)).any (fun r => s.pwr.polHalf2 / 2 ^ r % 2 == 1)

/-- Word ports: CAN, LIN, SENT, PSI5, serial, field (11 R289). -/
def wordIfc (c : Nat) : Bool := c = 1 || c = 2 || (6 ≤ c && c ≤ 9)

/-- Direct ports: 10BASE-T1S, 100/1000BASE-T1, trunk. -/
def directIfc (c : Nat) : Bool := 3 ≤ c && c ≤ 5

/-- Whether a port is enabled: PCTRL.EN. -/
def State.portEn (s : State) (n : Nat) : Bool := s.flag (.pctrl (n / 16) (n % 16)) Fld.pctrlEn

/-- The interface field IFS of the status word (12 Table 3); `ifs` holds what the port measures. -/
def State.ifs (s : State) (n : Nat) : Nat :=
  let p := s.port n
  let f := if p.faulted then 1 else 0
  match s.ifc n with
  | 1 => min p.tec 255 * 2 ^ 24 + min p.rec_ 255 * 2 ^ 16
      + (if p.busOff then 2 else if 127 < p.tec || 127 < p.rec_ then 1 else 0) * 2 ^ 8 + f
  | 2 => (if p.asleep then 2 else 0) + f
  | 3 => bitsOf p.ifs 10 8 * 256 + (if s.flag (.t1scfg (n / 16) (n % 16)) Fld.t1scfgPlcaen then 32 else 0) + p.speed % 16 * 2 + f
  | 4 => bitsOf p.ifs 10 8 * 256 + p.speed % 16 * 2 + f
  | 5 => bitsOf p.ifs 10 8 * 256 + (if s.flag (.trkcfg (n / 16) (n % 16)) Fld.trkcfgMsecen then 32 else 0) + p.speed % 16 * 2 + f
  | 6 => bitsOf p.ifs 17 8 * 256 + (if p.sync then 2 else 0) + f
  | 7 => (if p.sync then 2 else 0) + f
  | 8 => if p.tx.isEmpty then 0 else 1
  | 9 => (if p.lands.getLsbD 1 then 2 else 0) + f
  | 0xA => bitsOf p.ifs 6 0
  | _ => 0

/-- The status word of PST and PSTAT (11 Table 3); only word ports have FIFOs. -/
def State.statusWord (s : State) (n : Nat) : W64 :=
  let p := s.port n
  BitVec.ofNat 64 (s.ifs n * 2 ^ 32 + s.ifc n * 2 ^ 24 + (if p.wakeF then 2 ^ 18 else 0) + (if p.errF then 2 ^ 17 else 0)
    + (if p.up && s.portEn n then 2 ^ 16 else 0)
    + (if wordIfc (s.ifc n) then (32 - p.tx.length) * 256 + p.rx.length else 0))

/-! ### Events and words -/

/-- Set event bit `e` of PIRQ; with its IE bit the group's interrupt 12 + e is raised (12 R319). -/
def State.portEvent (s : State) (n e : Nat) : State :=
  let r := Reg.pirq (n / 16) (n % 16)
  let f := if e = 0 then Fld.pirqWake else if e = 1 then Fld.pirqErr else if e = 2 then Fld.pirqFault else Fld.pirqEvt
  let s1 := s.putFlag r f true
  if s1.bitIn r Fld.pirqIe e then s1.raiseId (32 + n / 16 * 32 + 12 + e) else s1

/-- Count a receive error, or words lost. -/
def State.rxErr (s : State) (n k : Nat) : State := s.bump (.perr (n / 16) (n % 16)) Fld.perrRxerr k
/-- Count a transmit error, or words discarded. -/
def State.txErr (s : State) (n k : Nat) : State := s.bump (.perr (n / 16) (n % 16)) Fld.perrTxerr k

/-- A receive word of a KIND with LEN and PAYLOAD (11 Table 2). -/
def rxWord (kind len payload : Nat) : W64 :=
  BitVec.ofNat 64 (2 ^ 63 + kind * 2 ^ 60 + len * 2 ^ 56 + payload % 2 ^ 56)

/-- An end-of-frame, error or confirmation payload: the status and MTIME[47:0] (12 R320). -/
def endPayload (status : Nat) (t : W64) : Nat := status * 2 ^ 48 + t.toNat % 2 ^ 48

/-- Data words of a payload, 7 bytes each. -/
def dataWords : Nat → List Byte → List W64
  | 0, _ => []
  | fuel + 1, bs => if bs.isEmpty then [] else rxWord 0 (min 7 bs.length) (ofBytes (bs.take 7)) :: dataWords fuel (bs.drop 7)

/-- Place the words of a frame in the receive FIFO: what does not fit is discarded and counted with ERR set, and the frame ends
with status LOST once there is room (11 R300, 12 Table 2). -/
def State.pushRx (s : State) (n : Nat) (ws : List W64) : State :=
  let p := s.port n
  let lead : List W64 := if p.rxDrop && p.rx.length < 32 then [rxWord 2 0 (endPayload 3 s.mtime)] else []
  let room := 32 - p.rx.length - lead.length
  let lost := ws.length - room
  let p1 := { p with rx := p.rx ++ lead ++ ws.take room, rxDrop := (p.rxDrop && lead.isEmpty) || 0 < lost,
                     errF := p.errF || 0 < lost }
  let s1 := s.setPort n p1
  if lost = 0 then s1 else s1.rxErr n lost

/-- A received frame that ended with a status: counted, with event ERR, when not OK. -/
def State.rxEnded (s : State) (n status : Nat) : State :=
  if status = 0 then s
  else
    let s1 := (s.rxErr n 1).portEvent n 1
    s1.setPort n { s1.port n with errF := true }

/-- A transmission ended with a status: a confirmation when TXCONF is set, counted with event ERR when not OK (12 R320). -/
def State.txEnded (s : State) (n status : Nat) : State :=
  let p := s.port n
  let conf := (s.ifc n = 1 && bitOf p.ctl 33) || (s.ifc n = 2 && bitOf p.ctl 34)
  let s1 := if conf then s.pushRx n [rxWord 3 0 (endPayload status s.mtime)] else s
  if status = 0 then s1
  else
    let s2 := (s1.txErr n 1).portEvent n 1
    s2.setPort n { s2.port n with errF := true }

/-- Discard the transmit FIFO; a transmission it cuts ends with status ABORTED (12 Table 2). -/
def State.flushTx (s : State) (n : Nat) : State :=
  let p := s.port n
  if p.tx.isEmpty then s else (s.setPort n { p with tx := [] }).txEnded n 6

/-- Discard the receive FIFO. -/
def State.flushRx (s : State) (n : Nat) : State := s.setPort n { s.port n with rx := [], rxDrop := false, partialRx := [] }

/-- The transmit words left once a frame has ended: behind its end-of-frame word, or its first word when it has none. -/
def afterFrame (ws : List W64) : List W64 :=
  match ws.findIdx? (fun w => bitsOf w 62 60 == 2) with
  | some i => ws.drop (i + 1)
  | none => ws.drop 1

/-- The port enters its idle state (11 Table 6). A CAN port keeps the frame at the head of its FIFO, which may be in progress, and transmits no
further one; what other word ports have queued is discarded, since they resume with the first words the program then queues (11 R305). -/
def State.idlePort (s : State) (n : Nat) : State :=
  let p := s.port n
  match s.ifc n with
  | 1 => s.setPort n { p with tx := p.tx.take (p.tx.length - (afterFrame p.tx).length) }
  | 2 => s.flushTx n
  | 7 =>
    let s1 := s.flushTx n
    s1.setPort n { s1.port n with sync := false, syncs := [] }
  | 8 => s.flushTx n
  | 9 =>
    let safe := s.fld (.fldcfg (n / 16) (n % 16)) Fld.fldcfgSafe
    if safe = 3 then s
    else s.setPort n { p with out := BitVec.ofNat 64 (if safe = 2 then 1 else 0), pwm := 0, hiz := safe = 0 }
  | 3 => s.setPort n { p with gates := 0 }
  | 4 => s.setPort n { p with gates := 0 }
  | 5 => s.setPort n { p with gates := 0 }
  | _ => s

/-- A port leaves its idle state: a CAN frame that was not in progress is discarded (11 R305). -/
def State.leaveIdle (s : State) (n : Nat) : State :=
  if s.ifc n = 1 then s.flushTx n else s

/-- EN 0 to 1: protocol state and FIFOs cleared, the test of the transceiver or PHY begun (12 R318). A transceiver fault stays
until that test passes (12 R325). -/
def State.enablePort (s : State) (n : Nat) : State :=
  let p := s.port n
  let s1 := s.putFlag (.pctrl (n / 16) (n % 16)) Fld.pctrlEn true
  s1.setPort n { p with
    rx := [], tx := [], rxDrop := false, partialRx := [], tec := 0, rec_ := 0, busOff := false, integrating := s.ifc n == 1, up := false,
    testing := true, ctl := p.ctl ||| 1, standby := false, asleep := false, syncs := [] }

/-- EN 1 to 0: the port stops, its FIFOs are discarded and counted (12 R318). -/
def State.disablePort (s : State) (n : Nat) : State :=
  let p := s.port n
  let s1 := s.putFlag (.pctrl (n / 16) (n % 16)) Fld.pctrlEn false
  let s2 := s1.setPort n { p with
    rx := [], tx := [], rxDrop := false, partialRx := [], up := false, testing := false, integrating := false,
    ctl := p.ctl &&& ~~~ (1 : W64), syncs := [] }
  let s3 := if p.rx.isEmpty then s2 else s2.rxErr n p.rx.length
  if p.tx.isEmpty then s3 else s3.txErr n p.tx.length

/-- Set EN: a change has its effects, the same value none. -/
def State.setEn (s : State) (n : Nat) (en : Bool) : State :=
  if s.portEn n = en then s else if en then s.enablePort n else s.disablePort n

/-- The owner of a port's land: the owner field of its class 0x01 claim (02 R48, 11 R290). -/
def State.claimOwner (s : State) (cls idx : Nat) : Option Nat :=
  (s.lay.claims.find? (fun c => c.cls == cls && c.first ≤ idx && idx < c.first + c.count)).map (·.owner)

/-- Whether a partition reaches a port's block: PID 0, 255 and the owner of the land (12 R316). -/
def State.reachesPort (s : State) (pid n : Nat) : Bool :=
  pid = 0 || pid = 255 || (match s.claimOwner 1 n with
    | some o => o % 256 == pid
    | none => false)

/-- The unit ID of a group's PHY block: 0x300 + gg*8 + 6. -/
def phyUnit (g : Nat) : Nat := 0x300 + g * 8 + 6

/-- A transceiver, supply or output fault: FAULT in IFS and PIRQ (12 R325, R337, R339). -/
def State.portFault (s : State) (n : Nat) : State :=
  let s1 := s.setPort n { s.port n with faulted := true, errF := true }
  s1.portEvent n 2

/-- Raise group event k of 11 Table 9: GCINT for k = 0-7, and the group's interrupt. -/
def State.groupEvent (s : State) (g k : Nat) : State :=
  let s1 := if k < 8 then s.putBit (.gcint g) Fld.gcintEvt k true else s
  s1.raiseId (32 + g * 32 + k)

/-- A wake event of a port: WAKE in the status word and in PIRQ (12 R326). -/
def State.portWake (s : State) (n : Nat) : State :=
  (s.setPort n { s.port n with wakeF := true }).portEvent n 0

end Sys2Proof.Machine
end

