-- ==== Sys2Proof/Machine/MemChan.lean ====
section
/-! DEFINITION. The store behind a home agent: address decode, check bits and poison, twin copies, failed dies and the
spare (09). A line is named by PA[39:6], a word by its address divided by 8. -/
namespace Sys2Proof.Machine

/-- The home of a line: PA[8:6] (09 R251). -/
def homeOf (line : Nat) : Nat := line % 8

/-- PA[30] of a line: the die within the channel. -/
def dieBit (line : Nat) : Nat := line / 2 ^ 24 % 2

/-- The die of a line (09 R251). -/
def dieOf (line : Nat) : Nat := 2 * homeOf line + dieBit line

/-- The row of a line in its die: PA[29:9]. -/
def rowOf (line : Nat) : Nat := line / 8 % 2 ^ 21

/-- The same row of the other die: the second copy's line (09 R257). -/
def twinOf (line : Nat) : Nat := Nat.xor line (2 ^ 24)

/-- Whether a line lies in twin region n of its home (09 MCTWIN). -/
def State.inTwin (s : State) (line n : Nat) : Bool :=
  let r := Reg.mctwin (homeOf line) n
  let b := s.fld r Fld.mctwinBase
  let p := line / 2 ^ 15
  s.flag r Fld.mctwinEn && b ≤ p && p < b + s.fld r Fld.mctwinSize

/-- Whether a line is of availability class A (09 R257). -/
def State.classA (s : State) (line : Nat) : Bool := (List.range 16).any (fun n => s.inTwin line n)

/-- Whether a line is a second copy, unmapped for every requester but the Trust Core (01 R15, 09 R260). -/
def State.isSecond (s : State) (line : Nat) : Bool := s.classA (twinOf line)

/-- The state of a die in MCSTAT: 0 in service, 1 migrating, 2 failed, 3 replaced. -/
def State.dieState (s : State) (d : Nat) : Nat :=
  s.fld (.mcstat (d / 2)) (if d % 2 = 0 then Fld.mcstatDie0 else Fld.mcstatDie1)

def State.setDieState (s : State) (d v : Nat) : State :=
  s.putFld (.mcstat (d / 2)) (if d % 2 = 0 then Fld.mcstatDie0 else Fld.mcstatDie1) v

/-- Whether a line's die is marked failed. -/
def State.dieFailed (s : State) (line : Nat) : Bool := s.dieState (dieOf line) == 2

/-- The die group of a home: 0 (channels 0-3) or 1; its SPSTEER lies in home 0 or 4. -/
def groupOfDie (d : Nat) : Nat := d / 8

/-- The element of its group that serves the place of die d: 0-7 its dies, 8 its spare die (16 CARSCOPE). -/
def State.dieElem (s : State) (d : Nat) : Nat :=
  match KV.get 0 s.dieAt d with
  | 0 => d % 8
  | e + 1 => e

/-- The die of an element of a group. -/
def dieOfElem (g e : Nat) : Nat := if e = 8 then 16 + g else g * 8 + e

/-- The place of die d goes to an element of its group; MCSTAT reads replaced where that is not die d (09 MCSTAT). -/
def State.serveBy (s : State) (d e : Nat) : State :=
  { s.setDieState d (if e = d % 8 then 0 else 3) with dieAt := KV.set 0 s.dieAt d (if e = d % 8 then 0 else e + 1) }

/-- The places of a group. -/
def groupPlaces (g : Nat) : List Nat := (List.range 8).map (fun i => g * 8 + i)

/-- The place that an element serves. -/
def State.placeOfElem (s : State) (g e : Nat) : Option Nat := (groupPlaces g).find? (fun d => s.dieElem d == e)

/-- The element of a group that serves no place. -/
def State.idleElem (s : State) (g : Nat) : Nat := ((List.range 9).find? (fun e => (s.placeOfElem g e).isNone)).getD 8

/-- The unit ID of the die that serves a line. -/
def State.dieUnit (s : State) (line : Nat) : Nat := 0x520 + dieOfElem (groupOfDie (dieOf line)) (s.dieElem (dieOf line))

/-- The columns of the data bits of the SECDED code: the first 56 bytes of weight 3, then the first 8 of weight 5 (09 R254). -/
def eccColumns : List Nat :=
  ((List.range 256).filter (fun v => popCount 8 v == 3)).take 56
    ++ ((List.range 256).filter (fun v => popCount 8 v == 5)).take 8

/-- The check byte of a word (09 R254). -/
def eccByte (v : W64) : Nat :=
  (eccColumns.zipIdx).foldl (fun c e => if v.getLsbD e.2 then Nat.xor c e.1 else c) 0

/-- What a syndrome says (09 Table 2): good; a data bit or a check bit to correct; poison; uncorrectable. -/
inductive Synd where
  | good | bit (i : Nat) | check | poison | bad
deriving DecidableEq, Repr

def syndOf (v : Nat) : Synd :=
  if v = 0 then .good
  else if v = 0x7F then .poison
  else match eccColumns.findIdx? (fun c => c == v) with
    | some i => .bit i
    | none => if popCount 8 v = 1 then .check else .bad

/-- A word's data bits. -/
def State.wordRaw (s : State) (w : Nat) : W64 := BitVec.ofNat 64 (ofBytes (KV.getAll 0 s.st.main (w * 8) 8))

/-- A word's syndrome: the stored check byte against the computed one. -/
def State.wordSyn (s : State) (w : Nat) : Nat := (KV.get 0 s.st.syn w).toNat

/-- Store a word with check bits that give a syndrome. -/
def State.putWord (s : State) (w : Nat) (v : W64) (syn : Nat) : State :=
  { s with st := { s.st with main := KV.setAll 0 s.st.main (w * 8) (toBytes 8 v.toNat),
                             syn := KV.set 0 s.st.syn w (BitVec.ofNat 8 syn) } }

/-- The same in the spare die of the line's group, when its migration has copied that row (09 R263). -/
def State.putSpare (s : State) (w : Nat) (v : W64) (syn : Nat) : State :=
  { s with st := { s.st with spare := KV.setAll 0 s.st.spare (w * 8) (toBytes 8 v.toNat),
                             spareSyn := KV.set 0 s.st.spareSyn w (BitVec.ofNat 8 syn) } }

def State.steer (s : State) (grp : Nat) (f : Field) : Nat := s.fld (.spsteer grp) f

/-- Whether a line has been copied to the spare by the migration in progress of its die. -/
def State.copied (s : State) (line : Nat) : Bool :=
  let g := groupOfDie (dieOf line)
  let st := s.steer g Fld.spsteerState
  (st == 1 || st == 2) && s.steer g Fld.spsteerDie == dieOf line % 8 && rowOf line < s.steer g Fld.spsteerDone

/-- Write one word of a copy, and of the spare where the line has been copied. A class B line on a failed die takes no
write until the spare is steered in (09 Table 3, R263). -/
def State.writeCopy (s : State) (w : Nat) (v : W64) (syn : Nat) : State :=
  let line := w / 8
  let failed := s.dieFailed line
  let twin := s.classA line || s.isSecond line
  let s1 := if s.copied line && (!failed || twin) then s.putSpare w v syn else s
  if failed then s1 else s1.putWord w v syn

/-- The word of the other copy. -/
def twinWord (w : Nat) : Nat := twinOf (w / 8) * 8 + w % 8

/-- Write one word of a line: both copies of a class A line (09 R259). -/
def State.writeWord (s : State) (w : Nat) (v : W64) (syn : Nat) : State :=
  let s1 := s.writeCopy w v syn
  if s.classA (w / 8) then s1.writeCopy (twinWord w) v syn else s1

/-- An entry and interrupt of a home (09 Error reporting): interrupt k, unit, class, address and syndrome. -/
def State.homeEvent (s : State) (h : Nat) (k : Option Nat) (unit cls pa syn : Nat) : State :=
  let s1 := s.logEvent unit cls pa syn
  match k with
  | some k => s1.raiseId (1056 + 4 * h + k)
  | none => s1

/-- Count a corrected word of a die; interrupt k = 0 when the count reaches THR. -/
def State.countCorrected (s : State) (d : Nat) : State :=
  let r := Reg.mcecnt (d / 2) (d % 2)
  let s1 := s.bump r Fld.mcecntCount 1
  if s1.fld r Fld.mcecntCount == s1.fld r Fld.mcecntThr && s.fld r Fld.mcecntCount != s1.fld r Fld.mcecntCount
  then s1.raiseId (1056 + 4 * (d / 2)) else s1

/-- Read one copy's word: the state with any correction made, and the data when good or corrected. A failed die has none. -/
def State.readCopy (s : State) (w : Nat) : State × Option W64 :=
  let line := w / 8
  let v := s.wordRaw w
  if s.dieFailed line then (s, none)
  else match syndOf (s.wordSyn w) with
    | .good => (s, some v)
    | .bit i =>
      let v' := v ^^^ (1 <<< i)
      let s1 := s.writeCopy w v' 0
      (((s1.countCorrected (dieOf line)).logEvent (s.dieUnit line) clsCorrected (w * 8) (s.wordSyn w)), some v')
    | .check =>
      let s1 := s.writeCopy w v 0
      (((s1.countCorrected (dieOf line)).logEvent (s.dieUnit line) clsCorrected (w * 8) (s.wordSyn w)), some v)
    | .poison => (s, none)
    | .bad => (s, none)

/-- The copies of a word that dies in service hold: of a class A line two, the one on die 2h first. -/
def State.copies (s : State) (w : Nat) : List Nat :=
  let both := if !s.classA (w / 8) then [w] else if dieBit (w / 8) = 0 then [w, twinWord w] else [twinWord w, w]
  both.filter (fun x => !s.dieFailed (x / 8))

/-- The outcome of a word that no copy gives: poison, newly written to every copy where the syndrome of one was uncorrectable (09 Table 2,
R259). -/
def State.poisonWord (s : State) (w : Nat) : State :=
  match (s.copies w).find? (fun x => syndOf (s.wordSyn x) == .bad) with
  | some x => (s.writeWord w (s.wordRaw x) 0x7F).homeEvent (homeOf (w / 8)) (some 1) (s.dieUnit (x / 8)) clsDeferred (x * 8) (s.wordSyn x)
  | none => s

/-- A home reads one word of a line: the data and whether the word is poisoned (09 R255, R259). -/
def State.readWord (s : State) (w : Nat) : State × W64 × Bool :=
  if s.classA (w / 8) then
    let first := if dieBit (w / 8) = 0 then w else twinWord w
    let a := s.readCopy first
    match a.2 with
    | some v => (a.1, v, false)
    | none =>
      let b := a.1.readCopy (twinWord first)
      match b.2 with
      | some v =>
        if s.dieFailed (first / 8) then (b.1, v, false)
        else ((b.1.writeWord w v 0).logEvent (s.dieUnit (first / 8)) clsRecovered (first * 8) (s.wordSyn first), v, false)
      | none => (b.1.poisonWord w, s.wordRaw first, true)
  else
    let a := s.readCopy w
    match a.2 with
    | some v => (a.1, v, false)
    | none => (a.1.poisonWord w, s.wordRaw w, true)

/-- A home reads a line: 64 bytes and the poison bit of each word. -/
def State.readLine (s : State) (line : Nat) : State × List Byte × BitVec 8 :=
  (List.range 8).foldl (fun a i =>
    let r := a.1.readWord (line * 8 + i)
    (r.1, a.2.1 ++ toBytes 8 r.2.1.toNat, if r.2.2 then a.2.2 ||| (1 <<< i) else a.2.2)) (s, [], 0)

/-- Whether a word as stored holds the poison code: every copy in service does. -/
def State.isPoison (s : State) (w : Nat) : Bool := (s.copies w).all (fun x => s.wordSyn x == 0x7F)

/-- The entry and interrupt of a word that a write has newly poisoned (09 R256). -/
def State.poisonNote (before after : State) (w : Nat) : State :=
  if before.isPoison w then after
  else after.homeEvent (homeOf (w / 8)) (some 1) (before.dieUnit (((before.copies w).headD w) / 8)) clsDeferred (w * 8) 0x7F

/-- A home writes one word of a line under a byte mask of 8 bits, with or without poison (09 R256). -/
def State.writeMasked (s : State) (w : Nat) (mask : Nat) (bs : List Byte) (poison : Bool) : State :=
  if mask = 0 then s
  else if poison then s.poisonNote (s.writeWord w (BitVec.ofNat 64 (ofBytes bs)) 0x7F) w
  else if mask = 255 then s.writeWord w (BitVec.ofNat 64 (ofBytes bs)) 0
  else
    let r := s.readWord w
    let old := toBytes 8 r.2.1.toNat
    let new := (List.range 8).map (fun i => if mask / 2 ^ i % 2 = 1 then bs.getD i 0 else old.getD i 0)
    if r.2.2 then r.1.writeWord w r.2.1 0x7F else r.1.writeWord w (BitVec.ofNat 64 (ofBytes new)) 0

/-- A home writes a line under a byte mask of 64 bits. -/
def State.writeLine (s : State) (line mask : Nat) (bs : List Byte) (poison : BitVec 8) : State :=
  (List.range 8).foldl (fun a i =>
    a.writeMasked (line * 8 + i) (mask / 2 ^ (8 * i) % 256) ((bs.drop (8 * i)).take 8) (poison.getLsbD i)) s

/-! ### Retired ways (19 R482) -/

/-- The way that a retirement takes out: word indexes of the L2 and I/O cache data run by set, way and word, those of the L2 tags and of the
directory by set and way (DESIGN CHOICE, log entry 174). -/
def repairWay (r : Repair) : Option Nat :=
  if r.action ≠ 2 then none
  else if r.array = 0x9 then some (r.addr / 8 % 16)
  else if r.array = 0xA || r.array = 0xB then some (r.addr % 16)
  else if r.array = 0xC then some (r.addr / 8 % 4)
  else none

/-- Whether a way of the L2, directory or I/O cache of a unit is retired. -/
def State.wayGone (s : State) (unit w : Nat) : Bool := s.test.inForce.any (fun r => r.unit == unit && repairWay r == some w)

/-- Whether an array that has no ways is out of use for good: a group's position store, the Trust Core's SRAM (19 Table 3). -/
def State.arrayGone (s : State) (unit array : Nat) : Bool := s.test.inForce.any (fun r => r.unit == unit && r.array == array && r.action == 2)

/-! ### Second copies alone (09 R260) -/

/-- A word of a second copy as a read of that copy alone decodes it, and whether it is poisoned; nothing is written back or counted. -/
def State.rawWord (s : State) (w : Nat) : W64 × Bool :=
  let v := s.wordRaw w
  let failed := s.dieFailed (w / 8)
  match syndOf (s.wordSyn w) with
  | .good => (v, failed)
  | .check => (v, failed)
  | .bit b => (v ^^^ (1 <<< b), failed)
  | _ => (v, true)

/-- A read of a second-copy line: its bytes and the poison bits. -/
def State.rawRead (s : State) (line : Nat) : List Byte × BitVec 8 :=
  let ws := (List.range 8).map (fun i => s.rawWord (line * 8 + i))
  (ws.flatMap (fun e => toBytes 8 e.1.toNat), (ws.zipIdx).foldl (fun (p : BitVec 8) e => if e.1.2 then p ||| (1 <<< e.2) else p) 0)

/-- A write of a word of a second copy alone. -/
def State.rawMasked (s : State) (w mask : Nat) (bs : List Byte) (poison : Bool) : State :=
  let r := s.rawWord w
  let old := toBytes 8 r.1.toNat
  let new := (List.range 8).map (fun i => if mask / 2 ^ i % 2 = 1 then bs.getD i 0 else old.getD i 0)
  if mask = 0 then s
  else if poison then s.poisonNote (s.writeCopy w (BitVec.ofNat 64 (ofBytes bs)) 0x7F) w
  else if mask ≠ 255 && r.2 then s.poisonNote (s.writeCopy w r.1 0x7F) w
  else s.writeCopy w (BitVec.ofNat 64 (ofBytes new)) 0

/-- A write of a second-copy line under a byte mask of 64 bits. -/
def State.rawWrite (s : State) (line mask : Nat) (bs : List Byte) (poison : BitVec 8) : State :=
  (List.range 8).foldl (fun a i =>
    a.rawMasked (line * 8 + i) (mask / 2 ^ (8 * i) % 256) ((bs.drop (8 * i)).take 8) (poison.getLsbD i)) s

/-- All 64 bytes of a line. -/
def fullMask : Nat := 2 ^ 64 - 1

/-- The home of a lost line writes poison into every word (08 R234). -/
def State.poisonLine (s : State) (line : Nat) : State :=
  (s.writeLine line fullMask ((s.readLine line).2.1) 255).logEvent (0x500 + homeOf line) clsDeferred (line * 64) 0

/-- A line of a cache merged with bytes under a mask. -/
def mergeBytes (mask : Nat) (old new : List Byte) : List Byte :=
  (List.range 64).map (fun i => if mask / 2 ^ i % 2 = 1 then new.getD i 0 else old.getD i 0)

/-- Poison bits after a write under a mask: a word written whole takes the write's bit, another keeps or gains its own. -/
def mergePoison (mask : Nat) (old new : BitVec 8) : BitVec 8 :=
  (List.range 8).foldl (fun p i =>
    let m := mask / 2 ^ (8 * i) % 256
    if m = 0 then p
    else if m = 255 then (if new.getLsbD i then p ||| (1 <<< i) else p &&& ~~~ ((1 : BitVec 8) <<< i))
    else if new.getLsbD i then p ||| (1 <<< i) else p) old

/-- A byte mask of `n` bytes from offset `o`. -/
def maskAt (o n : Nat) : Nat := (2 ^ n - 1) * 2 ^ o

end Sys2Proof.Machine
end

