-- ==== Sys2Proof/Machine/Scope.lean ====
section
/-! DEFINITION. Carousel scopes (16 CARSCOPE): spares, retirement, exhaustion; test results and the repair record (19 R482-R485). -/
namespace Sys2Proof.Machine

/-- The unit ID of element `i` of scope `n`; a fabric plane goes by its router 0. -/
def scopeUnit (n i : Nat) : Nat :=
  if n < 16 then 0x100 + n * 16 + i
  else if n < 48 then 0x300 + (n - 16) * 8 + i
  else if n < 50 then (if i = 8 then 0x530 + (n - 48) else 0x520 + (n - 48) * 8 + i)
  else if n = 50 then 0x720 + i
  else 0x600 + i * 0x40

/-- The kind of a scope (16 Table 4). -/
def scopeKind (n : Nat) : Nat := if n < 16 then 0 else if n < 48 then 1 else if n < 50 then 2 else if n = 50 then 3 else 4

/-- CARSCOPE.STATE values. -/
def scReady : Nat := 0
def scTesting : Nat := 1
def scJoining : Nat := 2
def scWaiting : Nat := 3
def scPausing : Nat := 4
def scHeld : Nat := 5
def scNoSpare : Nat := 6
def scOff : Nat := 7

def State.scState (s : State) (n : Nat) : Nat := s.fld (.carscope n) Fld.carscopeState
def State.setScState (s : State) (n v : Nat) : State := s.putFld (.carscope n) Fld.carscopeState v
def State.spareOf (s : State) (n : Nat) : Nat := s.fld (.carscope n) Fld.carscopeSpare
def State.setSpare (s : State) (n v : Nat) : State := s.putFld (.carscope n) Fld.carscopeSpare v
def State.isRetired (s : State) (n i : Nat) : Bool := s.bitIn (.carscope n) Fld.carscopeRetired i

/-- Whether the Trust Core is RUNNING (15 TSSTAT). -/
def State.trustUp (s : State) : Bool := s.fld .tsstat Fld.tsstatState == 1

/-! ### Results and repairs -/

/-- Write a result entry: word 0 from its fields, word 1 the address; an unread entry overwritten is counted (19 CALRLOG). -/
def State.calEntry (s : State) (unit array addr bit step action count : Nat) : State :=
  let w := s.fld .calrlog Fld.calrlogWritten
  let i := w % 256
  let s1 := s.wr (.calres0 i) (BitVec.ofNat 64 (min count 0xFFFF * 2 ^ 48 + bit % 256 * 2 ^ 40 + step % 16 * 2 ^ 36
    + action % 4 * 2 ^ 34 + array % 16 * 2 ^ 12 + unit % 4096))
  let s2 := (s1.wr (.calres1 i) (BitVec.ofNat 64 (addr % 2 ^ 32))).putFld .calrlog Fld.calrlogWritten ((w + 1) % 2 ^ 32)
  if 256 ≤ s.test.unread then s2.bump .calrlog Fld.calrlogLost 1
  else { s2 with test := { s2.test with unread := s2.test.unread + 1 } }

/-- A remap or retirement goes to the repair record; while the Trust Core is down up to 64 events wait (19 R484). -/
def State.record (s0 : State) (r : Repair) : State :=
  let s := { s0 with test := { s0.test with inForce := s0.test.inForce ++ [r] } }
  if s.trustUp then { s with test := { s.test with repairs := s.test.repairs ++ [r] } }
  else if s.test.pendingR.length < 64 then { s with test := { s.test with pendingR := s.test.pendingR ++ [r] } }
  else s.putFlag .calstat Fld.calstatReclost true

/-- The Trust Core, running again, writes the waiting events to the record (19 R484). -/
def State.recordPending (s : State) : State :=
  { s with test := { s.test with repairs := s.test.repairs ++ s.test.pendingR, pendingR := [] } }

/-! ### Retirement and exhaustion -/

/-- Retire element `i` of scope `n`: the bit in RETIRED, interrupt 1,123, an entry of class recovered, a result entry and the
repair record (16 R420, 19 R483, R484). -/
def State.retireFor (s : State) (n i array addr bit step count : Nat) : State :=
  let u := scopeUnit n i
  let s1 := s.putBit (.carscope n) Fld.carscopeRetired i true
  let s2 := (s1.raiseId 1123).logEvent u clsRecovered 0 0
  (s2.calEntry u array addr bit step 2 count).record ⟨u, array, addr, 2, false⟩

/-- The same where no array test names a bit. -/
def State.retire (s : State) (n i array : Nat) : State := s.retireFor n i array 0 0 0 0

/-- A scope without a spare: interrupt 1,122, an entry of class recovered, STATE no spare (16 R424). -/
def State.exhaust (s : State) (n : Nat) : State :=
  let s1 := ((s.setSpare n 0xF).setScState n scNoSpare).raiseId 1122
  s1.logEvent 0x710 clsRecovered (Reg.carscope n).addr 0

/-- A swap of a scope has ended: the period of the next runs from it (16 R420). -/
def State.putCarSwap (s : State) (n : Nat) : State := { s with car := { s.car with swapAt := KV.set 0 s.car.swapAt n s.mtime } }

/-- Record a recovery of a logical core (16 LKOREC). -/
def State.recover (s : State) (l kind : Nat) : State :=
  s.wr (.lkorec l) (BitVec.ofNat 64 (2 ^ 63 + kind * 2 ^ 48 + s.mtime.toNat % 2 ^ 48))

/-! ### Scopes without power -/

/-- Whether the Carousel runs (16 CARCTL). -/
def State.carOn (s : State) : Bool := s.flag .carctl Fld.carctlEn

/-- The scope of a power domain: its own for clusters and groups, the die groups for the spare-die pairs. -/
def domainScope (d : Nat) : Option Nat := if d < 48 then some d else if d = 58 then some 48 else if d = 59 then some 49 else none

/-- The power domain of a scope; phases and planes have none that is switched with them. -/
def scopeDomain (n : Nat) : Option Nat := if n < 48 then some n else if n = 48 then some 58 else if n = 49 then some 59 else none

/-- Whether a scope is powered. -/
def State.scopePowered (s : State) (n : Nat) : Bool :=
  match scopeDomain n with
  | some d => s.powered d
  | none => true

/-- The slots of a cluster's cores that serve its logical cores. -/
def State.usedSlots (s : State) (c : Nat) : List Nat :=
  (lcores.filter (fun l => s.hosts c l)).foldl (fun a l => a ++ (s.lc l).lead :: (s.lc l).mate.toList) []

/-- The element of a scope that is out of service as its spare: none for the planes, which have no spare apart. -/
def State.scopeSpare (s : State) (n : Nat) : Option Nat :=
  if n < 16 then
    [8, 7, 6, 5, 4, 3, 2, 1, 0].find? (fun x => !(s.usedSlots n).contains x && !s.isRetired n x && !s.car.lostTest.contains (16 * n + x))
  else if n < 48 then
    let k := s.fld (.jpos (n - 16)) Fld.jposSpare
    if k < 5 && !s.isRetired n k then some k else none
  else if n < 50 then
    if s.fld (.spsteer (n - 48)) Fld.spsteerState = 3 then none
    else
      let e := s.idleElem (n - 48)
      if s.isRetired n e then none else some e
  else if n = 50 then (List.range 9).find? (fun p => s.fld .pwrph Fld.pwrphPh / 4 ^ p % 4 == 1)
  else none

/-- A scope loses power, or the Carousel is turned off: it takes no steps (16 R420). -/
def State.scopeDown (s : State) (n : Nat) : State := s.setScState n scOff

/-- A powered scope takes part again: its next step comes one period later (16 R420). -/
def State.scopeUp (s : State) (n : Nat) : State :=
  if !s.carOn || !s.scopePowered n then s
  else
    let calm := if s.car.hold.contains n then scHeld else scReady
    let bad := s.fld .fbstat Fld.fbstatPlanea = 2 || s.fld .fbstat Fld.fbstatPlaneb = 2
    if n = 51 then ((s.setSpare n 0xF).setScState n (if bad then scNoSpare else calm)).putCarSwap n
    else match s.scopeSpare n with
      | some x => ((s.setSpare n x).setScState n calm).putCarSwap n
      | none => ((s.setSpare n 0xF).setScState n scNoSpare).putCarSwap n

/-- The scope of a domain that loses power or is reset, and of one that starts. -/
def State.domainScopeDown (s : State) (d : Nat) : State := (domainScope d).elim s s.scopeDown
def State.domainScopeUp (s : State) (d : Nat) : State := (domainScope d).elim s s.scopeUp

/-! ### LOOKOUT_OK (16 R428) -/

/-- A cause makes LOOKOUT_OK inactive; the change raises 1,126. Cause 0x07 counts as cleared at once. -/
def State.lkoCause (s : State) (n : Nat) : State :=
  let k := s.lko
  let s1 := { s with lko := { k with
    causes := if n = 7 || k.causes.contains n then k.causes else k.causes ++ [n]
    okOn := false } }
  let s2 := (s1.putFld .lkostat Fld.lkostatCause n).putFlag .lkostat Fld.lkostatOk false
  if k.okOn then s2.raiseId 1126 else s2

/-- A cause has cleared (16 Table 7). -/
def State.lkoClear (s : State) (n : Nat) : State :=
  { s with lko := { s.lko with causes := s.lko.causes.filter (fun x => x != n) } }

/-- REARM: LOOKOUT_OK is active again when every cause has cleared; otherwise it is ignored. -/
def State.lkoRearm (s : State) : State :=
  if s.lko.causes.isEmpty then { s with lko := { s.lko with okOn := true } }.putFlag .lkostat Fld.lkostatOk true else s

end Sys2Proof.Machine
end

