-- ==== Sys2Proof/Machine/Landing.lean ====
section
/-! DEFINITION. Frames on their way to a port: headers (11 Table 5), landing rings (11 R302), output queues (13 R350, R353), and
the path of a request that receives Absent (08 R246). -/
namespace Sys2Proof.Machine

/-- Whether a port group answers: powered and out of reset (11 R287). -/
def State.groupAlive (s : State) (g : Nat) : Bool := s.alive (16 + g)

/-- The end of a store that received Absent: an entry of class contained; at a logical core IOSTAT.LOST and Lost store pending
(08 R246), with the address of the first that is not yet taken (06 R171). -/
def State.loseStore (s : State) (r : Req) (pa : Nat) : State :=
  let s1 := s.log r.unit.toNat clsContained r.pid.toNat r.world pa 0
  match r.lcore with
  | none => s1
  | some l =>
    let c := s1.lc l.val
    let c1 := (c.setCreg 0x21 (withBits (c.creg 0x21) 0 0 1)).count s1.talOn 0x0F 1
    s1.setLc l.val { c1 with lostStore := some (c.lostStore.getD pa) }

/-- A register write that an access rule refuses: dropped, with an entry of class contained naming the block (00_scope R9). -/
def State.refuse (s : State) (r : Req) (unit pa syn : Nat) : State :=
  s.log unit clsContained r.pid.toNat r.world pa syn

/-! ### Pools (14 R373) -/

/-- Whether a partition is UNDECLARED. -/
def State.undeclared (s : State) (p : Nat) : Bool := s.fld (.ptent p) Fld.ptentState == 0

/-- An owner-field write that names `p` against a pool entry's PID and ANY. -/
def State.poolTakes (s : State) (p pid : Nat) (any : Bool) : Bool :=
  p == 0 || pid == p || (any && p != 255 && !s.undeclared p)

/-! ### Frames -/

/-- The 16 header bytes of a frame for local port `lport` (11 Table 5). -/
def Frame.header (f : Frame) (lport : Nat) : List Byte :=
  [BitVec.ofNat 8 lport, BitVec.ofNat 8 f.kind] ++ toBytes 2 f.data.length ++ toBytes 4 f.id ++ toBytes 8 f.time.toNat

/-- The bytes of a frame, header included. -/
def Frame.size (f : Frame) : Nat := 16 + f.data.length

/-- Count frames in a field of RTCNT; group event 10 (13 R367). -/
def State.rtCount (s : State) (g : Nat) (f : Field) (k : Nat) : State :=
  (s.bump (.rtcnt g) f k).groupEvent g 10

/-- The landing ring of a word port. -/
def landReg (n : Nat) : Reg := .jland (n / 16) (n % 16 / 4) (n % 4)

/-- Whether a slot of a landing ring is free. -/
def Landing.isFree (l : Landing) (i : Nat) : Bool := !(l.full.any (fun e => e.1 == i)) && l.held != some i

/-- Place waiting frames in the landing ring while a slot is free; a frame longer than SIZE is discarded and counted. -/
def State.landFrames : Nat → State → Nat → State
  | 0, s, _ => s
  | fuel + 1, s, n =>
    let p := s.port n
    match p.queue with
    | [] => s
    | f :: rest =>
      let r := landReg n
      let size := s.fld r Fld.jlandSize
      let count := s.fld r Fld.jlandCount
      let i := p.landing.next % count
      if count = 0 then s
      else if size < f.size then ((s.setPort n { p with queue := rest }).rtCount (n / 16) Fld.rtcntQdrop 1).landFrames fuel n
      else if !p.landing.isFree i then s
      else
        let at_ := s.fld r Fld.jlandBase + i * size
        let s1 := s.posWrite (n / 16) (n % 16 / 4) at_ (f.header (n % 16) ++ f.data)
        let p1 := s1.port n
        (s1.setPort n { p1 with queue := rest, landing := { p1.landing with full := p1.landing.full ++ [(i, f.size)]
                                                                            next := i + 1 } }).landFrames fuel n

/-- The group-buffer bytes that class 0x03 claims give the owner of a port's land (13 R353). -/
def State.bufferOf (s : State) (n : Nat) : Nat :=
  match s.claimOwner 1 n with
  | none => 0
  | some o => 1024 * ((List.range 64).filter (fun b => s.claimOwner 3 (n / 16 * 64 + b) == some o)).length

/-- The bytes that the queues of that owner's ports of the group hold. -/
def State.bufferUsed (s : State) (n : Nat) : Nat :=
  let o := s.claimOwner 1 n
  (List.range 16).foldl (fun t i =>
    let m := n / 16 * 16 + i
    if s.claimOwner 1 m == o then t + ((s.port m).queue.map Frame.size).foldl (· + ·) 0 else t) 0

/-- Whether the position of a word port runs (13 R350). -/
def State.posRuns (s : State) (n : Nat) : Bool := (s.pos (n / 16) (n % 16 / 4)).running

/-- A frame reaches its destination port: the landing ring of a word port, the class queue of a direct port; what cannot go
there is dropped and counted in QDROP (13 R350, R353). -/
def State.toPort (s : State) (n : Nat) (f : Frame) : State :=
  let c := s.ifc n
  let p := s.port n
  let ok := if wordIfc c then s.posRuns n && s.fld (landReg n) Fld.jlandCount != 0
            else directIfc c && f.kind == 5
  if !ok || 16 ≤ p.queue.length || s.bufferOf n < s.bufferUsed n + f.size then s.rtCount (n / 16) Fld.rtcntQdrop 1
  else
    let s1 := s.setPort n { p with queue := p.queue ++ [f] }
    if wordIfc c then s1.landFrames 17 n else s1

/-- The priority class of an Ethernet frame: the PCP of its VLAN tag, 0 when untagged (12 R331). -/
def classOf (f : Frame) : Nat :=
  if f.data.getD 12 0 == 0x81 && f.data.getD 13 0 == 0 then (f.data.getD 14 0).toNat / 32 else 0

/-- The queued frame of a direct port that goes next: of the highest class whose gate is open (12 R331). -/
def Port.nextFrame (p : Port) : Option Frame :=
  ((List.range 8).reverse.filterMap (fun c =>
    if p.gates.getLsbD c then none else p.queue.find? (fun f => classOf f == c))).head?

end Sys2Proof.Machine
end

