-- ==== Sys2Proof/Machine/AddrMap.lean ====
section
/-! DEFINITION. What stands at an address of a block (01 R12-R17, 12 R315, 19 Table 4): registers, the places that are no registers, the
windows of the local memories (07 R190), and whether an address is mapped at all (01 R13). -/
namespace Sys2Proof.Machine

/-- Whether bytes [a, a + n) lie in a block of `size` bytes at `b`. -/
def within (a n b size : Nat) : Bool := b ≤ a && a + n ≤ b + size

/-- Whether an interface register is presented by an interface code (12 R315). -/
def RegKind.onIfc (k : RegKind) (c : Nat) : Bool :=
  match k with
  | .canmode | .canbt | .canswf | .canswm | .canswd | .canswdm => c == 1
  | .lincfg => c == 2
  | .t1scfg => c == 3
  | .t1cfg => c == 4
  | .macaddr => directIfc c
  | .trkcfg => c == 5
  | .snscfg => c == 6 || c == 7
  | .sercfg => c == 8
  | .fldcfg | .fldpwm | .fldadc => c == 9
  | .pcicfg | .pciwin | .pcimsi | .pxaddr | .pxlocal | .pxcmd => c == 0xA
  | _ => true

/-- Whether a group carries field pins (19 R486). -/
def hasField (g : Nat) : Bool := 8 ≤ g && g ≠ 16 && g ≠ 17

/-- Whether a calibration entry exists (19 Table 4). -/
def calExists (n : Nat) : Bool :=
  (n < 256 && n % 4 ≠ 3 && hasField (n / 8)) || (0x100 ≤ n && n < 0x13C) || (0x140 ≤ n && n < 0x143)
    || (0x148 ≤ n && n < 0x151) || (0x160 ≤ n && n < 0x180) || (0x180 ≤ n && n < 0x1A0 && hasField (n - 0x180))
    || (0x1A0 ≤ n && n < 0x1A8)

/-- Whether a register of a run exists at its indices. -/
def State.hasReg (s : State) (r : Reg) : Bool :=
  match r.kind with
  | .calu | .calf | .cale => calExists r.i
  | .svarg | .svcmd | .svres => r.i ≤ 128
  | k => k.onIfc (s.ifc (r.i * 16 + r.j))

/-- The register at an address that is a multiple of 8. -/
def State.regAt (s : State) (a : Nat) : Option Reg := (regRows.filterMap (fun w => w.at a)).find? s.hasReg

/-! ### Places that hold no register -/

/-- The MACsec key store of a trunk port: the byte number in the store of keys (12 R334). -/
def msecAt (a : Nat) : Option Nat :=
  let o := a - 0x081F200000
  if 0x081F200000 ≤ a && a < 0x081F240000 && 0x8000 ≤ o % 0x10000 && o % 0x10000 < 0x9000 then some (o / 0x10000 * 0x1000 + o % 0x1000)
  else none

/-- The OTP window: its byte number (20 R494). -/
def otpAt (a : Nat) : Option Nat := if 0x0C00094000 ≤ a && a < 0x0C00097801 then some (a - 0x0C00094000) else none

/-- A mailbox and the offset in it; 0x38 of each is unmapped. -/
def mailAt (a : Nat) : Option (Nat × Nat) :=
  if 0x0C00100000 ≤ a && a < 0x0C00140000 && a % 256 / 8 ≠ 7 then some ((a - 0x0C00100000) / 256, a % 256) else none

/-- A byte of the error log's entries: entry and offset (16 R435). -/
def elogAt (a : Nat) : Option (Nat × Nat) :=
  if 0x0C000A8000 ≤ a && a < 0x0C000B0000 then some ((a - 0x0C000A8000) / 32, a % 32) else none

/-- Whether an address lies in the words of a router table. -/
def inRtTable (a : Nat) : Bool := within a 1 0x0800000000 0x20000000 && 0x100000 ≤ a % 0x1000000 && a % 0x1000000 < 0x180000

/-- Whether it lies in the window of the position store. -/
def inWindow (a : Nat) : Bool := within a 1 0x0800000000 0x20000000 && 0x18000 ≤ a % 0x1000000 && a % 0x1000000 < 0x20000

/-- The window of a local memory that an address lies in: the logical core hosted at that window index, and the byte in its LMEM. An
index that no core of the cluster has is unmapped (07 R190; DEDUCED for an index whose position is not placed at all). -/
def State.lmemAt (s : State) (a : Nat) : Option (Nat × Nat) :=
  if within a 1 0x0900000000 0x1000000 && a % 0x100000 < 0x80000 then
    (s.coreAt ((a - 0x0900000000) / 0x100000) (a % 0x100000 / 0x10000)).map (fun l => (l, a % 0x10000))
  else none

/-- Whether an address of the physical map is mapped: main memory but for the second copies (which `State.target` tells apart), the
remote windows, and what stands at an offset of a block (01 R12, R13). -/
def State.mapped (s : State) (a : Nat) : Bool :=
  a < 0x80000000 || (0x1000000000 ≤ a && a < 0x9000000000) || (msecAt a).isSome || (otpAt a).isSome || (mailAt a).isSome
    || (elogAt a).isSome || inWindow a || inRtTable a || (s.lmemAt a).isSome || (s.regAt (a / 8 * 8)).isSome

/-! ### Local memories (07 R190-R193) -/

/-- Poison of an LMEM word: its check byte stands at the poison code. -/
def State.lmemPoison (s : State) (a n : Nat) : Option Nat :=
  (List.range n).find? (fun i => KV.get 0 s.st.lmemSyn ((a + i) / 8) == 0x7F)

/-- Write bytes of a logical core's LMEM: a word written whole loses its poison (07 Table 3). -/
def State.writeLmem (s : State) (a : Nat) (bs : List Byte) : State :=
  let clr := (List.range bs.length).filterMap (fun i =>
    if (a + i) % 8 = 0 && i + 8 ≤ bs.length then some ((a + i) / 8) else none)
  { s with st := { s.st with lmem := KV.setAll 0 s.st.lmem a bs, lmemSyn := clr.foldl (fun m w => KV.set 0 m w 0) s.st.lmemSyn } }

/-- A write through a window: the granules it touches lose the reservation of the core hosted there (07 R191). -/
def State.writeWindowLmem (s : State) (l a pa : Nat) (bs : List Byte) : State :=
  let c := s.lc l
  (if c.resv = some (pa / 64) then s.setLc l { c with resv := none } else s).writeLmem (l * 65536 + a) bs

end Sys2Proof.Machine
end

