-- ==== Sys2Proof/Machine/Net.lean ====
section
/-! DEFINITION. Attachments and messages of the Zewald fabric (10 R268-R278): routers, sending with a sequence number,
delivery, Absent, and the map of the physical address space (01 R12-R17). -/
namespace Sys2Proof.Machine

/-! ### Routers (10 Table 1) -/

def groupRouter (g : Nat) : Nat :=
  if g < 10 then g else if g = 10 then 10 else if g = 11 then 19 else if g = 12 then 20 else if g = 13 then 29
  else if g = 14 then 30 else if g = 15 then 39 else if g = 16 then 40 else if g = 17 then 49
  else if g < 28 then 32 + g else 5 + g

def clusterRouter (c : Nat) : Nat := if c < 8 then 11 + c else 33 + c
def homeRouter (h : Nat) : Nat := 21 + h
def trustRouter : Nat := 31
def globalRouter : Nat := 32

/-- The router of an agent (08 R217). -/
def agentRouter (a : Nat) : Nat :=
  if a < 16 then clusterRouter a else if a < 48 then groupRouter (a - 16) else if a = 48 then trustRouter else globalRouter

/-- The power domain of an attachment; global control lies in the always-on domain (none). -/
def routerDomain (r : Nat) : Option Nat :=
  if r = globalRouter then none
  else if r = trustRouter then some 60
  else match (List.range 16).find? (fun c => clusterRouter c == r) with
    | some c => some c
    | none => match (List.range 8).find? (fun h => homeRouter h == r) with
      | some h => some (48 + h)
      | none => match (List.range 32).find? (fun g => groupRouter g == r) with
        | some g => some (16 + g)
        | none => none

/-- The caching agent or home that Lookout's declaration names, by attachment: `lko.dead` holds power domains. -/
def agentDomain (a : Nat) : Nat := if a < 48 then a else 60

/-- Whether an attachment's status view is "in service" (10 R278). -/
def State.inService (s : State) (r : Nat) : Bool :=
  match routerDomain r with
  | some d => s.alive d
  | none => r == globalRouter

/-! ### Messages -/

/-- A message with its CMD, routers, agent and address; every other field at rest. -/
def Msg.of (kind : MsgKind) (src dst agent addr : Nat) : Msg :=
  { kind := kind, src := src, dst := dst, agent := agent, addr := addr, tag := 0, pid := 0, world := false, data := [],
    poison := 0, mask := 0, grant := 0, credit := false, dem := false, refused := false, unit := 0, lcore := none, seq := 0, ack := none }

def pairKey (src dst : Nat) : Nat := src * 64 + dst

def State.pair (s : State) (src dst : Nat) : PairSt := KV.get PairSt.none s.fab.pairs (pairKey src dst)

def State.setPair (s : State) (src dst : Nat) (p : PairSt) : State :=
  { s with fab := { s.fab with pairs := KV.set PairSt.none s.fab.pairs (pairKey src dst) p } }

/-- Whether `a` is not after `b` in sequence order, modulo 65,536. -/
def seqLe (a b : BitVec 16) : Bool := (b - a).toNat < 32768

/-- The routers that pass a message on to the next: along its row to the destination column, then along that column (10 R270). -/
def fabricPath (src dst : Nat) : List Nat :=
  let toward := fun (a b i : Nat) => if a ≤ b then a + i else a - i
  let dc := if src % 10 ≤ dst % 10 then dst % 10 - src % 10 else src % 10 - dst % 10
  let dr := if src / 10 ≤ dst / 10 then dst / 10 - src / 10 else src / 10 - dst / 10
  (List.range (dc + dr)).map (fun i =>
    if i < dc then src / 10 * 10 + toward (src % 10) (dst % 10) i else toward (src / 10) (dst / 10) (i - dc) * 10 + dst % 10)

/-- The plane a message travels on: B when true (10 R271, R276). -/
def State.planeNow (s : State) (src dst : Nat) : Bool :=
  if s.fld .fbstat Fld.fbstatPlanea != 0 || !s.powered 56 then true
  else if s.fld .fbstat Fld.fbstatPlaneb != 0 || !s.powered 57 then false
  else ((src + dst) % 2 == 1) != (s.pair src dst).moved

/-- The flits of a message count at each router that forwards them (21 Table 3). -/
def State.countFlits (s : State) (src dst pid flits : Nat) : State :=
  if !s.talOn then s
  else (fabricPath src dst).foldl (fun t n => t.blockEvent ((if s.planeNow src dst then 0x640 else 0x600) + n) 1 pid flits) s

/-- Send a message: it takes the next SEQ of its pair and stays in the replay store until it is acknowledged; it carries in
ACKSEQ the highest SEQ received in order from its destination (10 R274). -/
def State.send (s : State) (m : Msg) : State :=
  let p := s.pair m.src m.dst
  let back := s.pair m.dst m.src
  let m' := { m with seq := p.next.toNat, ack := if back.expect = 0 && back.next = 0 then none
                                                 else some (back.expect - 1).toNat }
  let s1 := s.setPair m.src m.dst { p with next := p.next + 1, replay := p.replay ++ [m'] }
  { s1.countFlits m.src m.dst m.pid (if m.data.isEmpty then 1 else 3) with net := s1.net ++ [m'] }

/-- Release the messages of a pair that an acknowledgement covers. -/
def State.release (s : State) (src dst : Nat) (ackseq : Nat) : State :=
  let p := s.pair src dst
  s.setPair src dst { p with replay := p.replay.filter (fun m => !seqLe (BitVec.ofNat 16 m.seq) (BitVec.ofNat 16 ackseq)),
                             timeouts := 0 }

/-- Take the first message of the net that passes; the destination interface expects the next SEQ after it, and its ACKSEQ
releases what it covers (10 R274). -/
def State.takeMsg (s : State) (f : Msg → Bool) : Option (Msg × State) :=
  match s.net.find? f with
  | none => none
  | some m =>
    let s1 := { s with net := s.net.erase m }
    let p := s1.pair m.src m.dst
    let n := BitVec.ofNat 16 (m.seq + 1)
    let s2 := s1.setPair m.src m.dst { p with expect := if seqLe p.expect n then n else p.expect }
    match m.ack with
    | some a => some (m, s2.release m.dst m.src a)
    | none => some (m, s2)

/-- Count resends or mismatches; interrupt 1,090 when a count reaches 0x1000 (10 FBCNT). -/
def State.countFab (s : State) (f : Field) (n : Nat) : State :=
  let a := s.fld .fbcnt f
  let t := s.bump .fbcnt f n
  if a < 0x1000 && 0x1000 ≤ t.fld .fbcnt f then t.raiseId 1090 else t

/-- The message code of a header (08 Table 4, 10 Table 2). -/
def MsgKind.code : MsgKind → Nat
  | .rds => 0x01 | .rdx => 0x02 | .upg => 0x03 | .wbd => 0x04 | .evc => 0x05 | .iord => 0x06 | .iowr => 0x07 | .snps => 0x08
  | .snpi => 0x09 | .snpx => 0x0A | .data => 0x0B | .ack => 0x0C | .ackEvicted => 0x0D | .retry => 0x0E | .poison => 0x0F
  | .absent => 0x10 | .drd => 0x20 | .dwr => 0x21 | .drsp => 0x22

/-- Whether a message code is one of those sent (10 Table 2). -/
def codeUsed (n : Nat) : Bool := (1 ≤ n && n ≤ 0x10) || (0x20 ≤ n && n ≤ 0x26)

/-- A value of `n` bits with its complement above it. -/
def withNot (n v : Nat) : Nat := v % 2 ^ n + (2 ^ n - 1 - v % 2 ^ n) * 2 ^ n

/-- Bits [97:0] of the header of a message about a line: the four fields that carry a complement (10 Table 2). -/
def Msg.header (m : Msg) : BitVec 98 :=
  BitVec.ofNat 98 (withNot 6 m.kind.code + withNot 1 (if m.world then 1 else 0) * 2 ^ 12 + withNot 8 m.pid * 2 ^ 14 + withNot 34 m.addr * 2 ^ 30)

/-- Whether the four pairs of a header as received match (10 R273). -/
def pairsHold (h : BitVec 98) : Bool :=
  h.extractLsb' 0 6 == ~~~ (h.extractLsb' 6 6) && h.extractLsb' 12 1 == ~~~ (h.extractLsb' 13 1)
    && h.extractLsb' 14 8 == ~~~ (h.extractLsb' 22 8) && h.extractLsb' 30 34 == ~~~ (h.extractLsb' 64 34)

/-- The destination interface discards a message whose pairs mismatch: no part of it is delivered, and E2ENak asks for the SEQ expected (10
R273). A message already in its buffer is past this check. -/
def State.mismatch (s : State) (m : Msg) : State :=
  let p := s.pair m.src m.dst
  if !seqLe p.expect (BitVec.ofNat 16 m.seq) then s
  else
    let t := { s with net := s.net.erase m }.setPair m.src m.dst { p with nak := some p.expect }
    (t.countFab Fld.fbcntCmperr 1).logEvent ((if s.planeNow m.src m.dst then 0x640 else 0x600) + m.dst) clsRecovered 0 0

/-! ### The address map (01 R12-R17) -/

/-- What a physical address selects. -/
inductive Target where
  | main (line : Nat)
  | group (g : Nat)
  | cluster (c : Nat)
  | home (h : Nat)
  | trustWin
  | global
  | remote (d : Nat)
  | unmapped
deriving DecidableEq, Repr

def State.target (s : State) (pa : Nat) : Target :=
  if pa < 0x80000000 then (if s.isSecond (pa / 64) then .unmapped else .main (pa / 64))
  else if 0x0800000000 ≤ pa && pa < 0x0820000000 then .group ((pa - 0x0800000000) / 0x1000000)
  else if 0x0900000000 ≤ pa && pa < 0x0901000000 then .cluster ((pa - 0x0900000000) / 0x100000)
  else if 0x0A00000000 ≤ pa && pa < 0x0A00800000 then .home ((pa - 0x0A00000000) / 0x100000)
  else if 0x0B00000000 ≤ pa && pa < 0x0B00100000 then .trustWin
  else if 0x0C00000000 ≤ pa && pa < 0x0C00200000 then .global
  else if 0x1000000000 ≤ pa && pa < 0x9000000000 then .remote ((pa - 0x1000000000) / 0x1000000000)
  else .unmapped

/-- What an address selects for a requester: PID 255 alone reaches a second copy, at its home (09 R260); to every other a second copy is
unmapped (01 R15). -/
def State.targetFor (s : State) (pid pa : Nat) : Target :=
  if pid = 255 && pa < 0x80000000 then .main (pa / 64) else s.target pa

/-- The router of a target; a remote window leaves by trunk group 31 (22 R533). -/
def Target.router : Target → Nat
  | .main line => homeRouter (homeOf line)
  | .group g => groupRouter g
  | .cluster c => clusterRouter c
  | .home h => homeRouter h
  | .trustWin => trustRouter
  | .global => globalRouter
  | .remote _ => groupRouter 31
  | .unmapped => 63

/-- Whether a message can cross the fabric: a plane is powered (01 Table 1), and one is in service (16 R425). -/
def State.fabricUp (s : State) : Bool := !s.lko.causes.contains 4 && (s.powered 56 || s.powered 57)

/-- Whether a target answers: its block is powered, out of reset and not dead (08 R246), and the fabric carries messages.
A remote window answers when slot d is another's and present, and this module is not isolated (22 R529, R533). -/
def State.reachable (s : State) : Target → Bool
  | .unmapped => false
  | .remote d => s.inService (groupRouter 31) && s.fabricUp && d != s.otp.slot
    && s.bitIn .vnstat Fld.vnstatPresent d && s.fld .vnstat Fld.vnstatRole != 3
  | t => s.inService t.router && s.fabricUp

/-- What a remote window reaches of its target: main memory, the mailbox pool, MSGIRQ (22 R533). -/
def remoteOffset (x : Nat) : Bool :=
  x < 0x80000000 || (0x0C00100000 ≤ x && x < 0x0C00140000) || (List.range 16).any (fun c => x / 8 * 8 == (Reg.msgirq c).addr)

/-- Whether an address answers: as its target, but doorbell entries are kept in the mailbox logic and answer while their cluster
does not (14 R375). -/
def State.answers (s : State) (pa : Nat) : Bool :=
  match s.target pa with
  | .cluster _ => if pa % 0x100000 / 0x10000 = 0xA then s.fabricUp else s.reachable (s.target pa)
  | .remote d => s.reachable (.remote d) && remoteOffset (pa % 0x1000000000)
  | t => s.reachable t

/-- Whether a target is a Device or Remote one. -/
def Target.isDevice : Target → Bool
  | .main _ => false
  | .unmapped => false
  | _ => true

/-- Whether the fabric answers an access with Absent itself and writes its entry: an unmapped address, or an unmapped offset of a
block (01 R13). A second copy is no such address to PID 255. -/
def State.isUnmapped (s : State) (pid pa : Nat) : Bool := s.targetFor pid pa == .unmapped || (0x80000000 ≤ pa && !s.mapped pa)

/-- The requester of a message, as R13 names it in the entry of an unmapped address. -/
def State.logUnmapped (s : State) (unit pid : Nat) (world : Bool) (pa : Nat) : State :=
  s.log unit clsContained pid world pa 0

end Sys2Proof.Machine
end

