-- ==== Sys2Proof/Machine/Verdict.lean ====
section
/-! DEFINITION. Firebreak checks (15 R394-R398). Unit u: 0-7 the memory units, 8 + gg the group units. -/
namespace Sys2Proof.Machine

/-- The reading of a unit's tables: the active ones, or those in force before a switch. -/
def State.tableOf (s : State) (ov : List (Nat × W64)) (r : Reg) : W64 :=
  match ov.find? (fun e => e.1 == r.addr) with
  | some e => e.2
  | none => s.rd r

/-- The lowest region in use that holds an address (15 R394). -/
def State.regionFor (s : State) (ov : List (Nat × W64)) (u pa : Nat) : Option Nat :=
  (List.range 64).find? (fun r =>
    let lo := s.tableOf ov (.fwrlo u r)
    let hi := s.tableOf ov (.fwrhi u r)
    bitOf lo 31 && bitsOf lo 27 0 ≤ pa / 4096 && pa / 4096 ≤ bitsOf hi 27 0)

/-- Whether partition `p` belongs to class `c`. -/
def State.member (s : State) (ov : List (Nat × W64)) (u p c : Nat) : Bool :=
  if c < 32 then bitOf (s.tableOf ov (.fwclo u p)) c else bitOf (s.tableOf ov (.fwchi u p)) (c - 32)

/-- The check of 15 R394 against one set of tables. -/
def State.tablesAllow (s : State) (ov : List (Nat × W64)) (u pid : Nat) (world read write : Bool) (pa : Nat) : Bool :=
  if pid = 255 then world
  else match s.regionFor ov u pa with
    | none => false
    | some r =>
      let a := s.tableOf ov (.fwratt u r)
      !(bitOf a 11 && !world) && s.member ov u pid (bitsOf a 5 0)
        && (!read || bitOf a 9) && (!write || bitOf a 10)

/-- Whether a delta's bytes make a line read-only: from STAGE until the phase is IDLE (02 R42). -/
def State.layProtects (s : State) (pa : Nat) : Bool :=
  s.fld .laystat Fld.laystatPhase != 0 && s.lay.src / 64 ≤ pa / 64 && pa / 64 * 64 < s.lay.src + s.lay.len

/-- The check of a unit: for 2 µs after a switch a request that either tables permit passes (15 R399); in main memory the bytes of a
delta in progress are written by no other than PID 255 (02 R42). -/
def State.unitAllows (s : State) (u pid : Nat) (world read write : Bool) (pa : Nat) : Bool :=
  !(write && pid != 255 && u < 8 && s.layProtects pa)
  && (s.tablesAllow [] u pid world read write pa
    || (match KV.get ([], 0) s.fw.old u with
        | (ov, t) => !ov.isEmpty && s.mtime.toNat < t.toNat + 2000 && s.tablesAllow ov u pid world read write pa))

/-- The unit that checks an address: the memory unit of a line's home, or a group's unit; others have none. -/
def Target.unit : Target → Option Nat
  | .main line => some (homeOf line)
  | .group g => some (8 + g)
  | _ => none

/-- The unit ID of a Firebreak unit's entries (15 R398). -/
def fwUnitId (u : Nat) : Nat := if u < 8 then 0x500 + u else 0x300 + (u - 8) * 8 + 7

/-- Record a denial: FWDREC when it holds none, and at most one entry per microsecond, the rest counted into the next
(15 R398). -/
def State.recordDenial (s : State) (u pid : Nat) (world write : Bool) (pa : Nat) : State :=
  let r := Reg.fwdrec u
  let v : Nat := 2 ^ 63 + (if write then 2 ^ 62 else 0) + (if world then 2 ^ 61 else 0) + pid % 256 * 2 ^ 52 + pa % 2 ^ 40
  let s1 := if s.flag r Fld.fwdrecValid then s else s.wr r (BitVec.ofNat 64 v)
  let last := KV.get (0, 0) s1.fw.lastLog u
  if last.1 != 0 && s.mtime.toNat + 1 < last.1.toNat + 1000 then
    { s1 with fw := { s1.fw with lastLog := KV.set (0, 0) s1.fw.lastLog u (last.1, last.2 + 1) } }
  else
    ({ s1 with fw := { s1.fw with lastLog := KV.set (0, 0) s1.fw.lastLog u (s.mtime + 1, 0) } }).elogEntry
      (elogBytes s.mtime (fwUnitId u) clsContained (satAdd 255 last.2 0) pid world pa 0)

/-- Whether the verdict copy of a cluster or group permits a data access to main memory (15 R396). The copy holds what the
memory units hold. -/
def State.copyAllows (s : State) (pid : Nat) (world read write : Bool) (line : Nat) : Bool :=
  s.unitAllows (homeOf line) pid world read write (line * 64)

end Sys2Proof.Machine
end

