-- ==== Sys2Proof/Machine/Gate.lean ====
section
/-! DEFINITION. The check of a group's Firebreak unit on accesses to the group's blocks (15 R394, R397). -/
namespace Sys2Proof.Machine

/-- Whether an address holds the registers of a group's Firebreak unit, which only their own rule checks (15 R400). -/
def inGroupUnit (a : Nat) : Bool :=
  let o := a % 0x1000000
  0x8000 ≤ o && o < 0xA020

/-- Whether the unit of the group that holds an address permits an access; elsewhere there is none. A group that is off answers
Absent by itself. -/
def State.groupPasses (s : State) (r : Req) (a : Nat) (write : Bool) : Bool :=
  match s.target a with
  | .group g => inGroupUnit a || !s.alive (16 + g) || s.unitAllows (8 + g) r.pid.toNat r.world (!write) write a
  | _ => true

/-- A denial by the unit of a group. -/
def State.groupDenied (s : State) (r : Req) (a : Nat) (write : Bool) : State :=
  match s.target a with
  | .group g => s.recordDenial (8 + g) r.pid.toNat r.world write a
  | _ => s

/-- A write that its group's unit checks: one denied is answered with Absent and follows the lost-store path. -/
def State.gated (s : State) (r : Req) (a : Nat) (f : State → State) : State :=
  if s.groupPasses r a true then f s else (s.groupDenied r a true).loseStore r a

end Sys2Proof.Machine
end

