-- ==== Sys2Proof/Machine/ArrayTest.lean ====
section
/-! DEFINITION. What an array test found, and soft repair (19 R480-R484). -/
namespace Sys2Proof.Machine

/-- The failing bits that a test reports of an element, by its array codes. -/
def bitsOfUnit (unit : Nat) (codes : List Nat) (found : List FailBit) : List FailBit :=
  found.filter (fun b => b.unit.toNat == unit && codes.contains b.array.toNat)

/-- The array codes that the Carousel tests in a scope (19 Table 3). -/
def scopeArrays (n : Nat) : List Nat :=
  if n < 16 then [1, 2, 3, 4, 5] else if n < 48 then [6, 7] else if n < 50 then [8] else []

/-- The spare rows of an array, or of a bank of an LMEM (19 Table 3). -/
def spareRows (array : Nat) : Nat :=
  if array ≤ 4 then 2 else if array ≤ 7 then 4 else if array = 8 then 64 else if array ≤ 0xB then 16 else if array = 0xC then 4 else 8

/-- The row of a word of an array: a set of an L1, 512 bytes of an LMEM bank or store, 64 lines of a die, a set of one way (19 Table 3; the
word indexes of sets and ways as in log entry 174). An LMEM's banks follow each other by word (07 R186). -/
def rowOfWord (array addr : Nat) : Nat :=
  if array = 5 then addr % 4 * 32 + addr / 4 / 64
  else if array = 1 || array = 3 then addr / 64
  else if array = 2 || array = 4 then addr / 8
  else if array = 8 then addr / 512
  else if array = 9 || array = 0xC then addr / 8
  else if array = 0xA || array = 0xB then addr
  else addr / 64

/-- The spare rows of the array, or bank, of a word that remaps have taken. -/
def State.rowsTaken (s : State) (unit array addr : Nat) : Nat :=
  (s.test.inForce.filter (fun r => (r.action == 1 || r.action == 3) && r.unit == unit && r.array == array
    && (array != 5 || r.addr % 4 == addr % 4))).length

/-- The policy of an array code in CALPOL: 0 retire, 1 soft, 2 soft and fuse (19 R482). -/
def State.policy (s : State) (array : Nat) : Nat := s.fld .calpol Fld.calpolPol / 4 ^ (array - 1) % 4

/-- One result entry of a failing bit. -/
def State.bitEntry (s : State) (b : FailBit) (action count : Nat) : State :=
  s.calEntry b.unit.toNat b.array.toNat b.addr.toNat b.bit.toNat b.step.toNat action count

/-- The first 16 failing bits of an element are result entries, with the count of all (19 R480). -/
def State.bitEntries (s : State) (bs : List FailBit) : State := (bs.take 16).foldl (fun t b => t.bitEntry b 0 bs.length) s

/-- The failing rows of an element are remapped to free spare rows where the policy says so; the bits whose rows are not (19 R482, R483). -/
def State.remapRows (s : State) (count : Nat) : List FailBit → List (Nat × Nat) → State × List FailBit
  | [], _ => (s, [])
  | b :: bs, done =>
    let a := b.array.toNat
    let row := (a, rowOfWord a b.addr.toNat)
    if done.contains row then s.remapRows count bs done
    else if s.policy a = 0 || spareRows a ≤ s.rowsTaken b.unit.toNat a b.addr.toNat then
      let r := s.remapRows count bs (row :: done)
      (r.1, b :: r.2)
    else
      let action := if s.policy a = 2 then 3 else 1
      ((s.bitEntry b action count).record ⟨b.unit.toNat, a, b.addr.toNat, action, action == 3⟩).remapRows count bs (row :: done)

/-! ### Start-up (19 R481) -/

/-- The elements that start-up tests, with their array codes: L2s, directories, I/O caches with position stores, the Trust Core's SRAM. -/
def startElements : List (Nat × List Nat) :=
  (List.range 16).map (fun c => (0x10F + c * 16, [9, 0xA])) ++ (List.range 8).map (fun h => (0x500 + h, [0xB]))
    ++ (List.range 32).map (fun g => (0x307 + g * 8, [0xC, 0xD])) ++ [(0x700, [0xE])]

/-- The tests of the unspared arrays: what one finds is recorded, its rows remapped, and what no row repairs is retired: a way, a position
store, the Trust Core's SRAM. -/
def State.startTests (s : State) (found : List FailBit) : State :=
  if found.isEmpty then s
  else startElements.foldl (fun t e =>
    let bs := bitsOfUnit e.1 e.2 found
    let r := (t.bitEntries bs).remapRows bs.length bs []
    r.2.foldl (fun u b => (u.bitEntry b 2 bs.length).record ⟨e.1, b.array.toNat, b.addr.toNat, 2, false⟩) r.1) s

/-- The remap or retirement of a fuse word (19 R485). -/
def repairOfWord (w : Nat) : Repair := ⟨w % 2 ^ 12, w / 2 ^ 12 % 16, w / 2 ^ 18, w / 2 ^ 16 % 4, false⟩

end Sys2Proof.Machine
end

