-- ==== Sys2Proof/Machine/LayDone.lean ====
section
/-! DEFINITION. The phases of a delta and the end of its switches (02 R43-R45). -/
namespace Sys2Proof.Machine

/-- LAYSTAT.PHASE values (02 Table 6). -/
def phIdle : Nat := 0
def phVerifying : Nat := 1
def phStaged : Nat := 2
def phArmed : Nat := 3
def phActivating : Nat := 4

def State.layPhase (s : State) : Nat := s.fld .laystat Fld.laystatPhase

/-- Whether a delta that carries a section of a type and group number is STAGED, ARMED or ACTIVATING. -/
def State.layCarries (s : State) (type inst : Nat) : Bool :=
  (s.layPhase == phStaged || s.layPhase == phArmed || s.layPhase == phActivating) &&
  match s.lay.delta with
  | some d => d.sects.any (fun x => x.type == type && x.inst == inst)
  | none => false

/-- Set bits of LAYINT and raise its ID at its cluster (02 LAYINT, 06 R181). -/
def State.layEvent (s : State) (f : Field) : State :=
  let s1 := s.putFlag .layint f true
  s1.raiseAt (s1.fld .layint Fld.layintCl) (s1.fld .layint Fld.layintIrq)

/-- End a command of the loader with a code (02 R51): LAYSTAT, an entry for every code other than OK. -/
def State.layCode (s : State) (code sect : Nat) : State :=
  let s1 := (s.putFld .laystat Fld.laystatCode code).putFld .laystat Fld.laystatSect sect
  if code = 0 then s1 else s1.log 0x700 clsContained 255 false 0 code

/-- Set LAYINT.ERR for a code other than OK and PARTIAL. -/
def State.layErr (s : State) (code sect : Nat) : State :=
  let s1 := s.layCode code sect
  if code = 0 || code = 0x17 then s1 else s1.layEvent Fld.layintErr

/-- The sections of a delta that have not switched: when none is left, the delta is active: ACTIVATED, and IDLE, with PARTIAL
when a section kept old programs (02 R45). Its identity and counter become the active ones (02 R35). -/
def State.layCheck (s : State) : State :=
  match s.lay.delta with
  | none => s
  | some d =>
    if s.layPhase ≠ phActivating || !s.lay.todo.isEmpty then s
    else
      let code := if s.lay.partialAt.isSome then 0x17 else 0
      let s1 := s.layCode code (s.lay.partialAt.getD 0xFFFF)
      let s2 := ((s1.putFld .laystat Fld.laystatPhase phIdle).putFld .layid Fld.layidActid d.id).putFld .laycnt Fld.laycntActive d.counter
      let keep := s2.lay.active.filter (fun a => !d.sects.any (fun x => x.type == a.type && x.inst == a.inst))
      let s3 := { s2 with lay := { s2.lay with delta := none, todo := [], partialAt := none, active := keep ++ d.sects } }
      s3.layEvent Fld.layintActivated

/-- One switch of an armed delta is made: a group's section is named by its group number. -/
def State.switched (s : State) (type inst : Nat) : State :=
  { s with lay := { s.lay with todo := s.lay.todo.filter (fun t => !(t.1 == type && t.2 == inst)) } }.layCheck

/-- A group's remaining Jugglers keep their old programs: the section stays PARTIAL (02 R45). -/
def State.switchPartial (s : State) (type inst : Nat) : State :=
  let idx := match s.lay.delta with
    | some d => (d.sects.find? (fun x => x.type == type && x.inst == inst)).map (·.idx)
    | none => none
  { s with lay := { s.lay with partialAt := match s.lay.partialAt with | some i => some i | none => idx } }.switched type inst

end Sys2Proof.Machine
end

