-- ==== Sys2Proof/Machine/ImageParse.lean ====
section
/-! DEFINITION. The structure of a Layout image (02 R23-R31, R33, R38): header, signature block, section table, records, and the status of the
first check that fails (02 Table 11; 0 = none). -/
namespace Sys2Proof.Machine

/-- A little-endian field of an image. -/
def imgU (b : List Byte) (o n : Nat) : Nat := ofBytes ((b.drop o).take n)

/-- The bytes of an image from an offset. -/
def imgSlice (b : List Byte) (o n : Nat) : List Byte := (b.drop o).take n

/-- Whether a pair's complement matches. -/
def imgPair (b : List Byte) (o : Nat) : Bool := Nat.xor (imgU b o 4) (imgU b (o + 4) 4) == 0xFFFFFFFF

/-! ### Header (02 R24, R25, R35) -/

/-- Steps 1 to 5 of R38: `floor` is the lowest counter accepted, `slot` the vehicle slot provisioned. -/
def headerCode (b : List Byte) (delta : Bool) (floor slot : Nat) : Nat :=
  let n := imgU b 0x0C 2
  let cls := imgU b 0x20 4
  let kind := imgU b 0x10 4
  let veh := cls % 256
  let base := imgU b 0x2C 4
  if imgU b 0 4 ≠ 0x594C5A56 then 0x02
  else if imgU b 4 2 ≠ 0x0200 then 0x03
  else if imgU b 6 2 ≠ 0x40 then 0x18
  else if crc32c (imgSlice b 0 0x38) ≠ imgU b 0x38 4 then 0x05
  else if 0x04000000 < imgU b 8 4 || n = 0 || 44 < n then 0x04
  else if imgU b 0x30 4 ≠ 0x40 || imgU b 0x34 4 ≠ 0x40 + n * 64 || imgU b 0x0E 2 ≠ 0 || imgU b 0x3C 4 ≠ 0 then 0x18
  else if !imgPair b 0x10 || !imgPair b 0x18 || !imgPair b 0x20 then 0x0C
  else if (kind ≠ 1 && kind ≠ 2) || 1023 < imgU b 0x18 4 || (7 < veh && veh ≠ 0xFF) then 0x0C
  else if cls / 256 ≠ 0x0512B0 || (veh ≠ 0xFF && veh ≠ slot) then 0x06
  else if imgU b 0x28 4 = 0 || (if delta then base = 0 else base ≠ 0) || kind ≠ (if delta then 2 else 1) then 0x18
  else if imgU b 0x18 4 < floor then 0x07
  else 0

/-- Step 6: the signature block, then both signatures (02 R33, R34). -/
def State.signatureCode (s : State) (b : List Byte) : Nat :=
  let o := 0x40 + imgU b 0x0C 2 * 64
  let key := imgU b (o + 2) 2
  let msg := imgSlice b 0 o
  if imgU b o 2 ≠ 1 || imgU b (o + 4) 4 ≠ 3416 || 3 < key || imgU b (o + 3413) 3 ≠ 0 then 0x18
  else match s.signerKey key with
    | none => 0x08
    | some k =>
      if !Config.ecdsaOk k.1 msg (imgSlice b (o + 8) 96) then 0x08
      else if !Config.mldsaOk k.2 msg (imgSlice b (o + 104) 3309) then 0x09
      else 0

/-! ### Section table (02 R26, R27) -/

/-- An entry of the section table: type, group number, flags, body offset and length. -/
structure Entry where
  type : Nat
  inst : Nat
  flags : Nat
  off : Nat
  len : Nat
  crc : Nat
  digest : List Byte
deriving DecidableEq, Repr

/-- Entry `i`. -/
def entryAt (b : List Byte) (i : Nat) : Entry :=
  let o := 0x40 + i * 64
  ⟨imgU b o 1, imgU b (o + 1) 1, imgU b (o + 2) 2, imgU b (o + 4) 4, imgU b (o + 8) 4, imgU b (o + 12) 4, imgSlice b (o + 16) 48⟩

/-- The entries of an image. -/
def entriesOf (b : List Byte) : List Entry := (List.range (imgU b 0x0C 2)).map (entryAt b)

/-- The types that permit LIVE (02 Table 3). -/
def liveType (t : Nat) : Bool := t == 1 || t == 3 || t == 4 || t == 5 || t == 8 || (10 ≤ t && t ≤ 12)

/-- One entry by itself: type, group number, flags, alignment, place after the signature block and within the image. -/
def entryOk (b : List Byte) (e : Entry) : Bool :=
  let first := 0x40 + imgU b 0x0C 2 * 64 + 3416
  1 ≤ e.type && e.type ≤ 12 && (if e.type = 4 then e.inst < 32 else e.inst = 0) && e.flags < 4
    && (e.flags % 2 = 0 || liveType e.type) && (e.flags < 2 || e.type = 4)
    && e.off % 8 = 0 && e.len % 8 = 0 && 8 ≤ e.len && first ≤ e.off && e.off + e.len ≤ imgU b 8 4

/-- Whether two entries name the same section, or their bodies overlap. -/
def Entry.meets (x y : Entry) : Bool := (x.type == y.type && x.inst == y.inst) || (x.off < y.off + y.len && y.off < x.off + x.len)

/-- The first entry that fails by itself or with an earlier one. -/
def badEntry (b : List Byte) (es : List Entry) : Option Nat :=
  (List.range es.length).find? (fun i =>
    match es[i]? with
    | some e => !entryOk b e || (es.take i).any (fun x => x.meets e)
    | none => false)

/-- Whether a full image has 43 or 44 sections and every required one among them (02 R27, R38 step 7). DEDUCED: Table 3 lists 42 required
sections and CALIB, so an image that meets both rules carries CALIB (log entry 157). -/
def complete (es : List Entry) : Bool :=
  (es.length == 43 || es.length == 44) && (List.range 11).all (fun t => if t = 3 then (List.range 32).all (fun g => es.any (fun e => e.type == 4 && e.inst == g))
    else es.any (fun e => e.type == t + 1))

/-- Step 7: the status and the section it names. -/
def tableCode (b : List Byte) (delta : Bool) : Nat × Nat :=
  let es := entriesOf b
  match badEntry b es with
  | some i => (0x0D, i)
  | none =>
    if (!delta && !complete es) || es.foldl (fun m e => max m (e.off + e.len)) 0 ≠ imgU b 8 4 then (0x0D, 0xFFFF) else (0, 0xFFFF)

/-- The image that its bytes state. -/
def imageOf (b : List Byte) : Image :=
  { delta := imgU b 0x10 4 == 2, counter := imgU b 0x18 4, id := imgU b 0x28 4, base := imgU b 0x2C 4, length := imgU b 8 4
    sects := (List.range (imgU b 0x0C 2)).map (fun i =>
      let e := entryAt b i
      ⟨e.type, e.inst, i, e.flags / 2 % 2 == 1, e.flags % 2 == 1, imgSlice b e.off e.len⟩) }

/-- Body CRC, then body digest. -/
def bodyCode (e : Entry) (body : List Byte) : Nat :=
  if crc32c body ≠ e.crc then 0x0A
  else if ofBytes e.digest ≠ (Config.sha384 body).toNat then 0x0B
  else 0

/-- The order in which the sections of an image are applied (02 R39). -/
def applyOrder (ss : List Sect) : List Sect :=
  let of := fun (t : Nat) => ss.filter (fun x => x.type == t)
  let groups := fun (early : Bool) => (List.range 32).foldl (fun l g => l ++ ss.filter (fun x => x.type == 4 && x.inst == g && x.early == early)) []
  of 9 ++ of 7 ++ of 6 ++ groups true ++ of 2 ++ of 3 ++ of 10 ++ of 8 ++ of 1 ++ groups false ++ of 5 ++ of 12 ++ of 11

/-! ### Records (02 R28, R29) -/

/-- A record. -/
inductive Rec where
  | write (a : Nat) (v : W64)
  | kwrite (a v c : Nat)
  | fill (a : Nat) (data : List Byte)
  | claim (cls owner first count : Nat)
  | part (p : Part)
deriving DecidableEq, Repr

/-- The record at the start of bytes, with its length; none when it fails R29. -/
def recAt (b : List Byte) : Option (Rec × Nat) :=
  let len := imgU b 4 4
  let a := imgU b 8 8
  let aOk := a < 2 ^ 40 && a % 8 = 0
  if imgU b 2 2 ≠ 0 || b.length < len || len % 8 ≠ 0 then none
  else match imgU b 0 2 with
    | 1 => if len = 24 && aOk then some (.write a (BitVec.ofNat 64 (imgU b 16 8)), 24) else none
    | 2 => if len = 24 && aOk then some (.kwrite a (imgU b 16 4) (imgU b 20 4), 24) else none
    | 3 =>
      let n := imgU b 16 4
      let pad := (n + 7) / 8 * 8
      if len = 24 + pad && imgU b 20 4 = 0 && aOk && (imgSlice b (24 + n) (pad - n)).all (fun x => x == 0) then
        some (.fill a (imgSlice b 24 n), len)
      else none
    | 4 => if len = 24 && imgU b 9 1 = 0 && imgU b 20 4 = 0 && 1 ≤ imgU b 16 4 then
        some (.claim (imgU b 8 1) (imgU b 10 2) (imgU b 12 4) (imgU b 16 4), 24) else none
    | 5 => if len = 48 && imgU b 12 4 = 0 && imgU b 40 8 = 0 && imgU b 9 1 ≤ 1 && 1 ≤ imgU b 8 1 && imgU b 8 1 ≤ 254 then
        some (.part ⟨imgU b 8 1, imgU b 9 1 == 1, imgU b 10 2, BitVec.ofNat 128 (imgU b 16 16), BitVec.ofNat 64 (imgU b 32 8)⟩, 48) else none
    | _ => none

/-- The records of a body that has passed its checks. -/
def recsOf : Nat → List Byte → List Rec
  | 0, _ => []
  | n + 1, b =>
    match recAt b with
    | some (x, len) => x :: recsOf n (b.drop (max len 8))
    | none => []

/-- The records of a section. -/
def Sect.recs (x : Sect) : List Rec := recsOf (x.body.length / 8 + 1) x.body

/-- The address of a record. -/
def Rec.addr : Rec → Option Nat
  | .write a _ => some a
  | .kwrite a _ _ => some a
  | .fill a _ => some a
  | _ => none

/-- The writes that a record makes: address, count of bytes, value. -/
def Rec.words : Rec → List (Nat × Nat × W64)
  | .write a v => [(a, 8, v)]
  | .kwrite a v c => [(a, 8, BitVec.ofNat 64 (v + c * 2 ^ 32))]
  | .fill a d => (List.range ((d.length + 7) / 8)).map (fun i => (a + i * 8, min 8 (d.length - i * 8), BitVec.ofNat 64 (imgU d (i * 8) 8)))
  | _ => []

/-- The writes of a list of records. -/
def recWords (rs : List Rec) : List (Nat × Nat × W64) := rs.flatMap Rec.words

/-! ### Permitted targets (02 R31) -/

/-- Whether bytes [a, a + n) meet a block of `size` bytes at `b`. -/
def touches (a n b size : Nat) : Bool := a < b + size && b < a + n

/-- The Firebreak registers of home h and of group g. -/
def homeFw (h : Nat) : Nat := 0x0A00010000 + h * 0x100000
def groupFw (g : Nat) : Nat := 0x0800008000 + g * 0x1000000

/-- Whether bytes lie in the Firebreak registers of one group. -/
def inGroupFw (a n : Nat) : Bool := (List.range 32).any (fun g => within a n (groupFw g) 0x3000)

/-- The targets of the bytes [a, a + n) of a section's WRITE, KWRITE and FILL records; a FILL of no bytes is checked as its first. -/
def sectTarget (type inst a k : Nat) : Bool :=
  let n := max 1 k
  let o := a % 0x1000000
  match type with
  | 1 => within a n 0x0900000000 0x1000000
  | 2 => within a n 0x0A00000000 0x800000 && !(List.range 8).any (fun h => touches a n (homeFw h) 0x3000)
  | 4 => within a n (0x0800000000 + inst * 0x1000000) 0x1000000 && !touches o n 0x100000 0x100000 && !touches a n (groupFw inst) 0x3000
  | 5 => within a n 0x0800000000 0x20000000 && 0x100000 ≤ o && o + n ≤ 0x200000
  | 6 => within a n 0x0C00010000 0x10000
  | 7 => within a n 0x0C00020000 0x10000
  | 8 => within a n 0x0C00040000 0x10000
  | 9 => (List.range 8).any (fun h => within a n (homeFw h) 0x3000) || inGroupFw a n || within a n 0x0C00018000 (61 * 8) || within a n 0x0C00028000 (60 * 8)
  | 10 => within a n 0x0C00100000 0x40000 || (within a n 0x0800000000 0x20000000 && within o n 0x4000 0x6E0)
  | 11 => within a n 0 0x80000000
  | 12 => within a n 0x0C00080000 0x10000
  | _ => false

/-- The number of resources of a class (02 Table 9). -/
def classSize : Nat → Nat
  | 1 => 512
  | 2 => 2048
  | 3 => 2048
  | 4 => 2000
  | _ => 0

/-- The classes a section may claim. -/
def sectClaims (type cls : Nat) : Bool := (type == 3 && cls == 4) || (type == 4 && 1 ≤ cls && cls ≤ 3)

end Sys2Proof.Machine
end

