-- ==== Sys2Proof/Machine/Cache.lean ====
section
/-! DEFINITION. The caches (07): L1I and L1D of each logical core, the inclusive L2 of each cluster, the I/O cache of each
group; replacement, fills, evictions, and the requests a cache sends to a home (08 R220-R227). -/
namespace Sys2Proof.Machine

/-! ### Arrays. A cache is numbered: L1I of core l: l; L1D: 128 + l; L2 of cluster c: 256 + c; I/O cache of group g: 272 + g. -/

def cacheNo : CacheId → Nat
  | .l1i l => l.val
  | .l1d l => 128 + l.val
  | .l2 c => 256 + c.val
  | .io g => 272 + g.val

def cacheSets (i : Nat) : Nat := if i < 256 then 64 else if i < 272 then 2048 else 256
def cacheWays (i : Nat) : Nat := if i < 256 then 8 else if i < 272 then 16 else 4
def lineKey (i set way : Nat) : Nat := i * 65536 + set * 16 + way

def State.lineAt (s : State) (i set way : Nat) : Line := KV.get Line.none s.lines (lineKey i set way)

def State.putLine (s : State) (i set way : Nat) (l : Line) : State :=
  { s with lines := KV.set Line.none s.lines (lineKey i set way) l }

/-- The way of a cache that holds a line. -/
def State.findWay (s : State) (i line : Nat) : Option Nat :=
  (List.range (cacheWays i)).find? (fun w =>
    let l := s.lineAt i (line % cacheSets i) w
    l.st != .i && l.line == line)

/-- The line of a cache, when it holds it. -/
def State.findLine (s : State) (i line : Nat) : Option Line :=
  (s.findWay i line).map (fun w => s.lineAt i (line % cacheSets i) w)

/-- Change the line of a cache, where it is held. -/
def State.editLine (s : State) (i line : Nat) (f : Line → Line) : State :=
  match s.findWay i line with
  | some w => s.putLine i (line % cacheSets i) w (f (s.lineAt i (line % cacheSets i) w))
  | none => s

/-- The logical cores a cluster hosts. -/
def State.hosted (s : State) (c : Nat) : List Nat := lcores.filter (fun l => s.hosts c l)

/-- The window index of a logical core. -/
def State.windowOf (s : State) (l : Nat) : Nat :=
  match (s.lc l).place with
  | some p => p % 8
  | none => 0

/-- Whether a cache is on (07 R212, R213: with the L2 off every L1 acts as off). -/
def State.cacheOn (s : State) (i : Nat) : Bool :=
  if i < 256 then
    let l := i % 128
    let c := (s.lc l).cluster
    s.flag (.l2ctl c) Fld.l2ctlEn
      && s.flag (.l1ctl c (s.windowOf l)) (if i < 128 then Fld.l1ctlIen else Fld.l1ctlDen)
  else if i < 272 then s.flag (.l2ctl (i - 256)) Fld.l2ctlEn
  else true

/-- Whether a cache chooses victims by LFSR (07 R198). -/
def State.lfsrMode (s : State) (i : Nat) : Bool :=
  if i < 256 then
    let r := Reg.l1ctl (s.lc (i % 128)).cluster (s.windowOf (i % 128))
    s.fld r Fld.l1ctlRepmode == 1 || s.flag r Fld.l1ctlAgeerr
  else if i < 272 then s.fld (.l2ctl (i - 256)) Fld.l2ctlRepmode == 1 || s.flag (.l2ctl (i - 256)) Fld.l2ctlAgeerr
  else false

/-- One step of the 16-bit Fibonacci LFSR with taps 16, 14, 13 and 11 (07 R197). -/
def lfsrStep (v : BitVec 16) : BitVec 16 :=
  let b := v.getLsbD 0 != (v.getLsbD 2 != (v.getLsbD 3 != v.getLsbD 5))
  (v >>> 1) ||| (if b then 0x8000 else 0)

/-- The ways a fill may use (07 Replacement, 15 R401, 19 R482): unlocked, not retired, and in an L2 in the partition's mask and of its world. -/
def State.candidates (s : State) (i set pid : Nat) (world : Bool) : List Nat :=
  (List.range (cacheWays i)).filter (fun w =>
    !(s.lineAt i set w).locked && (i < 256 || !s.wayGone (if i < 272 then 0x10F + (i - 256) * 16 else 0x307 + (i - 272) * 8) w) &&
    (i < 256 || 272 ≤ i ||
      (s.bitIn (.l2way (i - 256) pid) Fld.l2wayMask w && s.bitIn (.clworld (i - 256)) Fld.clworldTways w == world)))

/-- The way a fill takes (07 R195-R197); none when the set has no candidate. A choice in LFSR mode uses the value before it advances (DESIGN
CHOICE, log entry 26). -/
def State.chooseWay (s : State) (i set : Nat) (cs : List Nat) : State × Option Nat :=
  match cs.find? (fun w => (s.lineAt i set w).st == .i) with
  | some w => (s, some w)
  | none =>
    if cs.isEmpty then (s, none)
    else if s.lfsrMode i then
      let v := KV.get 0xACE1 s.lfsr i
      ({ s with lfsr := KV.set 0xACE1 s.lfsr i (lfsrStep v) }, cs[v.toNat % cs.length]?)
    else
      let top := cs.foldl (fun m w => max m (s.lineAt i set w).age) 0
      let s1 := if top ≥ 3 then s else
        cs.foldl (fun t w => let l := t.lineAt i set w; t.putLine i set w { l with age := l.age + (3 - top) }) s
      (s1, cs.find? (fun w => (s1.lineAt i set w).age ≥ 3))

/-! ### Reservations (08 R245) -/

/-- Clear the reservations of a cluster's cores on a line, but for core `but`. -/
def State.clearResv (s : State) (c line : Nat) (but : Option Nat) : State :=
  (s.hosted c).foldl (fun t l =>
    let k := t.lc l
    if k.resv = some line && but != some l then t.setLc l { k with resv := none } else t) s

/-- Clear one core's reservation on a line. -/
def State.dropResv (s : State) (l line : Nat) : State :=
  let k := s.lc l
  if k.resv = some line then s.setLc l { k with resv := none } else s

/-! ### L1 copies under an L2 -/

/-- Merge the dirty L1D copies of a line into the L2 (07 R187); the copies stay, clean. -/
def State.mergeL1 (s : State) (c line : Nat) : State :=
  (s.hosted c).foldl (fun t l =>
    match t.findLine (128 + l) line with
    | some d =>
      if d.st = .m then
        (t.editLine (256 + c) line (fun u => { u with st := .m, data := d.data, poison := d.poison })).editLine (128 + l) line
          (fun u => { u with st := .e })
      else t
    | none => t) s

/-- Remove a line from one L1. -/
def State.dropL1 (s : State) (i line : Nat) : State :=
  match s.findWay i line with
  | some w =>
    let t := s.putLine i (line % cacheSets i) w Line.none
    if 128 ≤ i then t.dropResv (i - 128) line else t
  | none => s

/-- Invalidate every L1 copy of a line in a cluster, dirty data merged into the L2 first. -/
def State.backInval (s : State) (c line : Nat) : State :=
  (s.hosted c).foldl (fun t l => (t.dropL1 l line).dropL1 (128 + l) line) (s.mergeL1 c line)

/-- Invalidate every L1I copy of a line in a cluster. -/
def State.dropL1I (s : State) (c line : Nat) : State := (s.hosted c).foldl (fun t l => t.dropL1 l line) s

/-- Invalidate the L1D copies of the cluster's other cores, dirty data merged first. -/
def State.dropOthers (s : State) (c l line : Nat) : State :=
  (s.hosted c).foldl (fun t k => if k = l then t else t.dropL1 (128 + k) line) (s.mergeL1 c line)

/-- Set a status bit of SKINT and raise its ID at the cluster (06 R181). -/
def State.skint (s : State) (c : Nat) (f : Field) : State :=
  (s.putFlag (.skint c) f true).raiseAt c (s.fld (.skint c) Fld.skintIrq)

/-- The lock of a line that coherence removes lapses (07 R203). -/
def State.lapse (s : State) (c line : Nat) : State :=
  match s.findLine (256 + c) line with
  | some l => if l.locked then (s.skint c Fld.skintLost).logEvent (0x10F + c * 16) clsCorrected (line * 64) 0 else s
  | none => s

/-! ### Leaving lines (08 R220, R227) -/

/-- Send WbD or EvC for leaving lines of an agent at a home, at most 4 awaiting Ack. -/
def State.sendLeaving (s : State) (agent h : Nat) : State :=
  s.leaving.foldl (fun t e =>
    if e.agent = agent && homeOf e.line = h && !e.sent
        && (t.leaving.filter (fun x => x.agent == agent && homeOf x.line == h && x.sent)).length < 4 then
      let m := { Msg.of (if e.dirty then .wbd else .evc) (agentRouter agent) (homeRouter h) agent e.line with
        pid := e.pid, world := e.world, data := if e.dirty then e.data else [], poison := e.poison }
      { t with leaving := t.leaving.map (fun x => if x = e then { x with sent := true } else x) }.send m
    else t) s

/-- A line leaves a caching agent: MI, EI or SI until its Ack. -/
def State.leave (s : State) (agent line : Nat) (dirty : Bool) (data : List Byte) (poison : BitVec 8) (pid : Nat)
    (world : Bool) : State :=
  let e : Leaving := ⟨agent, line, dirty, data, poison, pid, world, false⟩
  let s1 := if agent < 16 && dirty then s.blockEvent (0x10F + agent * 16) 2 pid 1 else s
  State.sendLeaving { s1 with leaving := s1.leaving ++ [e] } agent (homeOf line)

/-- Take a line out of an L2 or I/O cache. Its WbD or EvC carries the PID and world of the fill that displaces it (DESIGN CHOICE: 08 R222
gives each message a PID and does not say whose an eviction's is; log entry 167). -/
def State.evict (s : State) (i line pid : Nat) (world : Bool) : State :=
  let c := i - 256
  let s1 := if i < 272 then (s.backInval c line).clearResv c line none else s
  match s1.findWay i line with
  | none => s1
  | some w =>
    let l := s1.lineAt i (line % cacheSets i) w
    (s1.putLine i (line % cacheSets i) w Line.none).leave (i - 256) line (l.st = .m) l.data l.poison pid world

/-- Take a victim out of an L1: dirty data go to the L2 line that holds it by inclusion. -/
def State.evictL1 (s : State) (i line : Nat) : State :=
  if i < 128 then s.dropL1 i line
  else
    let l := i - 128
    match s.findLine i line with
    | some d =>
      let s1 := if d.st = .m then s.editLine (256 + (s.lc l).cluster) line
          (fun u => { u with st := .m, data := d.data, poison := d.poison }) else s
      s1.dropL1 i line
    | none => s

/-- Put a line in a cache: choose a way, evict what it holds, install. Answers whether the line was kept. -/
def State.install (s : State) (i pid : Nat) (world : Bool) (l : Line) : State × Bool :=
  let set := l.line % cacheSets i
  let a := s.chooseWay i set (s.candidates i set pid world)
  match a.2 with
  | none => (a.1, false)
  | some w =>
    let old := a.1.lineAt i set w
    let s1 := if old.st = .i then a.1 else if i < 256 then a.1.evictL1 i old.line else a.1.evict i old.line pid world
    (s1.putLine i set w l, true)

/-- The age a fill is inserted with (07 R196). -/
def fillAge (pf old : Bool) : Nat := if old then 3 else if pf then 2 else 1

/-- Fill an L1 from the cluster's L2 line. -/
def State.fillL1 (s : State) (i line : Nat) (pf old : Bool) : State :=
  if !s.cacheOn i || (s.findWay i line).isSome then s
  else
    let c := (s.lc (i % 128)).cluster
    match s.findLine (256 + c) line with
    | some l => (s.install i 0 false { l with st := if l.st = .s then .s else .e, locked := false, age := fillAge pf old, pf := pf }).1
    | none => s

/-- A demand hit sets a line's age to 0 (07 R196). -/
def State.touch (s : State) (i line : Nat) : State := s.editLine i line (fun l => { l with age := 0 })

/-! ### Requests to homes -/

/-- Whether an agent has a request outstanding for a line. -/
def State.wanted (s : State) (agent line : Nat) : Bool := s.wants.any (fun w => w.agent == agent && w.line == line)

/-- The transaction tag of an agent's next request: the lowest that none of its outstanding requests uses (DESIGN CHOICE, log entry 167). -/
def State.nextTag (s : State) (agent : Nat) : Nat :=
  ((List.range 1024).find? (fun t => !s.wants.any (fun w => w.agent == agent && w.tag == t))).getD 0

/-- Send a request of an agent to a line's home, unless one is outstanding; a home that is off, in reset or dead is answered
with Absent by the agent's own interface (10 R278). -/
def State.request (s : State) (w : Want) (mask : Nat) (data : List Byte) (poison : BitVec 8) : State :=
  if s.wanted w.agent w.line then s
  else
    let miss := if w.agent < 16 && (w.kind == .rds || w.kind == .rdx) then
        s.blockEvent (0x10F + w.agent * 16) (if w.pf then 4 else 1) w.pid 1 else s
    let s1 := { miss with wants := s.wants ++ [{ w with tag := s.nextTag w.agent }] }
    let h := homeOf w.line
    let m := { Msg.of w.kind (agentRouter w.agent) (homeRouter h) w.agent w.line with
      tag := s.nextTag w.agent, pid := w.pid, world := w.world, mask := mask, data := data, poison := poison,
      dem := !w.pf && (w.kind == .rds || w.kind == .iord) }
    if s.reachable (s.targetFor w.pid (w.line * 64)) then s1.send m
    else s1.send { m with kind := .absent, src := agentRouter w.agent, dst := agentRouter w.agent, addr := w.line * 64 }

/-- Whether the L2 of a cluster can keep a line for a partition. -/
def State.canKeep (s : State) (c line pid : Nat) (world : Bool) : Bool :=
  s.cacheOn (256 + c) && ((s.findWay (256 + c) line).isSome
    || !(s.candidates (256 + c) (line % 2048) pid world).isEmpty)

/-! ### Prefetch (07 R199-R202) -/

/-- Train a list of stride detectors with a line; answers the lines to request. `top` is the greatest stride, `far` how many
strides ahead are requested. The list stands from least to most recently trained. -/
def trainStride (top far cap : Nat) (ds : List Stride) (line pid : Nat) (byPid : Bool) : List Stride × List Nat :=
  match ds.find? (fun d => d.line / 64 == line / 64 && (!byPid || d.pid == pid)) with
  | some d =>
    let k : Int := (line : Int) - d.line
    let d' : Stride :=
      if k = d.s && k != 0 then { d with line := line, c := min 3 (d.c + 1) }
      else if k != 0 && k.natAbs ≤ top then { d with line := line, s := k, c := 1 }
      else { d with line := line }
    let reqs := if d'.c ≥ 2 then
        ((List.range far).map (fun (i : Nat) => (line : Int) + d'.s * ((i : Int) + 1))).filterMap (fun t =>
          if 0 ≤ t && t.toNat / 64 = line / 64 then some t.toNat else none)
      else []
    (ds.erase d ++ [d'], reqs)
  | none =>
    let n : Stride := ⟨line, 0, 0, pid⟩
    (if ds.length < cap then ds ++ [n] else ds.drop 1 ++ [n], [])

/-- Request a line for a prefetch into an L1D (with its L2) or the L2 only; dropped when the Firebreak copy denies it. -/
def State.prefetch (s : State) (c : Nat) (l1 : Option Nat) (line pid : Nat) (world old : Bool) : State :=
  if !(s.target (line * 64) == .main line) || !s.copyAllows pid world true false line || !s.canKeep c line pid world then s
  else if (s.findWay (256 + c) line).isSome then
    match l1 with
    | some l => (s.mergeL1 c line).fillL1 (128 + l) line true old
    | none => s
  else s.request ⟨.rds, c, line, pid, world, l1, true, old, 0⟩ 0 [] 0

/-- Train the L1D detectors of a core with a demand miss, or a hit on a prefetched line. -/
def State.trainL1 (s : State) (l line pid : Nat) (world old : Bool) : State :=
  let k := s.lc l
  let c := k.cluster
  if !s.flag (.l1ctl c (s.windowOf l)) Fld.l1ctlPfen then s
  else
    let t := trainStride 8 2 8 k.stride line pid false
    t.2.foldl (fun u n => u.prefetch c (some l) n pid world old) (s.setLc l { k with stride := t.1 })

/-- Train the L2 detectors of a cluster with a demand miss. -/
def State.trainL2 (s : State) (c line pid : Nat) (world old : Bool) : State :=
  if !s.flag (.l2ctl c) Fld.l2ctlPfen then s
  else
    let t := trainStride 16 4 32 (KV.get [] s.l2pf c) line pid true
    t.2.foldl (fun u n => u.prefetch c none n pid world old) { s with l2pf := KV.set [] s.l2pf c t.1 }

/-! ### Transactions performed at once, for engines that wait for nothing (log entry 27) -/

/-- Every cached copy of a line is brought back to memory; with `inval` it is also invalidated everywhere, and the
directory entry freed. -/
def State.flushLine (s : State) (line : Nat) (inval : Bool) : State :=
  (List.range 48).foldl (fun t a =>
    match t.findLine (256 + a) line with
    | none => t
    | some _ =>
      let t1 := if a < 16 then (if inval then ((t.lapse a line).backInval a line).clearResv a line none else t.mergeL1 a line)
        else t
      match t1.findLine (256 + a) line with
      | none => t1
      | some l =>
        let t2 := if l.st = .m then t1.writeLine line fullMask l.data l.poison else t1
        if inval then t2.editLine (256 + a) line (fun _ => Line.none)
        else t2.editLine (256 + a) line (fun u => { u with st := .s })) s

end Sys2Proof.Machine
end

