-- ==== Sys2Proof/Machine/Directory.lean ====
section
/-! DEFINITION. The directory of each home (08 R221, R232): entries, transactions in progress, room for a line. -/
namespace Sys2Proof.Machine

/-- The directory set of a line. -/
def dirSet (line : Nat) : Nat := line / 8 % 8192

def dirKey (line way : Nat) : Nat := homeOf line * 131072 + dirSet line * 16 + way

def State.dirAt (s : State) (key : Nat) : DirEnt := KV.get DirEnt.none s.dir key
def State.putDir (s : State) (key : Nat) (d : DirEnt) : State := { s with dir := KV.set DirEnt.none s.dir key d }

/-- Whether an entry is in use. -/
def DirEnt.used (d : DirEnt) : Bool := d.owner.isSome || d.shares != 0 || d.busy.isSome

/-- The entry of a line. -/
def State.findDir (s : State) (line : Nat) : Option Nat :=
  ((List.range 16).map (dirKey line)).find? (fun k => let d := s.dirAt k; d.used && d.line == line)

/-- The entries that a line may take: those of its set's ways that are not retired (19 R482). -/
def State.dirKeys (s : State) (line : Nat) : List Nat :=
  ((List.range 16).filter (fun w => !s.wayGone (0x500 + homeOf line) w)).map (dirKey line)

/-- The agents that hold a line. -/
def DirEnt.holders (d : DirEnt) : List Nat :=
  match d.owner with
  | some o => [o]
  | .none => (List.range 48).filter (fun a => d.shares.getLsbD a)

/-- Whether a transaction on a line, or one that frees an entry for it, is in progress. -/
def State.lineBusy (s : State) (line : Nat) : Bool :=
  (List.range 16).any (fun w => match (s.dirAt (dirKey line w)).busy with
    | some t => (s.dirAt (dirKey line w)).line == line || (match t.wait with
      | some r => r.line == line
      | none => false)
    | none => false)

/-- Whether every way of a line's set is busy. -/
def State.setBusy (s : State) (line : Nat) : Bool :=
  (List.range 16).all (fun w => (s.dirAt (dirKey line w)).busy.isSome)

/-- A bit of a sharer vector. -/
def shareBit (a : Nat) : BitVec 48 := (1 : BitVec 48) <<< a

/-- The way of a set whose entry is evicted, by the ageing rule of 07 R196 (08 R232). -/
def State.dirVictim (s : State) (line : Nat) : State × Option Nat :=
  let cs := (s.dirKeys line).filter (fun k => (s.dirAt k).busy.isNone)
  let top := cs.foldl (fun m k => max m (s.dirAt k).age) 0
  let s1 := if top ≥ 3 then s else cs.foldl (fun t k => let d := t.dirAt k; t.putDir k { d with age := d.age + (3 - top) }) s
  (s1, cs.find? (fun k => (s1.dirAt k).age ≥ 3))

/-- The directory entry of a line, or a free one of its set; where the set has neither, the entry of its victim, whose copies go (08 R232);
none while every entry of the set has a transaction. -/
def State.dirRoom (s : State) (line : Nat) : State × Option Nat :=
  match (match s.findDir line with
    | some k => some k
    | none => (s.dirKeys line).find? (fun k => !(s.dirAt k).used)) with
  | some k => (s, some k)
  | none =>
    let v := s.dirVictim line
    (match v.2 with
    | some k => (((v.1.flushLine (v.1.dirAt k).line true).putDir k DirEnt.none).blockEvent (0x500 + homeOf line) 6 256 1, some k)
    | none => (v.1, none))

end Sys2Proof.Machine
end

