-- ==== Sys2Proof/Machine/Xlate.lean ====
section
/-! DEFINITION. Translation (06 R173-R177): regimes, TLBs, table walks, permissions, and watchpoints (06 R178). -/
namespace Sys2Proof.Machine

/-- What an access does at an address. DCCL, DCFL and ICIL need R, DCIL needs W (06 R175). -/
inductive Need where
  | fetch | read | write | rw
deriving DecidableEq, Repr

/-- The cause of a stage-1 or H-regime fault (06 Table 3); an AMO reports as a write (log entry 29). -/
def Need.cause : Need → Nat
  | .fetch => 4
  | .read => 5
  | .write => 6
  | .rw => 6

/-- Whether EA[63:48] all equal EA[47]. -/
def canonical (va : W64) : Bool := sext 48 va.toNat == va

/-- The answer of a translation. -/
inductive Tr where
  | ok (pa : Nat)
  | fault (cause detail level : Nat) (s2walk : Bool) (ipa : Nat)
  | miss
deriving DecidableEq, Repr

/-- Whether an engine translates in the H regime; the Trust Core has no stage 2. -/
def hRegime (lv : Nat) : Bool := 2 ≤ lv

/-- Whether a TLB entry covers an address in a context (06 R176). -/
def TlbE.hit (t : TlbE) (h off : Bool) (pid asid : Nat) (va : W64) : Bool :=
  t.h == h && (h || (t.pid == pid && t.off == off && (t.glob || t.asid == asid)))
    && va.toNat / 2 ^ t.bits == t.vpn

/-- Whether R, W and X give what an access needs. -/
def Need.has (n : Need) (r w x : Bool) : Bool :=
  match n with
  | .fetch => x
  | .read => r
  | .write => w
  | .rw => r && w

/-- Whether stage 1 or the H regime permits an access: its bits, and U at level U and at a fetch from S (06 R175). -/
def stage1Ok (plain : Bool) (lv : Nat) (n : Need) (r w x u : Bool) : Bool :=
  n.has r w x && (plain || (if lv = 0 then u else !(n == .fetch && u)))

/-- The permission check on an entry (06 R175): stage 1 first, then stage 2. -/
def TlbE.check (t : TlbE) (lv : Nat) (n : Need) (va : W64) : Tr :=
  let b := fun i => bitOf t.perm i
  let need1 := stage1Ok (t.h || t.off) lv n (b 0) (b 1) (b 2) (b 3)
  let need2 := n.has (b 4) (b 5) (b 6)
  let ipa := t.ipn * 4096 + va.toNat % 2 ^ t.bits
  let page := t.ppn * 4096 + va.toNat % 2 ^ t.bits
  if !need1 then .fault n.cause 2 t.lv1 false 0
  else if !t.h && !need2 then .fault 7 2 t.lv2 false ipa
  else .ok page

/-- The context of an engine's accesses at level `lv`: H regime or not, stage-1 base, whether stage 1 is off, PID, ASID. -/
structure Ctx where
  h    : Bool
  base : W64
  off  : Bool
  pid  : Nat
  asid : Nat
deriving DecidableEq, Repr

def Core.ctx (c : Core) (e : Engine) : Ctx :=
  let lv := c.level e
  let h := hRegime lv
  let b := c.creg (if h then 0x4A else 0x10)
  ⟨h, b, bitsOf b 1 0 == 0, c.hpid e, if h then 0 else bitsOf b 63 48⟩

/-- The result of looking an address up: a translation, and whether only the second level held it. -/
def Core.lookup (c : Core) (e : Engine) (fetch : Bool) (n : Need) (va : W64) : Tr × Bool :=
  let x := c.ctx e
  let lv := c.level e
  if x.off && va.toNat ≥ 2 ^ 40 then (.fault n.cause 3 0 false 0, false)
  else if !x.off && !canonical va then (.fault n.cause 3 0 false 0, false)
  else if x.h && x.off then (.ok va.toNat, false)
  else
    let first := if fetch then c.ftlb else c.dtlb
    match first.find? (fun t => t.hit x.h x.off x.pid x.asid va) with
    | some t => (t.check lv n va, false)
    | none => match c.stlb.find? (fun t => t.hit x.h x.off x.pid x.asid va) with
      | some t => (t.check lv n va, true)
      | none => (.miss, false)

/-- Put an entry in a first-level TLB of `cap` entries; the oldest leaves (log entry 30). -/
def tlbPut (cap : Nat) (t : TlbE) (l : List TlbE) : List TlbE :=
  let l1 := l.filter (fun u => u != t)
  (if l1.length < cap then l1 else l1.drop (l1.length + 1 - cap)) ++ [t]

/-- The set of the second-level TLB an entry lies in: 256 sets of 4 ways by its page number. -/
def stlbSet (t : TlbE) : Nat := t.vpn % 256

/-- Put an entry in the second-level TLB. -/
def stlbPut (t : TlbE) (l : List TlbE) : List TlbE :=
  let l1 := l.filter (fun u => u != t)
  let same := l1.filter (fun u => stlbSet u == stlbSet t)
  (if same.length < 4 then l1 else match same.head? with
    | some o => l1.erase o
    | none => l1) ++ [t]

/-- Bring the covering entry of the second level to the first. -/
def Core.promote (c : Core) (e : Engine) (fetch : Bool) (va : W64) : Core :=
  let x := c.ctx e
  match c.stlb.find? (fun t => t.hit x.h x.off x.pid x.asid va) with
  | some t => if fetch then { c with ftlb := tlbPut 32 t c.ftlb } else { c with dtlb := tlbPut 48 t c.dtlb }
  | none => c

/-! ### Walks -/

/-- The value a coherent read of main memory returns now: the bytes of a line held dirty by a cache of any cluster or
group, or of memory as its home decodes them; and the poison bits. -/
def State.lineNow (s : State) (line : Nat) : List Byte × BitVec 8 :=
  match (List.range 128).find? (fun l => match s.findLine (128 + l) line with
      | some d => d.st == .m
      | none => false) with
  | some l => match s.findLine (128 + l) line with
    | some d => (d.data, d.poison)
    | none => ([], 0)
  | none =>
    match (List.range 48).findSome? (fun a => (s.findLine (256 + a) line)) with
    | some d => (d.data, d.poison)
    | none => match s.leaving.find? (fun e => e.line == line && e.dirty) with
      | some e => (e.data, e.poison)
      | none => (s.readLine line).2

/-- A 64-bit table entry at a physical address: the value, or the reason it cannot be read (a Firebreak denial, Absent) with its
address. -/
inductive TabRead where
  | val (v : W64)
  | denied (pa : Nat)
  | absent (pa : Nat)
deriving DecidableEq, Repr

def State.readTable (s : State) (pid : Nat) (world : Bool) (pa : Nat) : TabRead :=
  match s.target pa with
  | .main line =>
    if !s.copyAllows pid world true false line then .denied pa
    else if !s.reachable (.main line) then .absent pa
    else .val (BitVec.ofNat 64 (ofBytes (((s.lineNow line).1.drop (pa % 64)).take 8)))
  | _ => .absent pa

/-- The end of a walk: a page (base, size in bits, permission bits), a fault, or a denied or absent table read. -/
inductive Walk where
  | page (base bits : Nat) (r w x u g : Bool)
  | fault (detail level : Nat)
  | denied (pa : Nat)
  | absent (pa : Nat)
deriving DecidableEq, Repr

/-- The page size of a leaf at a level. -/
def levelBits (level : Nat) : Nat := 12 + 9 * (3 - level)

/-- The level of a page size. -/
def levelOf (bits : Nat) : Nat := 3 - (bits - 12) / 9

/-- Whether a table entry has a reserved bit or value set (06 Table 5, R175). -/
def entryReserved (v : W64) (level : Nat) (stage2 : Bool) : Bool :=
  bitsOf v 63 40 != 0 || bitsOf v 11 7 != 0 || (stage2 && bitsOf v 6 5 != 0) || (bitOf v 3 && !bitOf v 2)
    || (level = 3 && bitOf v 1) || (level = 0 && !bitOf v 1)

/-- The index of an address at a level: 9 bits, and 10 at the first level of stage 2. -/
def levelIdx (a level : Nat) (stage2 : Bool) : Nat :=
  a / 2 ^ levelBits level % (if stage2 && level = 1 then 1024 else 512)

/-- One stage of a walk, `fuel` levels left: `read` reads a table entry at an address of that stage's output space. Answers the physical
addresses read, in order, and how the stage ends. -/
def walkStage (read : Nat → List Nat × (TabRead ⊕ Tr)) (a : Nat) (stage2 : Bool) : Nat → Nat → Nat → List Nat × (Walk ⊕ Tr)
  | 0, level, _ => ([], .inl (.fault 1 level))
  | fuel + 1, level, table =>
    let r := read (table + 8 * levelIdx a level stage2)
    match r.2 with
    | .inr t => (r.1, .inr t)
    | .inl (.denied p) => (r.1, .inl (.denied p))
    | .inl (.absent p) => (r.1, .inl (.absent p))
    | .inl (.val v) =>
      if !bitOf v 0 then (r.1, .inl (.fault 1 level))
      else if entryReserved v level stage2 then (r.1, .inl (.fault 4 level))
      else if bitOf v 1 then
        let q := walkStage read a stage2 fuel (level + 1) (bitsOf v 39 12 * 4096)
        (r.1 ++ q.1, q.2)
      else
        let base := bitsOf v 39 12 * 4096
        (r.1, .inl (if base % 2 ^ levelBits level != 0 then .fault 5 level
          else .page base (levelBits level) (bitOf v 2) (bitOf v 3) (bitOf v 4) (bitOf v 5) (bitOf v 6)))

/-- Stage 2: an IPA to a page. -/
def State.walk2 (s : State) (c : Core) (pid : Nat) (world : Bool) (ipa : Nat) : List Nat × Walk :=
  let q := walkStage (fun a => ([a], .inl (s.readTable pid world a))) ipa true 3 1 (bitsOf (c.creg 0x49) 27 1 * 8192)
  (q.1, match q.2 with
    | .inl w => w
    | .inr _ => .absent 0)

/-- Read a stage-1 table entry of the guest: its address passes through stage 2. -/
def State.readGuest (s : State) (c : Core) (pid : Nat) (world : Bool) (ipa : Nat) : List Nat × (TabRead ⊕ Tr) :=
  let q := s.walk2 c pid world ipa
  match q.2 with
  | .page b n r _ _ _ _ =>
    if r then (q.1 ++ [b + ipa % 2 ^ n], .inl (s.readTable pid world (b + ipa % 2 ^ n)))
    else (q.1, .inr (.fault 7 2 (levelOf n) true ipa))
  | .fault d l => (q.1, .inr (.fault 7 d l true ipa))
  | .denied p => (q.1, .inl (.denied p))
  | .absent p => (q.1, .inl (.absent p))

/-- The end of a whole walk: an entry for the TLBs, an exception, or a denied or absent table read. -/
inductive WalkEnd where
  | entry (t : TlbE)
  | fault (cause detail level : Nat) (s2walk : Bool) (ipa : Nat)
  | denied (pa : Nat)
  | absent (pa : Nat)
deriving DecidableEq, Repr

def permOf (r1 w1 x1 u1 r2 w2 x2 : Bool) : BitVec 7 :=
  BitVec.ofNat 7 ((if r1 then 1 else 0) + (if w1 then 2 else 0) + (if x1 then 4 else 0) + (if u1 then 8 else 0)
    + (if r2 then 16 else 0) + (if w2 then 32 else 0) + (if x2 then 64 else 0))

/-- Walk an address for an engine (06 R174, R175): the physical addresses of the table entries read, and how the walk ends. A permission that
stage 1 refuses comes before any fault of the final address's stage 2 (04 R98). -/
def State.walk (s : State) (e : Engine) (c : Core) (n : Need) (va : W64) : List Nat × WalkEnd :=
  let x := c.ctx e
  let pid := c.pid e
  let world := s.worldOf e
  let a := va.toNat % 2 ^ 48
  if x.h then
    let q := walkStage (fun p => ([p], .inl (s.readTable pid world p))) a false 4 0 (bitsOf x.base 39 12 * 4096)
    (q.1, match q.2 with
      | .inl (.page b k r w ex _ _) =>
        .entry ⟨va.toNat / 2 ^ k, k, pid, 0, false, true, false, 0, b / 4096, permOf r w ex false true true true, levelOf k, 0⟩
      | .inl (.fault d l) => .fault n.cause d l false 0
      | .inl (.denied p) => .denied p
      | .inl (.absent p) => .absent p
      | .inr _ => .absent 0)
  else
    let one : List Nat × (Walk ⊕ Tr) := if x.off then ([], .inl (.page (va.toNat / 4096 * 4096 % 2 ^ 40) 12 true true true true false))
      else walkStage (s.readGuest c pid world) a false 4 0 (bitsOf x.base 39 12 * 4096)
    match one.2 with
    | .inl (.page b k r w ex u g) =>
      if !stage1Ok x.off (c.level e) n r w ex u then (one.1, .fault n.cause 2 (levelOf k) false 0)
      else
        let ipa := if x.off then va.toNat else b + va.toNat % 2 ^ k
        let q := s.walk2 c pid world ipa
        (one.1 ++ q.1, match q.2 with
          | .page b2 k2 r2 w2 x2 _ _ =>
            let kk := if x.off then k2 else if k < k2 then k else k2
            let pa := b2 + ipa % 2 ^ k2
            .entry ⟨va.toNat / 2 ^ kk, kk, c.hpid e, x.asid, g, false, x.off, ipa / 2 ^ kk * 2 ^ (kk - 12), pa / 2 ^ kk * 2 ^ (kk - 12),
              permOf r w ex u r2 w2 x2, levelOf k, levelOf k2⟩
          | .fault d l => .fault 7 d l false ipa
          | .denied p => .denied p
          | .absent p => .absent p)
    | .inl (.fault d l) => (one.1, .fault n.cause d l false 0)
    | .inl (.denied p) => (one.1, .denied p)
    | .inl (.absent p) => (one.1, .absent p)
    | .inr (.fault cs d l sw ipa) => (one.1, .fault cs d l sw ipa)
    | .inr _ => (one.1, .absent 0)

/-- The exception of a fault at an address (06 R173). -/
def faultExc (cause detail level : Nat) (s2 : Bool) (ipa : Nat) (va pc : W64) : Exc :=
  { cause := cause, detail := detail, level := level, s2walk := s2, vec := false, eval := va,
    ipa := if cause = 7 then BitVec.ofNat 64 (ipa / 4096 * 4096 + va.toNat % 4096) else 0, epc := pc, det := 0 }

/-- Firebreak denial: detail 1 a region denial, 2 Absent (06 DETAIL). -/
def denialExc (detail : Nat) (va pc : W64) : Exc := { Exc.of 8 va pc with detail := detail }

/-- An engine as its fetch is translated: a mode shadow runs under the old mode (05 R153). -/
def Core.fetchView (c : Core) : Core := if c.shadow > 0 then { c with cr := c.oldCr } else c

/-- A fetch fails. At an S vector a failed translation is taken at H as Fetch translation fault with VEC; at an H vector, or
at the Trust Core's, the engine halts with an entry of class contained (06 R170). -/
def State.fetchExc (s : State) (e : Engine) (x : Exc) : State :=
  let c := { s.core e with frozen := none }
  if c.atVec && c.level e ≠ 1 then
    (s.setCore e { c with run := false }).logEvent (s.unitOf e) clsContained 0 x.cause
  else if c.atVec && (x.cause = 4 || x.cause = 7) then
    s.setCore e (c.raiseAhead { x with cause := 4, vec := true, ipa := 0 })
  else s.setCore e (c.raiseAhead x)

/-- A walk's entry in the TLBs of a core. -/
def Core.tlbFill (c : Core) (fetch : Bool) (t : TlbE) : Core :=
  { c with
    ftlb := if fetch then tlbPut 32 t c.ftlb else c.ftlb
    dtlb := if fetch then c.dtlb else tlbPut 48 t c.dtlb
    stlb := stlbPut t c.stlb }

/-- Translate an address that nothing waits for, a walk included (04 R99, 05 R144): `c` is the engine as it translates. -/
def State.xlateNow (s : State) (e : Engine) (c : Core) (fetch : Bool) (n : Need) (va : W64) : State × Tr :=
  match c.lookup e fetch n va with
  | (.miss, _) => (match (s.walk e c n va).2 with
    | .entry t => (s.setCore e ((s.core e).tlbFill fetch t), t.check (c.level e) n va)
    | _ => (s, .miss))
  | (r, second) => (if second then s.setCore e ((s.core e).promote e fetch va) else s, r)

/-- The table lines that a walk reads and the cluster's L2 could keep but does not hold yet: the walker reads tables through its L2
(06 R174). -/
def State.walkMisses (s : State) (e : Engine) (pid : Nat) (world : Bool) (pas : List Nat) : List Nat :=
  match e with
  | .lcore _ =>
    let k := (s.core e).cluster
    (pas.map (· / 64)).filter (fun line => s.copyAllows pid world true false line && s.reachable (.main line)
      && s.canKeep k line pid world && (s.findLine (256 + k) line).isNone)
  | _ => []

/-- TABLE_WALK: the walk of a TLB miss goes on as far as its tables are at hand, and asks for the first line that is not; when none is
missing it fills the TLBs, or the access faults, and the freeze ends. A table read that hits the L2 costs 18 cycles (06 R176); what reads
from main memory add is a free value (05 Table 3). -/
def State.tableWalk (s : State) (e : Engine) (va : W64) (fetch store : Bool) : State :=
  let c := s.core e
  if c.frozen != some (.walk va fetch store) then s
  else
    let n : Need := if fetch then .fetch else if store then .write else .read
    let on := s.talFor e
    let v := if fetch then c.fetchView else c
    let pid := v.pid e
    let world := s.worldOf e
    let w := s.walk e v n va
    match s.walkMisses e pid world w.1 with
    | line :: _ => s.request ⟨.rds, c.cluster, line, pid, world, none, false, false, 0⟩ 0 [] 0
    | [] =>
      let s0 := match e with
        | .lcore _ => (w.1.map (· / 64)).foldl (fun t line => t.touch (256 + c.cluster) line) s
        | _ => s
      let c1 := ({ s0.core e with frozen := none }.oweBack on (6 + w.1.length * 18)).count on 8 1
      let fail := fun (t : State) (x : Exc) => if fetch then (t.setCore e c1).fetchExc e x else t.setCore e (c1.raiseExc x)
      match w.2 with
      | .entry t => s0.setCore e (c1.tlbFill fetch t)
      | .fault cs d l sw ipa => fail s0 (faultExc cs d l sw ipa va c1.pc)
      | .denied p => fail (s0.recordDenial (homeOf (p / 64)) pid world false p) (denialExc 1 va c1.pc)
      | .absent p => fail (if s.isUnmapped pid p then s0.logUnmapped (s.unitOf e) pid world p else s0) (denialExc 2 va c1.pc)

def execTableWalk (eng : Engine) (va : W64) (fetch store : Bool) (s : State) : Result :=
  .next (s.tableWalk eng va fetch store)

/-! ### Watchpoints (06 R178) -/

/-- The lowest byte of [va, va + n) that watchpoint `k` (0 or 1) watches. -/
def Core.watchOne (c : Core) (e : Engine) (k : Nat) (va : W64) (n : Nat) (read write : Bool) : Option W64 :=
  let w := c.creg (0x61 + 2 * k)
  let size := bitsOf w 11 6
  let lv := c.level e
  let atLevel := if lv = 0 then bitOf w 3 else if lv = 1 then bitOf w 4 else bitOf w 5
  if !bitOf w 0 || !atLevel || !((read && bitOf w 1) || (write && bitOf w 2)) || (c.afterEret && bitOf w 15) || c.skipOn.getLsbD k then none
  else
    let b := (c.creg (0x60 + 2 * k)).toNat / 2 ^ size
    (((List.range n).map (fun i => va + BitVec.ofNat 64 i)).find? (fun a => a.toNat / 2 ^ size == b))

/-- The lowest byte of an access that a watchpoint matches. A Juggler and the cells that never match pass no range. -/
def Core.watch (c : Core) (e : Engine) (va : W64) (n : Nat) (read write : Bool) : Option W64 :=
  match c.watchOne e 0 va n read write, c.watchOne e 1 va n read write with
  | some a, some b => if (a - va).toNat ≤ (b - va).toNat then some a else some b
  | some a, none => some a
  | none, o => o

/-! ### TLBI (06 Table 7) -/

/-- Keep the TLB entries that pass. -/
def Core.tlbKeep (c : Core) (f : TlbE → Bool) : Core :=
  { c with ftlb := c.ftlb.filter f, dtlb := c.dtlb.filter f, stlb := c.stlb.filter f }

end Sys2Proof.Machine
end

