-- ==== Sys2Proof/Machine/IoNow.lean ====
section
/-! DEFINITION. Reads and writes of main memory that a block makes line by line and waits for: DMA of port groups, Tally, trace,
the debug block, the trunk, the Trust Core's services (08 R219, R250). Each line is one uncached read or write performed at
once (log entry 27). -/
namespace Sys2Proof.Machine

/-- Why a line failed: a Firebreak denial, Absent, poison. -/
inductive IoFail where
  | denied | absent | poison
deriving DecidableEq, Repr

/-- The group whose DMA engine a unit is. -/
def dmaGroup (unit : Nat) : Option Nat := if unit / 256 = 3 && unit % 8 = 7 then some (unit % 256 / 8) else none

/-- A line transaction of a group's DMA engine, and its miss in the I/O cache (21 Table 3). -/
def State.countDma (s : State) (unit pid line : Nat) : State :=
  match dmaGroup unit with
  | some g =>
    let t := s.blockEvent unit 1 pid 1
    if (s.findLine (272 + g) line).isNone then t.blockEvent unit 2 pid 1 else t
  | none => s

/-- A coherent read of a line: from the cache that holds it, otherwise from memory through its home. -/
def State.lineGet (s : State) (line : Nat) : State × List Byte × BitVec 8 :=
  let cached := (List.range 128).any (fun l => (s.findLine (128 + l) line).isSome)
    || (List.range 48).any (fun a => (s.findLine (256 + a) line).isSome) || s.leaving.any (fun e => e.line == line && e.dirty)
  if s.isSecond line then let r := s.rawRead line; (s, r.1, r.2)
  else if cached then let r := s.lineNow line; (s, r.1, r.2) else s.readLine line

/-- The check of a line access: the target, the Firebreak unit of its home, the home's presence. -/
def State.lineFail (s : State) (pid : Nat) (world write : Bool) (pa : Nat) : Option IoFail :=
  match s.targetFor pid pa with
  | .main line =>
    if !s.reachable (.main line) then some .absent
    else if s.unitAllows (homeOf line) pid world (!write) write pa then none else some .denied
  | _ => some .absent

/-- The state after a failed line: the unit's record of a denial, or the entry of an unmapped address. -/
def State.failNote (s : State) (unit pid : Nat) (world write : Bool) (pa : Nat) (f : IoFail) : State :=
  match f with
  | .denied => s.recordDenial (homeOf (pa / 64)) pid world write pa
  | .absent => if s.isUnmapped pid pa then s.logUnmapped unit pid world pa else s
  | .poison => s

/-- Memory takes the newest bytes of a line: of the cache that holds it modified, of the one it is leaving. With `inval` no cache keeps it and
its directory entry is free; reservations and locks on it end. -/
def State.bringBack (s : State) (line : Nat) (inval : Bool) : State :=
  let s1 := s.flushLine line inval
  let s2 := { s1 with
    leaving := s1.leaving.map (fun (e : Leaving) => if e.line = line then { e with dirty := false } else e)
    dir := if inval then s1.dir.filter (fun e => !(e.2.line == line && e.2.busy.isNone)) else s1.dir }
  match s1.leaving.find? (fun e => e.line == line && e.dirty) with
  | some e => s2.writeLine line fullMask e.data e.poison
  | none => s2

/-- Write the bytes of a line that `mask` selects in memory: every cached copy is brought back and invalidated first. -/
def State.lineWriteMask (s : State) (line mask : Nat) (bs : List Byte) (poison : BitVec 8) : State :=
  if s.isSecond line then s.rawWrite line mask bs poison else (s.bringBack line true).writeLine line mask bs poison

/-- Write contiguous bytes of one line. -/
def State.lineWrite (s : State) (pa : Nat) (bs : List Byte) (poison : BitVec 8) : State :=
  s.lineWriteMask (pa / 64) (maskAt (pa % 64) bs.length) (List.replicate (pa % 64) 0 ++ bs) poison

/-! ### The I/O cache of a port group (11 R311) -/

/-- Whether a group's I/O cache holds a line, to write it (`own`) or to read it. -/
def State.ioHolds (s : State) (g line : Nat) (own : Bool) : Bool :=
  match s.findLine (272 + g) line with
  | some l => !own || l.st == .m || l.st == .e
  | none => false

/-- A line is brought into a group's I/O cache at once, alone (`own`) or beside the copies of others; not while its home or the group's own
interface has a transaction on it, or where directory and cache have no room for it. -/
def State.ioKeep (s : State) (g line pid : Nat) (world own : Bool) : State :=
  if s.ioHolds g line own then s.touch (272 + g) line
  else if s.lineBusy line || s.isSecond line || s.wanted (16 + g) line || s.leaving.any (fun e => e.agent == 16 + g && e.line == line) then s
  else
    let r := (s.bringBack line own).dirRoom line
    match r.2 with
    | none => s
    | some k =>
      let d := r.1.dirAt k
      let hs := if d.used then d.holders else []
      let read := r.1.readLine line
      let a := read.1.install (272 + g) pid world ⟨if hs.isEmpty then .e else .s, line, read.2.1, read.2.2, false, fillAge false false, false⟩
      if !a.2 then s
      else if hs.isEmpty then a.1.putDir k ⟨line, some (16 + g), 0, none, 1⟩
      else a.1.putDir k ⟨line, none, hs.foldl (fun v h => v ||| shareBit h) (shareBit (16 + g)), none, 0⟩

/-- A block writes bytes of a line: a whole line, or the write of a block without a cache, goes to memory; a partly written line of a port group
stands in its I/O cache, modified (11 R311). -/
def State.ioPut (s : State) (unit pid line : Nat) (world : Bool) (mask : Nat) (bs : List Byte) : State :=
  match dmaGroup unit with
  | none => s.lineWriteMask line mask bs 0
  | some g =>
    if mask = fullMask then s.lineWriteMask line mask bs 0
    else
      let t := s.ioKeep g line pid world true
      if t.ioHolds g line true then
        t.editLine (272 + g) line (fun u => { u with st := .m, data := mergeBytes mask u.data bs, poison := mergePoison mask u.poison 0 })
      else s.lineWriteMask line mask bs 0

/-- The lines of a port group's transfer beyond its first failed line: as many as were outstanding, a free number, have been issued, and each
completes or fails on its own (08 R250). -/
def State.ioBeyond (s : State) (unit pid : Nat) (world write : Bool) : Nat → Nat → List Byte → State
  | 0, _, _ => s
  | fuel + 1, pa, bs =>
    if bs.isEmpty then s
    else
      let k := min bs.length (64 - pa % 64)
      let t := match s.lineFail pid world write pa with
        | some f => s.failNote unit pid world write pa f
        | none => if write then s.ioPut unit pid (pa / 64) world (maskAt (pa % 64) k) (List.replicate (pa % 64) 0 ++ bs.take k) else s
      t.ioBeyond unit pid world write fuel (pa + k) (bs.drop k)

/-- A line of a transfer has failed: its note, and the lines a port group has issued beyond it. -/
def State.ioFailed (s : State) (unit pid : Nat) (world write : Bool) (pa : Nat) (f : IoFail) (rest : List Byte) : State :=
  let t := s.failNote unit pid world write pa f
  if rest.isEmpty || !(unit / 256 == 3 && unit % 8 == 7) then t
  else { t with fresh := t.fresh + 1 }.ioBeyond unit pid world write ((Config.freeValue t.fresh).toNat % 16) (pa / 64 * 64 + 64) rest

/-- Read `n` bytes at `pa`, ascending; the bytes, or the first failed address with the bytes before it. -/
def State.ioRead (s : State) (unit pid : Nat) (world : Bool) : Nat → Nat → Nat → List Byte → State × List Byte × Option (Nat × IoFail)
  | 0, _, _, acc => (s, acc, none)
  | fuel + 1, pa, n, acc =>
    if n = 0 then (s, acc, none)
    else match s.lineFail pid world false pa with
      | some f => (s.ioFailed unit pid world false pa f (List.replicate (n - (64 - pa % 64)) 0), acc, some (pa, f))
      | none =>
        let r := (s.countDma unit pid (pa / 64)).lineGet (pa / 64)
        let k := min n (64 - pa % 64)
        let bad := (List.range k).any (fun i => r.2.2.getLsbD ((pa % 64 + i) / 8))
        if bad then (r.1.ioFailed unit pid world false pa .poison (List.replicate (n - k) 0), acc, some (pa, .poison))
        else r.1.ioRead unit pid world fuel (pa + k) (n - k) (acc ++ (r.2.1.drop (pa % 64)).take k)

/-- Write bytes at `pa`, ascending; the first failed address with the count of bytes before it. -/
def State.ioWrite (s : State) (unit pid : Nat) (world : Bool) : Nat → Nat → List Byte → Nat → State × Option (Nat × Nat × IoFail)
  | 0, _, _, _ => (s, none)
  | fuel + 1, pa, bs, done =>
    if bs.isEmpty then (s, none)
    else match s.lineFail pid world true pa with
      | some f => (s.ioFailed unit pid world true pa f (bs.drop (64 - pa % 64)), some (pa, done, f))
      | none =>
        let k := min bs.length (64 - pa % 64)
        ((s.countDma unit pid (pa / 64)).ioPut unit pid (pa / 64) world (maskAt (pa % 64) k) (List.replicate (pa % 64) 0 ++ bs.take k)).ioWrite unit pid world fuel (pa + k) (bs.drop k) (done + k)

/-- Enough lines for `n` bytes. -/
def ioFuel (n : Nat) : Nat := n / 64 + 2

def State.ioReadN (s : State) (unit pid : Nat) (world : Bool) (pa n : Nat) : State × List Byte × Option (Nat × IoFail) :=
  s.ioRead unit pid world (ioFuel n) pa n []

/-- Read a descriptor: its line stands in the group's I/O cache from then on (11 R311). -/
def State.ioDescriptor (s : State) (unit pid : Nat) (world : Bool) (pa n : Nat) : State × List Byte × Option (Nat × IoFail) :=
  match dmaGroup unit, s.lineFail pid world false pa with
  | some g, none =>
    let u := s.ioKeep g (pa / 64) pid world false
    let filled := u.ioHolds g (pa / 64) false && !s.ioHolds g (pa / 64) false
    (if filled then u.blockEvent unit 2 pid 1 else u).ioReadN unit pid world pa n
  | _, _ => s.ioReadN unit pid world pa n

/-- Write the bytes of one line that a mask selects, as one step. -/
def State.ioWriteMask (s : State) (unit pid : Nat) (world : Bool) (pa mask : Nat) (bs : List Byte) : State × Option (Nat × Nat × IoFail) :=
  match s.lineFail pid world true pa with
  | some f => (s.failNote unit pid world true pa f, some (pa, 0, f))
  | none =>
    ((s.countDma unit pid (pa / 64)).ioPut unit pid (pa / 64) world (mask * 2 ^ (pa % 64)) (List.replicate (pa % 64) 0 ++ bs), none)

def State.ioWriteN (s : State) (unit pid : Nat) (world : Bool) (pa : Nat) (bs : List Byte) : State × Option (Nat × Nat × IoFail) :=
  s.ioWrite unit pid world (ioFuel bs.length) pa bs 0

end Sys2Proof.Machine
end

