-- ==== Sys2Proof/Machine/Operands.lean ====
section
/-! DEFINITION. Memory operands: effective addresses and base updates (03 Table 9), access sizes, and the checks on the
operands of an instruction that 03 R58, R61, R71, R72 and 04 R119 make. -/
namespace Sys2Proof.Machine

/-- The bytes of an access size. -/
def bytesOf : ASize → Nat
  | .b => 1
  | .h => 2
  | .w => 4
  | .d => 8

/-- The effective address of a form, for an access of `n` bytes by an instruction at `pc` (03 Table 9). -/
def Core.ea (c : Core) (pc : W64) (n : Nat) : AddrForm → W64
  | .baseDisp b d => c.greg b.val + d
  | .pcDisp d => pc + d
  | .scaled b i sc d => c.greg b.val + c.greg i.val * BitVec.ofNat 64 (2 ^ sc.val) + d
  | .postInc b => c.greg b.val
  | .postImm b _ => c.greg b.val
  | .preDec b => c.greg b.val - BitVec.ofNat 64 n

/-- The base register a form updates, and its new value (03 Table 9). -/
def Core.update (c : Core) (n : Nat) : AddrForm → Option (Nat × W64)
  | .postInc b => some (b.val, c.greg b.val + BitVec.ofNat 64 n)
  | .postImm b i => some (b.val, c.greg b.val + i)
  | .preDec b => some (b.val, c.greg b.val - BitVec.ofNat 64 n)
  | _ => none

/-- The base register of a form that updates it. -/
def updBase : AddrForm → Option Nat
  | .postInc b => some b.val
  | .postImm b _ => some b.val
  | .preDec b => some b.val
  | _ => none

/-- The index register of a form. -/
def idxReg : AddrForm → Option Nat
  | .scaled _ i _ _ => some i.val
  | _ => none

/-- Whether a form is [base+disp] or [pc+disp], the only ones of LDR, STC, AMO and line maintenance (03 R72). -/
def plainForm : AddrForm → Bool
  | .baseDisp _ _ => true
  | .pcDisp _ => true
  | _ => false

/-- Whether a form is one of LEA's and PREF's (03 R72). -/
def leaForm : AddrForm → Bool
  | .baseDisp _ _ => true
  | .pcDisp _ => true
  | .scaled _ _ _ _ => true
  | _ => false

/-- The check of a load (`load`) or store with register `reg` of the general file (`gen`) or FP file: the first subcode of
03 Table 12 that holds. -/
def memCheck (e : Engine) (m : MemOp) (load gen : Bool) (reg : Nat) : Option Nat :=
  if load && gen && updBase m.form == some reg then some subValue
  else if (load && m.rel) || (!load && m.acq) then some subPrefix
  else if isJug e && (m.stream || m.acq || m.rel) then some subPrefix
  else if m.rep && ((gen && reg == 29) || idxReg m.form == some 29) then some subRepRc
  else none

/-- The check of LDR, STC and AMO, given whether ACQ or REL stands on one that does not take it. -/
def atomCheck (f : AddrForm) (badPrefix : Bool) : Option Nat :=
  if !plainForm f then some subValue else if badPrefix then some subPrefix else none

/-- The issue class of a memory instruction: a repeated one counts as class S (04 R101). -/
def memCls (m : MemOp) : Cls := if m.rep then .s else .m

end Sys2Proof.Machine
end

