-- ==== Sys2Proof/Machine/CoreMem.lean ====
section
/-! DEFINITION. Data accesses of logical cores and the Trust Core (05 R130-R134, 08 R237-R249): the checks of 04 R98 in
order, the regions that serve an access, the store buffer, freezes and their end. -/
namespace Sys2Proof.Machine

/-! ### Regions -/

/-- What serves a physical address for an engine. -/
inductive Region where
  /-- The engine's own LMEM, at its byte number in the LMEM store (07 R191). -/
  | lmem (a : Nat)
  /-- The Trust Core's own SRAM (15 R387). -/
  | sram (a : Nat)
  | main (line : Nat)
  | dev
deriving DecidableEq, Repr

/-- Where the Trust Core's own SRAM stands in its own address space (15 R387). -/
def sramBase : Nat := 0x0B10000000

def State.region (s : State) (e : Engine) (pa : Nat) : Region :=
  match e with
  | .lcore l =>
    match (s.lc l.val).place with
    | some p =>
      let base := 0x0900000000 + p / 8 * 0x100000 + p % 8 * 0x10000
      if base ≤ pa && pa < base + 0x10000 then .lmem (l.val * 65536 + (pa - base))
      else match s.target pa with
        | .main line => .main line
        | _ => .dev
    | none => .dev
  | _ =>
    if sramBase ≤ pa && pa < sramBase + 0x100010 then .sram (pa - sramBase)
    else match s.target pa with
      | .main line => .main line
      | _ => if pa < 0x80000000 then .main (pa / 64) else .dev

/-- The bytes of the Trust Core's SRAM; the 16 bytes above it are its doorbell entry (15 R407). -/
def State.sramGet (s : State) (a n : Nat) : List Byte :=
  if a < 0x100000 then KV.getAll 0 s.st.sram a n
  else ((toBytes 8 s.trust.doorbell.toNat ++ toBytes 8 s.trust.doorCfg.toNat).drop (a - 0x100000)).take n

/-- A write there: in the doorbell entry a 1 clears a bit of BITS, MASK is stored, and of DBCFG only PRIO is not reserved. -/
def State.sramPut (s : State) (a : Nat) (bs : List Byte) : State :=
  if a < 0x100000 then { s with st := { s.st with sram := KV.setAll 0 s.st.sram a bs } }
  else
    let o := a - 0x100000
    let m := BitVec.ofNat 64 ((2 ^ (8 * bs.length) - 1) * 2 ^ (8 * (o % 8)))
    let v := BitVec.ofNat 64 (ofBytes bs * 2 ^ (8 * (o % 8))) &&& m
    if o < 8 then
      let d := s.trust.doorbell
      { s with trust := { s.trust with doorbell :=
          (((d &&& ~~~ m) ||| v) &&& maskOf 63 32) ||| (d &&& ~~~ v &&& maskOf 31 0) } }
    else { s with trust := { s.trust with doorCfg := ((s.trust.doorCfg &&& ~~~ m) ||| v) &&& maskOf 13 8 } }

/-- The parts of an access: one, or two split at a line boundary (08 R248). -/
def splitAcc (va : W64) (n : Nat) : List (W64 × Nat) :=
  let k := 64 - va.toNat % 64
  if n ≤ k then [(va, n)] else [(va, k), (va + BitVec.ofNat 64 k, n - k)]

/-- The halves of an unaligned Device or Remote access are two accesses, split at an 8-byte boundary (08 R248, R249). -/
def State.splitDev (s : State) (e : Engine) (ps : List (W64 × Nat × Nat)) : List (W64 × Nat × Nat) :=
  ps.flatMap (fun p =>
    let k := 8 - p.2.2 % 8
    if s.region e p.2.2 == .dev && k < p.2.1 then [(p.1, k, p.2.2), (p.1 + BitVec.ofNat 64 k, p.2.1 - k, p.2.2 + k)] else [p])

/-- What translating and checking the parts of an access gives. -/
inductive Checked where
  | ok (ps : List (W64 × Nat × Nat))
  | exc (x : Exc)
  | miss (va : W64)
deriving DecidableEq, Repr

/-- The rank of an exception among those of one access (04 R98). -/
def excRank (x : Exc) : Nat := if x.cause = 7 then 2 else if x.cause = 8 then 3 else 1

/-- The exception that translating an address will end in, when it is known without its walk or after it. -/
def State.xlateExc (s : State) (e : Engine) (n : Need) (pc va : W64) : Option Exc :=
  let c := s.core e
  match (c.lookup e false n va).1 with
  | .ok _ => none
  | .fault cs d l sw ipa => some (faultExc cs d l sw ipa va pc)
  | .miss => match (s.walk e c n va).2 with
    | .entry _ => none
    | .fault cs d l sw ipa => some (faultExc cs d l sw ipa va pc)
    | .denied _ => some (denialExc 1 va pc)
    | .absent _ => some (denialExc 2 va pc)

/-- Translate the parts. The exception of a part is weighed against those of the others before any walk of a TLB miss is waited for: the
first in the order of 04 R98, then the lowest address. -/
def State.xlateParts (s : State) (e : Engine) (n : Need) (pc : W64) (ps : List (W64 × Nat)) : Checked :=
  let rs := ps.map (fun p => (p, ((s.core e).lookup e false n p.1).1))
  let faulty := rs.any (fun r => match r.2 with
    | .fault _ _ _ _ _ => true
    | _ => false)
  match (if faulty then ps.filterMap (fun p => s.xlateExc e n pc p.1) else []) with
  | x :: ys => .exc (ys.foldl (fun a y => if excRank y < excRank a then y else a) x)
  | [] =>
    match rs.find? (fun r => r.2 == .miss) with
    | some r => .miss r.1.1
    | none => .ok (rs.map (fun r => (r.1.1, r.1.2, match r.2 with
        | .ok pa => pa
        | _ => 0)))

/-- The parts a verdict copy denies (15 R396). -/
def State.deniedPart (s : State) (e : Engine) (n : Need) (ps : List (W64 × Nat × Nat)) : Option (W64 × Nat) :=
  let c := s.core e
  (ps.find? (fun p => match s.region e p.2.2 with
    | .main line => !isTrust e && !s.copyAllows (c.pid e) (s.worldOf e) (n == .read || n == .rw) (n == .write || n == .rw) line
    | _ => false)).map (fun p => (p.1, p.2.2))

/-- All the checks of one access before it is performed, in the order of 04 R98: alignment of an atomic, watchpoints,
translation, Firebreak. -/
def State.checkAccess (s : State) (e : Engine) (pc va : W64) (n : Nat) (need : Need) (atomic : Bool) : Checked :=
  let c := s.core e
  if atomic && va.toNat % n != 0 then .exc (Exc.of 3 va pc)
  else match c.watch e va n (need == .read || need == .rw) (need == .write || need == .rw) with
    | some a => .exc (Exc.of 0x0F a pc)
    | none =>
      match s.xlateParts e need pc (splitAcc va n) with
      | .ok ps =>
        if atomic && ps.any (fun p => s.region e p.2.2 == .dev) then .exc (denialExc 1 va pc)
        else match s.deniedPart e need ps with
          | some (a, _) => .exc (denialExc 1 a pc)
          | none => .ok ps
      | r => r

/-- Stop at the instruction an engine is about to issue: an exception, reported to the memory unit when it is a region
denial of a verdict copy (15 R396), or the freeze of a TLB miss (06 R176). -/
def State.stopAt (s : State) (e : Engine) (need : Need) (r : Checked) : State :=
  match r with
  | .ok _ => s
  | .miss va =>
    let c := s.core e
    s.setCore e { c with frozen := some (.walk va false (need == .write || need == .rw)) }
  | .exc x =>
    let s1 := s.raise e x
    if x.cause = 8 && x.detail = 1 then
      let c := s.core e
      match c.lookup e false need x.eval with
      | (.ok pa, _) => (match s.region e pa with
        | .main line => s1.recordDenial (homeOf line) (c.pid e) (s.worldOf e) (need == .write || need == .rw) pa
        | _ => s1)
      | _ => s1
    else s1

/-- Bring second-level TLB hits of an access to the first level, 3 cycles each (06 R176). -/
def Core.promoteParts (c : Core) (e : Engine) (on : Bool) (ps : List (W64 × Nat × Nat)) : Core :=
  ps.foldl (fun d p => match d.lookup e false .read p.1 with
    | (_, true) => ((d.promote e false p.1).oweBack on 3).count on 9 1
    | _ => d) c

/-! ### Reading -/

/-- How the store buffer answers a load of [pa, pa + n): no overlap, the bytes of the youngest overlapping store, or a wait
(08 R238 rule 5, R239). -/
inductive Fwd where
  | none
  | bytes (bs : List Byte)
  | wait
deriving DecidableEq, Repr

def Core.forward (c : Core) (pa n : Nat) : Fwd :=
  match c.sbuf.reverse.find? (fun e => e.pa < pa + n && pa < e.pa + e.bytes.length) with
  | none => .none
  | some e => if e.pa ≤ pa && pa + n ≤ e.pa + e.bytes.length then .bytes ((e.bytes.drop (pa - e.pa)).take n) else .wait

/-- The first of `n` bytes of a line from `off` on that lies in a poisoned word (04 R98). -/
def poisonAt (poison : BitVec 8) (off n : Nat) : Option Nat := (List.range n).find? (fun i => poison.getLsbD ((off + i) / 8))

/-- Bytes of a line, and the first of them in a poisoned word. -/
def lineBytes (l : Line) (off n : Nat) : List Byte × Option Nat := ((l.data.drop off).take n, poisonAt l.poison off n)

/-- Whether another agent is using the bank of an LMEM byte: an access through its window is on its way (05 R132, 07 R186). -/
def State.bankBusy (s : State) (pa : Nat) : Bool :=
  s.net.any (fun m => (m.kind == .drd || m.kind == .dwr) && m.addr / 65536 == pa / 65536 && m.addr / 8 % 4 == pa / 8 % 4)

/-- The state after one use of a free value. -/
def State.used (s : State) : State := { s with fresh := s.fresh + 1 }

/-- Serve one part of a load from the store buffer, LMEM, SRAM, L1D or L2; none when its data are further away. The freeze
cycles added are those of 05 Table 3, with a free value at most 2 for an LMEM bank in use (05 R132), and 0 or 6 for the SRAM as the Trust
Core's L1 holds the line or not (05 R161; log entry 165). The store buffer answers no Device or Remote load (08 R241). A part that has
waited, `again`, is no second use of its line (07 R196). -/
def State.serve (s : State) (e : Engine) (pa n pid : Nat) (world old again : Bool) : Option (State × List Byte × Option Nat × Nat) :=
  let c := s.core e
  match s.region e pa, c.forward pa n with
  | .dev, _ => none
  | _, .bytes bs => some (s, bs, none, 0)
  | _, .wait => none
  | .lmem a, .none =>
    if s.bankBusy pa then some (s.used, KV.getAll 0 s.st.lmem a n, s.lmemPoison a n, (Config.freeValue s.fresh).toNat % 3)
    else some (s, KV.getAll 0 s.st.lmem a n, s.lmemPoison a n, 0)
  | .sram a, .none => some (s.used, s.sramGet a n, none, if bitOf (Config.freeValue s.fresh) 0 then 6 else 0)
  | .main line, .none =>
    match e with
    | .lcore l =>
      let i1 := 128 + l.val
      let i2 := 256 + c.cluster
      match if s.cacheOn i1 then s.findLine i1 line else none with
      | some d =>
        let b := lineBytes d (pa % 64) n
        if again then some (s, b.1, b.2, 0)
        else
          let s1 := if d.pf then (s.editLine i1 line (fun u => { u with pf := false })).trainL1 l.val line pid world old else s
          some (s1.touch i1 line, b.1, b.2, 0)
      | none =>
        if !s.cacheOn i2 then none else
        let s0 := s.mergeL1 c.cluster line
        match s0.findLine i2 line with
        | some d =>
          let b := lineBytes d (pa % 64) n
          if again then some (s0.fillL1 i1 line false old, b.1, b.2, 0)
          else
            let s1 := (s0.touch i2 line).fillL1 i1 line false old
            some (s1.trainL1 l.val line pid world old, b.1, b.2, 14)
        | none => none
    | _ => none

/-- The order of an engine's Device and Remote accesses: whether two addresses lie in one 64 KiB block or one remote window (08 R241). -/
def sameBlock (a b : Nat) : Bool :=
  a / 65536 == b / 65536 || (0x1000000000 ≤ a && 0x1000000000 ≤ b && a / 0x1000000000 == b / 0x1000000000)

/-- Ask for the data of a part that nothing nearby holds: a line from its home, or a Device or Remote read (08 R219, R241). It waits for
stores of the buffer that overlap it in part, and a Device or Remote read for those to its block. An unmapped address is answered with
Absent at once, with its entry (01 R13). An upgrade of a held line is no miss, and trains nothing (07 R199, R200). -/
def State.fetchPart (s : State) (e : Engine) (pa n pid : Nat) (world excl old : Bool) : State :=
  let c := s.core e
  match s.region e pa with
  | .lmem _ => s
  | .sram _ => s
  | .main line =>
    if c.forward pa n == .wait then s
    else match e with
    | .lcore l =>
      if s.canKeep c.cluster line pid world then
        let held := (s.findLine (256 + c.cluster) line).isSome
        let k : MsgKind := if excl then (if held then .upg else .rdx) else .rds
        let s1 := if held || s.wanted c.cluster line then s
          else ((s.trainL1 l.val line pid world old).trainL2 c.cluster line pid world old)
        s1.request ⟨k, c.cluster, line, pid, world, some l.val, false, old, 0⟩ 0 [] 0
      else s.request ⟨.iord, c.cluster, line, pid, world, none, false, old, 0⟩ 0 [] 0
    | _ => s.request ⟨.iord, 48, line, 255, true, none, false, old, 0⟩ 0 [] 0
  | .dev =>
    let t := s.target pa
    let src := match e with
      | .lcore _ => clusterRouter c.cluster
      | _ => trustRouter
    let m := { Msg.of .drd src t.router 63 pa with
      pid := pid, world := world, mask := n, unit := s.unitOf e, lcore := some (engKey e) }
    let out := s.net.any (fun x => (x.kind == .drd || x.kind == .drsp || x.kind == .absent) && x.addr == pa
      && x.lcore == some (engKey e) && x.grant == 0)
    if out || c.sbuf.any (fun b => b.dev && sameBlock b.pa pa) then s
    else if s.isUnmapped pid pa then (s.logUnmapped (s.unitOf e) pid world pa).send { m with kind := .absent, dst := src }
    else if s.answers pa then s.send m
    else s.send { m with kind := .absent, dst := src }

/-! ### Completing -/

/-- The end of a load: the register receives the value after 3 cycles from LMEM or 4 (04 R95), with the base update. -/
def Core.loadDone (c : Core) (fp : Bool) (reg : Nat) (sign : Bool) (bs : List Byte) (upd : Option (Nat × W64)) (lat : Nat) : Core :=
  let v := if sign then sext (8 * bs.length) (ofBytes bs) else BitVec.ofNat 64 (ofBytes bs)
  let c1 := c.put fp reg v lat
  match upd with
  | some (b, u) => c1.put false b u 1
  | none => c1

/-- One repetition done: g29 counts down as a 1-cycle result, and while it is not zero the instruction stays (04 R100). An instruction
that a control transfer has reached started its group, and its GROUP byte stays without effect in every repetition (03 R60).
The cycle of a repetition after the first is of class BACK (21 Table 1). -/
def Core.repStep (c : Core) (on : Bool) (pc : W64) : Core :=
  let n := c.greg 29 - 1
  let lv := bitsOf (c.creg 1) 1 0
  let l := KV.get Live.zero c.live lv
  let c0 := if on && c.repOn then
      { c with live := KV.set Live.zero c.live lv { l with retired := l.retired - 1, front := l.front - 2, back := l.back + 3 } } else c
  let c1 := { c0.put false 29 n 1 with repOn := n != 0 }
  if n = 0 then c1 else { c1 with pc := pc, group := { c1.group with ctl := true } }

/-- The wall cycles an access adds to the slot counts: alignment (05 Table 4) and region. -/
def alignCost (va : W64) (n : Nat) : Nat :=
  if va.toNat % n = 0 then 0
  else if va.toNat % 4096 + n > 4096 then 4
  else if va.toNat % 64 + n > 64 then 2 else 1

def Core.accCost (c : Core) (on : Bool) (va : W64) (n extra : Nat) : Core :=
  let a := alignCost va n
  let c1 := c.oweBack on (a + extra)
  let c2 := if a = 0 then c1 else c1.count on 0x10 1
  if extra = 0 then c2 else ((c2.count on 1 1).count on 3 1).count on 0x0A extra

/-- The latency of a load by its region. -/
def State.loadLat (s : State) (e : Engine) (pa : Nat) : Nat :=
  match s.region e pa with
  | .lmem _ => 3
  | _ => 4

/-- Serve the parts of a load in order; answers the parts with what they got. -/
def State.serveParts (s : State) (e : Engine) (pid : Nat) (world old again : Bool) : List Piece → State × List Piece × Nat
  | [] => (s, [], 0)
  | p :: ps =>
    match p.got with
    | some _ =>
      let r := s.serveParts e pid world old again ps
      (r.1, p :: r.2.1, r.2.2)
    | none =>
      match s.serve e p.pa p.n pid world old again with
      | some (s1, bs, po, cost) =>
        let r := s1.serveParts e pid world old again ps
        (r.1, { p with got := some bs, poison := po } :: r.2.1, cost + r.2.2)
      | none => (s, p :: ps, 0)

/-- The parts of an access as its checks leave them, nothing served yet. -/
def piecesOf (ps : List (W64 × Nat × Nat)) : List Piece := ps.map (fun p => ⟨p.1, p.2.2, p.2.1, none, none⟩)

/-- The bytes of an access whose parts are all there. -/
def partsBytes : List Piece → List Byte
  | [] => []
  | p :: ps => (p.got.getD []) ++ partsBytes ps

/-- The first part without data. -/
def missing (ps : List Piece) : Option Piece := ps.find? (fun p => p.got.isNone)

/-- The lowest address of a poisoned byte. -/
def poisoned (ps : List Piece) : Option W64 := ps.findSome? (fun p => p.poison.map (fun i => p.va + BitVec.ofNat 64 i))

/-- The physical and virtual address of an access's first part. -/
def firstPa (ps : List Piece) : Nat := (ps.head?.map (·.pa)).getD 0
def firstVa (ps : List Piece) : W64 := (ps.head?.map (·.va)).getD 0

/-- The result of a load that was issued before its freeze: written in the cycle its latency gives, behind the older results of that cycle
and before the younger (04 R84, 05 R131). -/
def insertLate (old : List Pend) (p : Pend) : List Pend → List Pend
  | [] => [p]
  | q :: qs => if p.at_ < q.at_ || (p.at_ = q.at_ && !old.contains q) then p :: q :: qs else q :: insertLate old p qs

/-- The register effect of a load issued in cycle `t` before its freeze. -/
def Core.lateDone (c : Core) (t : Nat) (u : Undo) (fp : Bool) (reg : Nat) (sign : Bool) (bs : List Byte) (lat : Nat) : Core :=
  let v := if sign then sext (8 * bs.length) (ofBytes bs) else BitVec.ofNat 64 (ofBytes bs)
  if !fp && reg == 0 then c
  else { c with inflight := insertLate u.inflight ⟨fp, reg, v, t + lat - 1⟩ c.inflight }

/-- Finish a load whose data are there: Data poison (04 R98), or the result. -/
def State.finishLoad (s : State) (e : Engine) (a : PendAcc) (ps : List Piece) (fp : Bool) (reg : Nat) (sign : Bool) (extra : Nat) :
    State :=
  match poisoned ps with
  | some va => s.setCore e ((s.core e).failAccess a (fun pc => Exc.of 9 va pc))
  | none =>
    let c0 := { s.core e with frozen := none }
    let s1 := s.setCore e c0
    let lat := s1.loadLat e (firstPa ps)
    let on := s1.talFor e
    let bs := partsBytes ps
    match a.late with
    | some l => s1.setCore e ((c0.lateDone l.1 l.2 fp reg sign bs lat).accCost on (firstVa ps) bs.length extra)
    | none =>
      let c := s1.entered a.iss (if a.rep then .s else .m)
      let c1 := (c.loadDone fp reg sign bs a.upd lat).accCost on (firstVa ps) bs.length extra
      s1.setCore e (if a.rep then c1.repStep on c0.pc else c1)

/-- Hold the core on an access, with the request for its first missing part sent. -/
def State.holdAccess (s : State) (e : Engine) (a : PendAcc) (excl : Bool) : State :=
  let c := s.core e
  let s1 := s.setCore e { c with frozen := some (.access a) }
  match missing a.pieces with
  | some p => s1.fetchPart e p.pa p.n a.pid a.world excl a.old
  | none => s1

/-- Issue a load whose data are missing: it enters its group, its base is updated, and its freeze falls after the cycle that follows its own
(05 R131). Under a doomed FP instruction the freeze comes at once. -/
def State.holdLoad (s : State) (e : Engine) (a : PendAcc) : State :=
  let c := s.core e
  if c.doom.isSome then s.holdAccess e a false
  else
    let d := s.entered a.iss (if a.rep then .s else .m)
    let d1 := match a.upd with
      | some (b, u) => d.put false b u 1
      | none => d
    let d2 := if a.rep then d1.repStep (s.talFor e) c.pc else d1
    (s.setCore e d2).holdAccess e { a with upd := none, late := some (d.cyc, c.undoRec) } false

/-- Start a load that has passed its checks. -/
def State.startLoad (s : State) (x : Iss) (m : MemOp) (ps : List (W64 × Nat × Nat)) (fp : Bool) (reg : Nat) (sign : Bool)
    (upd : Option (Nat × W64)) : State :=
  let e := x.eng
  let c := s.core e
  let a : PendAcc := { kind := .load fp reg sign, pieces := piecesOf (s.splitDev e ps), upd := upd,
                       rep := m.rep, iss := x, old := m.stream, pid := c.pid e, world := s.worldOf e, late := none, extra := 0, asked := false }
  let s0 := s.setCore e (c.promoteParts e (s.talFor e) ps)
  let r := s0.serveParts e a.pid a.world a.old false a.pieces
  match missing r.2.1 with
  | none => r.1.finishLoad e a r.2.1 fp reg sign r.2.2
  | some _ => r.1.holdLoad e { a with pieces := r.2.1, extra := r.2.2 }

/-! ### Storing -/

/-- The entry of a store of at most 8 bytes within one line. Inside the window of an older FP instruction it is uncommitted (05 R133, R149). -/
def State.entryOf (s : State) (e : Engine) (pa : Nat) (bs : List Byte) (rel old : Bool) : SBEntry :=
  let c := s.core e
  { pa := pa, bytes := bs, dev := s.region e pa == .dev, rel := rel, sent := false, commit := c.fpWin, doomed := c.doom.isSome, old := old, asked := false }

/-- The store-buffer entries of a store. -/
def State.storeEntries (s : State) (e : Engine) (ps : List (W64 × Nat × Nat)) (bs : List Byte) (rel old : Bool) : List SBEntry :=
  match ps with
  | [] => []
  | p :: rest => s.entryOf e p.2.2 (bs.take p.2.1) rel old :: s.storeEntries e rest (bs.drop p.2.1) rel old

/-- Put entries in the store buffer; those beyond 8 wait, and the core freezes (05 R133). -/
def Core.buffer (c : Core) (on : Bool) (es : List SBEntry) : Core :=
  let room := 8 - c.sbuf.length
  let c1 := { c with sbuf := c.sbuf ++ es.take room }
  if es.length ≤ room then c1 else ({ c1 with frozen := some (.stores (es.drop room)) }.count on 0x0C 1)

/-- The physical addresses of the fetch window, as far as the fetch TLB gives them (05 R157): the pages of its two ends. -/
def Core.windowHit (c : Core) (e : Engine) (pa n : Nat) : Bool :=
  match c.win with
  | none => false
  | some _ =>
    let touch := fun (va : W64) (len : Nat) => match (c.fetchView.lookup e true .fetch va).1 with
      | .ok p => p < pa + n && pa < p + len
      | _ => false
    let k := 4096 - c.pc.toNat % 4096
    if k ≥ 128 then touch c.pc 128 else touch c.pc k || touch (c.pc + BitVec.ofNat 64 k) (128 - k)

/-- The fetch shield on a match: the window is discarded and the next instruction issues 11 cycles after the store, in a new
group (05 R158). What is undone and issued again reads every older result (05 R152). -/
def Core.shield (c : Core) (on hit : Bool) : Core :=
  if hit then
    ({ c.drain with nxt := c.cyc + 11, win := none, group := { c.group with ctl := true } }.oweWasted on 10).count on 7 1
  else c

/-- Perform a store that has passed its checks: entries into the store buffer, base update, fetch shield. -/
def State.doStore (s : State) (x : Iss) (m : MemOp) (va : W64) (ps : List (W64 × Nat × Nat)) (bs : List Byte)
    (upd : Option (Nat × W64)) : State :=
  let e := x.eng
  let on := (s.talFor e)
  let pc := (s.core e).pc
  let s0 := s.setCore e ((s.core e).promoteParts e on ps)
  let c := s0.entered x (memCls m)
  let c1 := match upd with
    | some (b, u) => c.put false b u 1
    | none => c
  let c2 := (c1.accCost on va bs.length 0).buffer on (s.storeEntries e (s.splitDev e ps) bs m.rel m.stream)
  let hit := c.repHit || ps.any (fun p => c2.windowHit e p.2.2 p.2.1)
  let c3 := if m.rep then c2.repStep on pc else c2
  if m.rep && c3.pc == pc then s0.setCore e { c3 with repHit := hit }
  else s0.setCore e ({ c3 with repHit := false }.shield on hit)

/-- Whether every earlier access is performed: nothing buffered, no Device store unacknowledged. -/
def Core.quiet (c : Core) : Bool := c.sbuf.isEmpty && c.devOut == 0

/-! ### Reserved and atomic accesses (04 R104-R107) -/

/-- The new value of an AMO, in the order of 04 R106: add, swap, and, or, unsigned maximum. -/
def amoVal (op : Nat) (old v : W64) : W64 :=
  match op with
  | 0 => old + v
  | 1 => v
  | 2 => old &&& v
  | 3 => old ||| v
  | _ => if old.toNat < v.toNat then v else old

/-- Whether a cluster's L2 holds a line in E or M. -/
def State.exclusive (s : State) (c line : Nat) : Bool :=
  match s.findLine (256 + c) line with
  | some l => l.st == .m || l.st == .e
  | none => false

/-- A store's line trains the L1D detectors on a miss, and on a hit on a line that a prefetch filled (07 R199). -/
def State.trainStore (s : State) (l line pid : Nat) (world old : Bool) : State :=
  match (if s.cacheOn (128 + l) then s.findLine (128 + l) line else none) with
  | some d => if d.pf then (s.editLine (128 + l) line (fun u => { u with pf := false })).trainL1 l line pid world old else s
  | none => s.trainL1 l line pid world old

/-- Write bytes into a line that the cluster's L2 holds in E or M: the other cores' copies go, the own L1D takes the bytes
(allocated when on), the line becomes M; other reservations on the granule are lost (07 R186, 08 R237, R245). The cache that the write hits
sets its age to 0, unless the line was filled for this write (`again`, 07 R196). -/
def State.writeHeld (s : State) (l line off : Nat) (bs : List Byte) (old again : Bool) : State :=
  let c := (s.lc l).cluster
  let mask := maskAt off bs.length
  let put := fun (u : Line) => { u with
    st := .m, data := mergeBytes mask u.data (List.replicate off 0 ++ bs), poison := mergePoison mask u.poison 0 }
  let use := fun (u : Line) => if again then u else { u with age := 0 }
  let s1 := ((s.dropOthers c l line).dropL1I c line).clearResv c line (some l)
  let hit := (s1.findLine (128 + l) line).isSome
  let s2 := if hit then s1 else s1.fillL1 (128 + l) line false old
  if s2.cacheOn (128 + l) && (s2.findLine (128 + l) line).isSome then
    (s2.editLine (128 + l) line (fun u => if hit then use (put u) else put u)).editLine (256 + c) line
      (fun u => if hit then { u with st := .m } else use { u with st := .m })
  else s2.editLine (256 + c) line (fun u => use (put u))

/-- Write bytes where a region holds them at once. -/
def State.writeRegion (s : State) (e : Engine) (pa : Nat) (bs : List Byte) (old again : Bool) : State :=
  match s.region e pa with
  | .lmem a => s.writeLmem a bs
  | .sram a => s.sramPut a bs
  | .main line => match e with
    | .lcore l => s.writeHeld l.val line (pa % 64) bs old again
    | _ => s
  | .dev => s

/-- The oldest store-buffer entry has left; entries that waited for room enter, and the freeze ends when all have (05 R133). -/
def Core.refill (c : Core) : Core :=
  match c.frozen with
  | some (.stores rest) =>
    let room := 8 - c.sbuf.length
    let left := rest.drop room
    { c with sbuf := c.sbuf ++ rest.take room, frozen := if left.isEmpty then none else some (.stores left) }
  | _ => c

def State.popStore (s : State) (e : Engine) : State :=
  let c := s.core e
  s.setCore e { c with sbuf := c.sbuf.drop 1 }.refill

/-- The leading store-buffer entries for the engine's own LMEM or SRAM enter it; they wait for nothing (07 R192). -/
def State.drainOwn (s : State) (e : Engine) : State :=
  (List.range 8).foldl (fun t _ =>
    match (t.core e).sbuf with
    | [] => t
    | b :: _ => match t.region e b.pa with
      | .lmem _ => (t.writeRegion e b.pa b.bytes false false).popStore e
      | .sram _ => (t.writeRegion e b.pa b.bytes false false).popStore e
      | _ => t) s

/-- Whether the store buffer holds nothing but stores to the engine's own LMEM or SRAM. -/
def State.ownOnly (s : State) (e : Engine) : Bool :=
  (s.core e).sbuf.all (fun b => match s.region e b.pa with
    | .lmem _ => true
    | .sram _ => true
    | _ => false)

/-- Whether a reservation can stand on an address: in the own LMEM or SRAM, or on a line that the L2 holds (08 R245). DEDUCED: an LDR whose
line the L2 does not keep leaves none (log entry 69). -/
def State.canReserve (s : State) (e : Engine) (pa : Nat) : Bool :=
  match s.region e pa with
  | .lmem _ => true
  | .sram _ => true
  | .main line => match e with
    | .lcore _ => s.cacheOn (256 + (s.core e).cluster) && (s.findLine (256 + (s.core e).cluster) line).isSome
    | _ => false
  | .dev => false

/-- Finish LDR: the value and the reservation (04 R104). -/
def State.finishReserve (s : State) (e : Engine) (a : PendAcc) (ps : List Piece) (reg : Nat) (sign : Bool) (extra : Nat) : State :=
  let s1 := s.finishLoad e a ps false reg sign extra
  let c := s1.core e
  if c.exc.isSome then s1
  else s1.setCore e { c with resv := if s.canReserve e (firstPa ps) then some (firstPa ps / 64) else none }

/-- Finish STC: store and 0 when the reservation holds, otherwise 1; the reservation ends (04 R105). -/
def State.finishCond (s : State) (e : Engine) (a : PendAcc) (p : Piece) (reg : Nat) (val : W64) : State :=
  let c0 := s.core e
  let ok := c0.resv == some (p.pa / 64)
  let s1 := if ok then (s.drainOwn e).writeRegion e p.pa (toBytes p.n val.toNat) a.old a.asked else s
  let s2 := s1.setCore e { s1.core e with frozen := none, resv := none }
  let c := s2.entered a.iss .m
  let c1 := c.put false reg (if ok then 0 else 1) 4
  let c2 := if ok then c1.shield (s.talFor e) (c1.windowHit e p.pa p.n) else c1.count (s.talFor e) 0x11 1
  s2.setCore e c2

/-- Finish an AMO: the old value into REG, the combination into memory (04 R106). A line that the L2 does not keep is read and written at
its home (07 R213; log entry 69). -/
def State.finishAmo (s : State) (e : Engine) (a : PendAcc) (ps : List Piece) (p : Piece) (op reg : Nat) (val : W64) (extra : Nat) (home : Bool) :
    State :=
  match poisoned ps with
  | some va => s.setCore e ((s.core e).failAccess a (fun pc => Exc.of 9 va pc))
  | none =>
    let old := BitVec.ofNat 64 (ofBytes (partsBytes ps))
    let new := toBytes 8 (amoVal op old val).toNat
    let s1 := if home then s.lineWrite p.pa new 0 else s.writeRegion e p.pa new a.old a.asked
    let s2 := s1.setCore e { s1.core e with frozen := none }
    let c := ((s2.entered a.iss .m).put false reg old 6).accCost (s.talFor e) p.va p.n extra
    s2.setCore e (c.shield (s.talFor e) (c.windowHit e p.pa p.n))

/-- Whether an atomic access can be performed now: every earlier store is performed, but those to the own LMEM, which drain at once; and
its line is held in E or M, or it lies in LMEM or SRAM. An STC whose reservation is gone needs nothing. -/
def State.atomReady (s : State) (e : Engine) (pa : Nat) (kind : AccKind) : Bool :=
  let c := s.core e
  let failed := match kind with
    | .cond _ _ => c.resv != some (pa / 64)
    | _ => false
  failed || (s.ownOnly e &&
    match s.region e pa with
    | .lmem _ => true
    | .sram _ => true
    | .main line => match e with
      | .lcore _ => s.cacheOn (256 + c.cluster) && s.exclusive c.cluster line
      | _ => false
    | .dev => false)

/-- Whether an AMO is performed at the home: its bytes have come without a copy, and neither the L2 nor another cache keeps the line; they
are still the line's newest. -/
def State.homeAmo (s : State) (e : Engine) (p : Piece) : Bool :=
  s.ownOnly e && match s.region e p.pa, e with
  | .main line, .lcore _ => p.got.isSome && !s.exclusive (s.core e).cluster line && some (((s.lineNow line).1.drop (p.pa % 64)).take p.n) == p.got
  | .main line, _ => p.got.isSome && some (((s.lineNow line).1.drop (p.pa % 64)).take p.n) == p.got
  | _, _ => false

/-- Try to end the access that holds a core: its parts are served as far as their data are there. -/
def State.resumeAccess (s : State) (e : Engine) (a : PendAcc) (again : Bool) : State :=
  let ask := fun (t : State) (ps : List Piece) (excl : Bool) (cost : Nat) =>
    t.holdAccess e { a with pieces := ps, extra := a.extra + cost, asked := true } excl
  match a.kind with
  | .load fp reg sign =>
    let r := s.serveParts e a.pid a.world a.old again a.pieces
    (match missing r.2.1 with
    | none => r.1.finishLoad e a r.2.1 fp reg sign (a.extra + r.2.2)
    | some _ => ask r.1 r.2.1 false r.2.2)
  | .reserve reg sign =>
    let r := s.serveParts e a.pid a.world a.old again a.pieces
    (match missing r.2.1 with
    | none => r.1.finishReserve e a r.2.1 reg sign (a.extra + r.2.2)
    | some _ => ask r.1 r.2.1 false r.2.2)
  | .cond reg val =>
    (match a.pieces with
    | p :: _ => if s.atomReady e p.pa a.kind then s.finishCond e a p reg val else ask s a.pieces true 0
    | [] => s)
  | .amo op reg val =>
    (match a.pieces with
    | p :: _ =>
      if s.atomReady e p.pa a.kind then
        let r := (s.drainOwn e).serveParts e a.pid a.world a.old (again || a.asked) [{ p with got := none }]
        r.1.finishAmo e a r.2.1 p op reg val r.2.2 false
      else if s.homeAmo e p then (s.drainOwn e).finishAmo e a [p] p op reg val 0 true
      else ask s [{ p with got := none }] true 0
    | [] => s)
  | .ret _ => s

end Sys2Proof.Machine
end

