-- ==== Sys2Proof/Machine/LoadStore.lean ====
section
/-! DEFINITION. Loads, stores, LEA, PREF, reserved and atomic accesses, line maintenance (04 R94-R107, R113, R114), and the
core events that end what they wait for: arrival of data, drain of the store buffer, instruction fetch. -/
namespace Sys2Proof.Machine

/-! ### Jugglers (04 R121) -/

/-- The first byte of [ea, ea + n) outside 0x0000-0xFFFF. -/
def jugBeyond (ea : W64) (n : Nat) : Option W64 :=
  if ea.toNat + n ≤ 0x10000 then none else some (if ea.toNat < 0x10000 then 0x10000 else ea)

/-- Whether a form reads code LMEM: [pc+disp] (04 R121). -/
def pcForm : AddrForm → Bool
  | .pcDisp _ => true
  | _ => false

/-- A Juggler's load: code LMEM for [pc+disp], data LMEM otherwise; beyond 0xFFFF Load translation fault; a
word that holds the poison code Data poison (11 R292). -/
def State.jugLoad (s : State) (x : Iss) (m : MemOp) (n : Nat) (sign : Bool) (reg : Nat) : State :=
  let e := x.eng
  let c := s.core e
  let ea := c.ea c.pc n m.form
  match jugBeyond ea n with
  | some a => s.raise e (Exc.of 5 a c.pc)
  | none =>
    let r := s.jugRead e (pcForm m.form) ea.toNat n
    let d := (s.entered x (memCls m)).loadDone false reg sign r.1 (c.update n m.form) 3
    if r.2 then s.raise e (Exc.of 9 ea c.pc) else s.setCore e (if m.rep then d.repStep false c.pc else d)

/-- A Juggler's store: data LMEM; [pc+disp] or beyond 0xFFFF Store translation fault; mirrored in the
position store (11 R291). -/
def State.jugStore (s : State) (x : Iss) (m : MemOp) (bs : List Byte) : State :=
  let e := x.eng
  let c := s.core e
  let n := bs.length
  let ea := c.ea c.pc n m.form
  match (if pcForm m.form then some ea else jugBeyond ea n) with
  | some a => s.raise e (Exc.of 6 a c.pc)
  | none =>
    let c1 := s.entered x (memCls m)
    let d := match c.update n m.form with
      | some (b, u) => c1.put false b u 1
      | none => c1
    let s1 := s.setCore e (if m.rep then d.repStep false c.pc else d)
    s1.jugWrite e ea.toNat bs

/-! ### Loads and stores -/

/-- A load of `n` bytes. A repeated one performs one repetition each time it is presented (log entry 32). -/
def State.load (s : State) (x : Iss) (m : MemOp) (n : Nat) (fp sign : Bool) (rd : Fin 32) : State :=
  s.issue x (memCls m) (if fp then .core else .all) false (memCheck x.eng m true (!fp) rd.val) (fun s =>
    let e := x.eng
    let c := s.core e
    if m.rep && c.greg 29 == 0 then s.setCore e (s.entered x .s)
    else if isJug e then s.jugLoad x m n sign rd.val
    else
      let ea := c.ea c.pc n m.form
      match s.checkAccess e c.pc ea n .read false with
      | .ok ps => s.startLoad x m ps fp rd.val sign (c.update n m.form)
      | r => s.stopAt e .read r)

/-- A store of the low `n` bytes of `v`. -/
def State.store (s : State) (x : Iss) (m : MemOp) (n : Nat) (fp : Bool) (rs : Fin 32) : State :=
  s.issue x (memCls m) (if fp then .core else .all) false (memCheck x.eng m false (!fp) rs.val) (fun s =>
    let e := x.eng
    let c := s.core e
    let bs := toBytes n (if fp then c.freg rs.val else c.greg rs.val).toNat
    if m.rep && c.greg 29 == 0 then s.setCore e (s.entered x .s)
    else if isJug e then s.jugStore x m bs
    else
      let ea := c.ea c.pc n m.form
      match s.checkAccess e c.pc ea n .write false with
      | .ok ps => s.doStore x m ea ps bs (c.update n m.form)
      | r => s.stopAt e .write r)

def execLdB (x : Iss) (m : MemOp) (rd : Fin 32) (s : State) : Result := .next (s.load x m 1 false true rd)
def execLdBu (x : Iss) (m : MemOp) (rd : Fin 32) (s : State) : Result := .next (s.load x m 1 false false rd)
def execLdH (x : Iss) (m : MemOp) (rd : Fin 32) (s : State) : Result := .next (s.load x m 2 false true rd)
def execLdHu (x : Iss) (m : MemOp) (rd : Fin 32) (s : State) : Result := .next (s.load x m 2 false false rd)
def execLdW (x : Iss) (m : MemOp) (rd : Fin 32) (s : State) : Result := .next (s.load x m 4 false true rd)
def execLdWu (x : Iss) (m : MemOp) (rd : Fin 32) (s : State) : Result := .next (s.load x m 4 false false rd)
def execLdD (x : Iss) (m : MemOp) (rd : Fin 32) (s : State) : Result := .next (s.load x m 8 false false rd)
def execFldS (x : Iss) (m : MemOp) (rd : Fin 32) (s : State) : Result := .next (s.load x m 4 true false rd)
def execFldD (x : Iss) (m : MemOp) (rd : Fin 32) (s : State) : Result := .next (s.load x m 8 true false rd)
def execStB (x : Iss) (m : MemOp) (rs : Fin 32) (s : State) : Result := .next (s.store x m 1 false rs)
def execStH (x : Iss) (m : MemOp) (rs : Fin 32) (s : State) : Result := .next (s.store x m 2 false rs)
def execStW (x : Iss) (m : MemOp) (rs : Fin 32) (s : State) : Result := .next (s.store x m 4 false rs)
def execStD (x : Iss) (m : MemOp) (rs : Fin 32) (s : State) : Result := .next (s.store x m 8 false rs)
def execFstS (x : Iss) (m : MemOp) (rs : Fin 32) (s : State) : Result := .next (s.store x m 4 true rs)
def execFstD (x : Iss) (m : MemOp) (rs : Fin 32) (s : State) : Result := .next (s.store x m 8 true rs)

/-- LEA: EA into REG after 1 cycle; no access, no exception of one (04 R95). -/
def execLea (x : Iss) (f : AddrForm) (rd : Fin 32) (s : State) : Result :=
  .next (s.issue x .m .all false (if leaForm f then none else some subValue) (fun s =>
    let c := s.core x.eng
    s.setCore x.eng ((s.entered x .m).put false rd.val (c.ea c.pc 1 f) 1)))

/-- PREF: the line of EA into L1D and L2, or into L2 only under HINT; nothing where translation or a check fails, address is no main memory (04 R99). A page in no TLB is walked for it, without a freeze. -/
def execPref (x : Iss) (f : AddrForm) (hint stream : Bool) (s : State) : Result :=
  .next (s.issue x .m .core false (if leaForm f then none else some subValue) (fun s =>
    let c := s.core x.eng
    let s1 := s.setCore x.eng (s.entered x .m)
    let r := s1.xlateNow x.eng c false .read (c.ea c.pc 1 f)
    let s1 := r.1
    match x.eng, r.2 with
    | .lcore l, .ok pa => (match s1.region x.eng pa with
      | .main line => s1.prefetch c.cluster (if hint then none else some l.val) line (c.pid x.eng) (s.worldOf x.eng) stream
      | _ => s1)
    | _, _ => s1))

/-! ### Reserved loads, conditional stores, atomics -/

/-- An access of LDR, STC or AMO: its checks in the order of 04 R98, the wait of REL, and then the access itself, at once or
when its line arrives. What it does is taken from the registers it reads at issue (05 R129). -/
def State.atomic (s : State) (x : Iss) (f : AddrForm) (rel : Bool) (n : Nat) (need : Need) (kind : Core → AccKind) : State :=
  s.issue x .m .core false (atomCheck f false) (fun s =>
    let e := x.eng
    let c := s.core e
    let ea := c.ea c.pc n f
    match s.checkAccess e c.pc ea n need true with
    | .ok ps =>
      if rel && !c.quiet then s.setCore e { c with frozen := some .release }
      else
        let s1 := s.setCore e (c.promoteParts e (s.talFor e) ps)
        s1.resumeAccess e { kind := kind c, pieces := piecesOf ps, upd := none, rep := false, iss := x, old := false, pid := c.pid e,
                            world := s.worldOf e, late := none, extra := 0, asked := false } false
    | r => s.stopAt e need r)

def execLdrD (x : Iss) (f : AddrForm) (_acq : Bool) (rd : Fin 32) (s : State) : Result :=
  .next (s.atomic x f false 8 .read (fun _ => .reserve rd.val false))
def execLdrW (x : Iss) (f : AddrForm) (_acq : Bool) (rd : Fin 32) (s : State) : Result :=
  .next (s.atomic x f false 4 .read (fun _ => .reserve rd.val true))
def execStcD (x : Iss) (f : AddrForm) (rel : Bool) (rd : Fin 32) (s : State) : Result :=
  .next (s.atomic x f rel 8 .write (fun c => .cond rd.val (c.greg rd.val)))
def execStcW (x : Iss) (f : AddrForm) (rel : Bool) (rd : Fin 32) (s : State) : Result :=
  .next (s.atomic x f rel 4 .write (fun c => .cond rd.val (c.greg rd.val)))
/-- AMO operation `op` of 04 R106. -/
def State.amo (s : State) (x : Iss) (f : AddrForm) (rel : Bool) (op : Nat) (rd : Fin 32) : State :=
  s.atomic x f rel 8 .rw (fun c => .amo op rd.val (c.greg rd.val))
def execAmoaddD (x : Iss) (f : AddrForm) (_acq rel : Bool) (rd : Fin 32) (s : State) : Result := .next (s.amo x f rel 0 rd)
def execAmoswapD (x : Iss) (f : AddrForm) (_acq rel : Bool) (rd : Fin 32) (s : State) : Result := .next (s.amo x f rel 1 rd)
def execAmoandD (x : Iss) (f : AddrForm) (_acq rel : Bool) (rd : Fin 32) (s : State) : Result := .next (s.amo x f rel 2 rd)
def execAmoorD (x : Iss) (f : AddrForm) (_acq rel : Bool) (rd : Fin 32) (s : State) : Result := .next (s.amo x f rel 3 rd)
def execAmomaxuD (x : Iss) (f : AddrForm) (_acq rel : Bool) (rd : Fin 32) (s : State) : Result := .next (s.amo x f rel 4 rd)

/-! ### Line maintenance (04 R113, R114) -/

/-- The kinds of line maintenance that reach other caches. -/
inductive Maint where
  | clean | flush | drop
deriving DecidableEq, Repr

/-- A dirty line that is leaving a cache is written to memory now, or its data are discarded; its WbD goes on as an EvC. -/
def State.settleLeaving (s : State) (line : Nat) (write : Bool) : State :=
  match s.leaving.find? (fun e => e.line == line && e.dirty) with
  | none => s
  | some e =>
    let s1 := if write then s.writeLine line fullMask e.data e.poison else s
    { s1 with
      leaving := s1.leaving.map (fun (x : Leaving) => if x.line = line then { x with dirty := false } else x)
      net := s1.net.map (fun m => if m.kind = .wbd && m.addr = line then { m with kind := .evc, data := [] } else m) }

/-- Perform a maintenance operation on a line in every cache, and on its way out of one (04 Table 5; at once, so that no home's
acknowledgement is waited for, log entry 27). A locked line of an L2 stays: DCFL cleans it, DCIL leaves it unchanged (04 R114). -/
def State.maintain (s0 : State) (k : Maint) (line : Nat) : State :=
  let s := s0.settleLeaving line (k != .drop)
  (List.range 48).foldl (fun t a =>
    let i := 256 + a
    match t.findLine i line with
    | none => t
    | some l0 =>
      if k = .drop && l0.locked then t
      else
        let t1 := if k = .drop then t else if a < 16 then t.mergeL1 a line else t
        let t2 := match t1.findLine i line with
          | some l => if l.st = .m && k != .drop then
              (t1.writeLine line fullMask l.data l.poison).editLine i line (fun u => { u with st := .e }) else t1
          | none => t1
        if k = .clean || l0.locked then t2
        else
          let t3 := if a < 16 then
              ((t2.hosted a).foldl (fun u c => (u.dropL1 c line).dropL1 (128 + c) line) t2).clearResv a line none else t2
          t3.editLine i line (fun _ => Line.none)) s

/-- The directory entry of a line that no cache holds any more is freed. -/
def State.forgetDir (s : State) (line : Nat) : State :=
  if (List.range 48).any (fun a => (s.findLine (256 + a) line).isSome) then s
  else { s with dir := s.dir.filter (fun e => !(e.2.line == line && e.2.busy.isNone)) }

/-- DCCL, DCFL, DCIL: checked as a one-byte access; nothing on a Device or Remote address, on LMEM or SRAM. A line that
the core's own store buffer still writes is waited for: the instruction is presented again then (log entry 34). -/
def State.maintInst (s : State) (x : Iss) (f : AddrForm) (k : Maint) : State :=
  s.issue x .m .core false (if plainForm f then none else some subValue) (fun s =>
    let e := x.eng
    let c := s.core e
    let need : Need := if k = .drop then .write else .read
    match s.checkAccess e c.pc (c.ea c.pc 1 f) 1 need false with
    | .ok ps =>
      let s1 := s.setCore e (((s.entered x .m).promoteParts e (s.talFor e) ps).cost (s.talFor e) false 4)
      if ps.any (fun p => c.sbuf.any (fun b => b.pa / 64 == p.2.2 / 64)) then s.setCore e { c with frozen := some .release }
      else (match ps with
      | p :: _ => (match s.region e p.2.2 with
        | .main line => (s1.maintain k line).forgetDir line
        | _ => s1)
      | [] => s1)
    | r => s.stopAt e need r)

def execDccl (x : Iss) (f : AddrForm) (s : State) : Result := .next (s.maintInst x f .clean)
def execDcfl (x : Iss) (f : AddrForm) (s : State) : Result := .next (s.maintInst x f .flush)
def execDcil (x : Iss) (f : AddrForm) (s : State) : Result := .next (s.maintInst x f .drop)

/-- ICIL: the line leaves the executing core's L1I. -/
def execIcil (x : Iss) (f : AddrForm) (s : State) : Result :=
  .next (s.issue x .m .core false (if plainForm f then none else some subValue) (fun s =>
    let e := x.eng
    let c := s.core e
    match s.checkAccess e c.pc (c.ea c.pc 1 f) 1 .read false with
    | .ok ps =>
      let s1 := s.setCore e (((s.entered x .m).promoteParts e (s.talFor e) ps).cost (s.talFor e) false 4)
      (match e, ps with
      | .lcore l, p :: _ => (match s.region e p.2.2 with
        | .main line => s1.dropL1 l.val line
        | _ => s1)
      | _, _ => s1)
    | r => s.stopAt e .read r))

/-! ### Core events -/

/-- Whether the oldest entry can leave now: it is committed, has not been sent, and under REL every earlier Device or Remote store is
acknowledged (05 R149, 08 R242). An engine that waits or is frozen issues nothing, and its windows close. -/
def SBEntry.leaves (b : SBEntry) (c : Core) : Bool :=
  !b.sent && !b.doomed && (b.commit < c.nxt || !c.ready) && !(b.rel && c.devOut != 0)

/-- The oldest entry is performed or sent on: into LMEM, into a line held in E or M, as IoWr where no cache can keep the line,
as a Device or Remote write; an entry whose line is not held asks for it and waits (05 R133, 08 R237, R241). A demand miss of a store trains
the detectors as a load's does (07 R199, R200); an IoWr ends the reservations of the cluster's other cores (08 R245). -/
def State.drainOne (s : State) (e : Engine) : State :=
  let c := s.core e
  match c.sbuf with
  | [] => s
  | b :: rest =>
    if !b.leaves c then s
    else
      let pid := c.pid e
      let world := s.worldOf e
      let io := fun (agent line : Nat) =>
        if s.wanted agent line then s else
        let s1 := s.setCore e { c with sbuf := { b with sent := true } :: rest }
        s1.request ⟨.iowr, agent, line, pid, world, some (engKey e), false, false, 0⟩ (maskAt (b.pa % 64) b.bytes.length)
          (List.replicate (b.pa % 64) 0 ++ b.bytes) 0
      match s.region e b.pa with
      | .lmem _ => (s.writeRegion e b.pa b.bytes false false).popStore e
      | .sram _ => (s.writeRegion e b.pa b.bytes false false).popStore e
      | .main line => (match e with
        | .lcore l =>
          let k := c.cluster
          let held := s.cacheOn (256 + k) && (s.findLine (256 + k) line).isSome
          if held && s.exclusive k line then
            let s1 := if b.asked then s else s.trainStore l.val line pid world b.old
            (s1.writeHeld l.val line (b.pa % 64) b.bytes b.old b.asked).popStore e
          else if s.canKeep k line pid world then
            let s1 := if b.asked then s
              else
                let t := (s.trainStore l.val line pid world b.old)
                let t1 := if held then t else t.trainL2 k line pid world b.old
                t1.setCore e { t1.core e with sbuf := { b with asked := true } :: rest }
            s1.request ⟨if held then .upg else .rdx, k, line, pid, world, some l.val, false, b.old, 0⟩ 0 [] 0
          else (io k line).clearResv k line (some l.val)
        | _ => io 48 line)
      | .dev =>
        let t := s.target b.pa
        let src := match e with
          | .lcore _ => clusterRouter c.cluster
          | _ => trustRouter
        let m := { Msg.of .dwr src t.router 63 b.pa with
          pid := pid, world := world, mask := b.bytes.length, data := b.bytes, unit := s.unitOf e, lcore := some (engKey e), grant := 1 }
        let s1 := (s.setCore e { c with devOut := c.devOut + 1 }).popStore e
        if s.answers b.pa && !s.isUnmapped pid b.pa then s1.send m else s1.send { m with kind := .absent, dst := src }

def execStoreBufferDrain (eng : Engine) (s : State) : Result := .next (s.drainOne eng)

/-- Whether decode needs the byte at an address now: it lies in the instruction at the pc, which is at most 16 bytes long (03 R56), and no
fetch window holds it (05 R135). Every older branch has resolved when a command is presented. -/
def Core.decodeNeeds (c : Core) (va : W64) : Bool := (va - c.pc).toNat < 16

/-- A fetch that decode does not need: it may fill the L1I, the L2 and the fetch TLB, freezes nothing and raises nothing; where translation
or the Firebreak fails it fills nothing (05 R135, R143, R144). -/
def State.fetchAhead (s : State) (l : Fin 128) (va : W64) : State :=
  let e := Engine.lcore l
  let c := s.core e
  let v := c.fetchView
  let pid := v.pid e
  let world := s.worldOf e
  match s.xlateNow e v true .fetch va with
  | (s1, .ok pa) => (match s1.region e pa with
    | .main line =>
      if !s1.copyAllows pid world true false line then s1
      else if s1.cacheOn l.val && (s1.findLine l.val line).isSome then s1.touch l.val line
      else if s1.cacheOn (256 + c.cluster) && (s1.findLine (256 + c.cluster) line).isSome then
        ((s1.mergeL1 c.cluster line).touch (256 + c.cluster) line).fillL1 l.val line false false
      else if s1.canKeep c.cluster line pid world then s1.request ⟨.rds, c.cluster, line, pid, world, none, false, false, 0⟩ 0 [] 0
      else s1
    | _ => s1)
  | _ => s

/-- FETCH_FILL: the bytes at `va` are fetched. The fetch is translated under the old mode in a shadow (05 R153); L1I and own
LMEM cost nothing, the L2 16 cycles, anything further holds the core until the line arrives (05 R135). Bytes that the store buffer still
holds are waited for, so that what is fetched is what was stored (05 R159; log entry 166). A region denial or
Absent is Firebreak denial; a fetch from a Device address counts as denied (log entry 35). -/
def State.fetchFill (s : State) (e : Engine) (va : W64) : State :=
  let c := s.core e
  let ready := c.run && !c.halted && !c.pausing && c.wait.isNone && c.exc.isNone && (c.frozen.isNone || c.frozen == some (.fetch va))
  if !ready || isJug e then s
  else if !c.decodeNeeds va then
    (match e with
    | .lcore l => s.fetchAhead l va
    | _ => s)
  else
    let v := c.fetchView
    let on := s.talFor e
    let done := fun (t : State) (n : Nat) =>
      let k := t.core e
      t.setCore e (({ k with frozen := none, win := some c.pc }).oweFront on n)
    let hold := fun (t : State) => t.setCore e { t.core e with frozen := some (.fetch va) }
    match v.lookup e true .fetch va with
    | (.miss, _) => s.setCore e { c with frozen := some (.walk va true false) }
    | (.fault cs d l sw ipa, _) => s.fetchExc e (faultExc cs d l sw ipa va c.pc)
    | (.ok pa, stlb) =>
      let s1 := if stlb then s.setCore e (((c.promote e true va).oweBack on 3).count on 9 1) else s
      if c.sbuf.any (fun b => b.pa / 64 == pa / 64) then hold s1
      else match s1.region e pa with
      | .lmem _ => done s1 0
      | .sram _ => done s1.used (if bitOf (Config.freeValue s1.fresh) 0 then 6 else 0)
      | .dev =>
        if s.isUnmapped (v.pid e) pa then
          (s1.logUnmapped (s.unitOf e) (v.pid e) (s.worldOf e) pa).fetchExc e (denialExc 2 va c.pc)
        else s1.fetchExc e (denialExc 1 va c.pc)
      | .main line => (match e with
        | .lcore l =>
          let pid := v.pid e
          let world := s.worldOf e
          if !s1.copyAllows pid world true false line then
            (s1.recordDenial (homeOf line) pid world false pa).fetchExc e (denialExc 1 va c.pc)
          else if s1.cacheOn l.val && (s1.findLine l.val line).isSome then done (s1.touch l.val line) 0
          else if s1.cacheOn (256 + c.cluster) && (s1.findLine (256 + c.cluster) line).isSome then
            done (((s1.mergeL1 c.cluster line).touch (256 + c.cluster) line).fillL1 l.val line false false) 16
          else if s.canKeep c.cluster line pid world then
            ((hold s1).trainL2 c.cluster line pid world false).request ⟨.rds, c.cluster, line, pid, world, none, false, false, 0⟩ 0 [] 0
          else (hold s1).request ⟨.iord, c.cluster, line, pid, world, none, false, false, 0⟩ 0 [] 0
        | _ => (hold s1).request ⟨.iord, 48, line, 255, true, none, false, false, 0⟩ 0 [] 0)

def execFetchFill (eng : Engine) (va : W64) (s : State) : Result := .next (s.fetchFill eng va)

end Sys2Proof.Machine
end

