-- ==== Sys2Proof/Machine/Coherence.lean ====
section
/-! DEFINITION. The coherence protocol (08): directories, the actions of a home on a request, snoop answers, races, Retry and
credits, dead agents. A request, answer or snoop command takes the message it names out of the fabric, where one is under way,
and acts on the command's operands. -/
namespace Sys2Proof.Machine

/-! ### Homes -/

def State.home (s : State) (h : Nat) : Home := KV.get Home.reset s.homes h
def State.setHome (s : State) (h : Nat) (x : Home) : State := { s with homes := KV.set Home.reset s.homes h x }

/-- The transactions in progress at a home in its general tracker. -/
def State.busyCount (s : State) (h : Nat) : Nat :=
  (s.dir.filter (fun e => e.1 / 131072 == h && (match e.2.busy with
    | some t => (match t.req with
      | some r => !r.credit
      | none => true)
    | none => false))).length

/-! ### Answers -/

/-- Send a line, or Poison when every word is poisoned, with a grant (0 none, 1 S, 2 E). -/
def State.sendData (s : State) (r : HomeReq) (data : List Byte) (poison : BitVec 8) (grant : Nat) : State :=
  s.send { Msg.of (if poison = 255 then .poison else .data) (homeRouter (homeOf r.line)) (agentRouter r.agent) r.agent r.line with
    tag := r.tag, pid := r.pid, world := r.world, data := data, poison := poison, grant := grant }

/-- Send Ack to an agent, with the tag, PID and world of what it ends (08 R222). -/
def State.sendAck (s : State) (line agent tag pid : Nat) (world : Bool) (grant : Nat) : State :=
  s.send { Msg.of .ack (homeRouter (homeOf line)) (agentRouter agent) agent line with tag := tag, pid := pid, world := world, grant := grant }

/-- Answer a request with Retry; with a credit when the agent's reserved entry is free (08 R226). -/
def State.sendRetry (s : State) (r : HomeReq) : State :=
  let h := homeOf r.line
  let x := s.home h
  let free := !x.credits.contains r.agent
  let s1 := if free then s.setHome h { x with credits := x.credits ++ [r.agent] } else s
  (s1.blockEvent (0x500 + h) 2 r.pid 1).send { Msg.of .retry (homeRouter h) (agentRouter r.agent) r.agent r.line with
    tag := r.tag, pid := r.pid, world := r.world, credit := free }

/-- The entry and interrupt of a home's protocol event (09 Error reporting, k = 3). -/
def State.protoEvent (s : State) (line : Nat) : State :=
  s.homeEvent (homeOf line) (some 3) (0x500 + homeOf line) clsContained (line * 64) 0

/-- A snooped agent has not answered: the report to Lookout and the entry of R233. -/
def State.snoopReport (s : State) (key agent : Nat) : State :=
  let d := s.dirAt key
  match d.busy with
  | none => s
  | some t =>
    let n := (t.reports.find? (fun e => e.1 == agent)).map (·.2) |>.getD 0
    (s.putDir key { d with busy := some { t with reports := t.reports.filter (fun e => e.1 != agent) ++ [(agent, n + 1)] } }).protoEvent
      d.line

/-- Snoop agents for an entry in transaction: SnpS, SnpI or SnpX, with the tag, PID and world of the request that it is for (08 R222); an agent
that is off is reported at once (10 R279). -/
def State.snoop (s : State) (key : Nat) (kind : MsgKind) (agents : List Nat) (r : HomeReq) : State :=
  let line := (s.dirAt key).line
  agents.foldl (fun t a =>
    if t.inService (agentRouter a) then
      (t.blockEvent (0x500 + homeOf line) 7 256 1).send { Msg.of kind (homeRouter (homeOf line)) (agentRouter a) a line with
        tag := r.tag, pid := r.pid, world := r.world }
    else t.snoopReport key a) s

/-! ### The home's work -/

/-- What a home turns to: a request, or the end of a transaction on a line, after which waiting credited requests are
considered in their order. -/
inductive HomeWork where
  | req (r : HomeReq)
  | done (h : Nat)
deriving DecidableEq, Repr

/-- A transaction at a home begins: agents are snooped. It keeps the mode in force (08 R236). -/
def State.newTxn (s : State) (h : Nat) (r : Option HomeReq) (waits : List Nat) (wait : Option HomeReq) : Txn :=
  { req := r, waits := waits, evicted := [], got := none, reports := [], lostOwner := false, wait := wait,
    fore := s.flag (.dirctl h) Fld.dirctlMode, tmo := s.fld (.dirctl h) Fld.dirctlTmo, since := s.mtime.toNat }

/-- The end of a request's credit. -/
def State.endCredit (s : State) (r : HomeReq) : State :=
  if r.credit then
    let h := homeOf r.line
    let x := s.home h
    s.setHome h { x with credits := x.credits.filter (fun a => a != r.agent) }
  else s

/-- Messages of an agent that Lookout has declared dead are dropped and logged (08 R234). -/
def State.fromDead (s : State) (agent : Nat) : Bool := agent < 48 && s.lko.dead.contains (agentDomain agent)

/-- A late answer of an agent that was removed from a line: it is dropped, and SnpI has the agent keep no copy (08 R235). -/
def State.lateAnswer (s : State) (agent line : Nat) : State :=
  let h := homeOf line
  let x := s.home h
  if x.late.contains (agent, line) then
    (s.setHome h { x with late := x.late.erase (agent, line) }).send (Msg.of .snpi (homeRouter h) (agentRouter agent) agent line)
  else s

/-- Complete a request whose snoops, if any, have been answered, on the entry at `key`: Table 6, and R229 where the owner was
already leaving. `got` is dirty data an answer brought. A requester that has died meanwhile receives no copy: the entry is left as the
snoops leave it (08 R234). -/
def State.complete (s : State) (key : Nat) (d : DirEnt) (r : HomeReq) (got : Option (List Byte × BitVec 8)) (lost : Bool) :
    State :=
  let s0 := (match got with
    | some g => s.writeLine r.line fullMask g.1 g.2
    | none => s).endCredit r
  let own := { DirEnt.none with line := r.line, owner := some r.agent, age := d.age }
  let free := DirEnt.none
  let read := s0.readLine r.line
  let exclusive := (read.1.putDir key own).sendData r read.2.1 read.2.2 2
  if s.fromDead r.agent && r.kind != .iowr then
    let e := { (if r.kind = .rds || r.kind = .iord then match d.owner with
      | some o => if lost then free else { own with owner := none, shares := shareBit o }
      | none => { d with busy := none } else free) with busy := none }
    let e1 := { e with shares := e.shares &&& ~~~ (shareBit r.agent) }
    s0.putDir key (if e1.used then e1 else free)
  else match r.kind with
  | .rds =>
    (match d.owner with
    | some o =>
      if lost || o = r.agent then exclusive
      else (read.1.putDir key { own with owner := none, shares := shareBit o ||| shareBit r.agent }).sendData r read.2.1 read.2.2 1
    | none =>
      if d.shares = 0 then exclusive
      else (read.1.putDir key { own with owner := none, shares := d.shares ||| shareBit r.agent }).sendData r read.2.1 read.2.2 1)
  | .upg =>
    if d.owner.isNone && d.shares.getLsbD r.agent then (s0.putDir key own).sendAck r.line r.agent r.tag r.pid r.world 2
    else exclusive
  | .rdx => exclusive
  | .iord =>
    let d' := match d.owner with
      | some o => if lost then free else { own with owner := none, shares := shareBit o }
      | none => { d with busy := none }
    (read.1.putDir key d').sendData r read.2.1 read.2.2 0
  | .iowr => ((s0.writeLine r.line r.mask r.data r.poison).putDir key free).sendAck r.line r.agent r.tag r.pid r.world 0
  | _ => s

/-- Begin an accepted request on its line's entry: Table 6. -/
def State.begin (s : State) (key : Nat) (r : HomeReq) : State × List HomeWork :=
  let d := { s.dirAt key with line := r.line }
  let others := d.holders.filter (fun a => a != r.agent)
  let plan : MsgKind × List Nat :=
    match r.kind with
    | .rds => (.snps, if d.owner.isSome then others else [])
    | .rdx => (if d.owner.isSome then .snpx else .snpi, others)
    | .upg => (if d.owner.isSome then .snpx else .snpi, others)
    | .iord => (.snps, if d.owner.isSome then d.holders else [])
    | .iowr => (if d.owner.isSome then .snpx else .snpi, d.holders)
    | _ => (.snps, [])
  if plan.2.isEmpty then (s.complete key d r none false, [.done (homeOf r.line)])
  else ((s.putDir key { d with busy := some (s.newTxn (homeOf r.line) (some r) plan.2 none) }).snoop key plan.1 plan.2 r, [])

/-- A second-copy line, which only the Trust Core reaches: that copy alone is read or written (09 R260). -/
def State.rawLine (s : State) (r : HomeReq) : State :=
  if r.kind = .iord then let x := s.rawRead r.line; s.sendData r x.1 x.2 0
  else (s.rawWrite r.line r.mask r.data r.poison).sendAck r.line r.agent r.tag r.pid r.world 0

/-- A request the home does not permit, though the copy did: Absent, an entry, and the requester's copy is reloaded (15 R397). -/
def State.homeDenies (s : State) (r : HomeReq) : State :=
  let h := homeOf r.line
  let write := r.kind == .rdx || r.kind == .upg || r.kind == .iowr
  let s1 := (s.recordDenial h r.pid r.world write (r.line * 64)).endCredit r
  let s2 := if r.agent < 48 && !s1.fw.reload.contains r.agent then { s1 with fw := { s1.fw with reload := s1.fw.reload ++ [r.agent] } } else s1
  s2.send { Msg.of .absent (homeRouter h) (agentRouter r.agent) r.agent (r.line * 64) with tag := r.tag }

/-- A home has accepted a request (21 Table 3). -/
def State.countTaken (s : State) (r : HomeReq) : State :=
  let t := s.blockEvent (0x500 + homeOf r.line) 1 r.pid 1
  if r.credit then t.blockEvent (0x500 + homeOf r.line) 3 r.pid 1 else t

/-- A home considers a request (08 R224, R226, R232). -/
def State.consider (s : State) (r : HomeReq) : State × List HomeWork :=
  let h := homeOf r.line
  let write := r.kind == .rdx || r.kind == .upg || r.kind == .iowr
  let turnAway : State × List HomeWork :=
    if r.credit then
      let x := s.home h
      (s.setHome h { x with queue := x.queue ++ [r] }, [])
    else (s.sendRetry r, [])
  if !s.unitAllows h r.pid r.world (!write) write (r.line * 64) then (s.homeDenies r, [.done h])
  else if s.isSecond r.line then ((((s.countTaken r).rawLine r).endCredit r), [.done h])
  else if s.lineBusy r.line || (!r.credit && 64 ≤ s.busyCount h) then turnAway
  else match s.findDir r.line with
    | some k => State.begin ((s.countTaken r).putDir k { s.dirAt k with age := 0 }) k r
    | none =>
      if r.kind = .iord then
        let read := (s.countTaken r).readLine r.line
        ((read.1.sendData r read.2.1 read.2.2 0).endCredit r, [.done h])
      else if r.kind = .iowr then
        ((((s.countTaken r).writeLine r.line r.mask r.data r.poison).sendAck r.line r.agent r.tag r.pid r.world 0).endCredit r, [.done h])
      else match (s.dirKeys r.line).find? (fun k => !(s.dirAt k).used) with
        | some k => State.begin ((s.countTaken r).putDir k { DirEnt.none with age := 1 }) k r
        | none =>
          if s.setBusy r.line then turnAway
          else
            let v := s.dirVictim r.line
            match v.2 with
            | none => (v.1, [])
            | some k =>
              let d := v.1.dirAt k
              (((v.1.blockEvent (0x500 + h) 6 r.pid 1).putDir k { d with busy := some (s.newTxn h none d.holders (some r)) }).snoop k
                (if d.owner.isSome then .snpx else .snpi) d.holders r, [])

/-- The first credited request that can be considered now. -/
def State.nextQueued (s : State) (h : Nat) : Option HomeReq :=
  (s.home h).queue.find? (fun r => !s.lineBusy r.line && ((s.findDir r.line).isSome || !s.setBusy r.line))

/-- A home works off requests and ends of transactions; each one considered once, so that the fuel is the number of credited
requests waiting, twice over. -/
def State.homeRun : Nat → List HomeWork → State → State
  | 0, _, s => s
  | _ + 1, [], s => s
  | fuel + 1, .req r :: ws, s =>
    let a := s.consider r
    State.homeRun fuel (a.2 ++ ws) a.1
  | fuel + 1, .done h :: ws, s =>
    match s.nextQueued h with
    | some r =>
      let x := s.home h
      State.homeRun fuel (.req r :: .done h :: ws) (s.setHome h { x with queue := x.queue.erase r })
    | none => State.homeRun fuel ws s

def State.runHome (s : State) (ws : List HomeWork) : State := State.homeRun 256 ws s

/-- The transaction on an entry ends when no answer is awaited: a directory eviction frees the entry and the waiting request
proceeds (08 R232); a request completes. -/
def State.settle (s : State) (key : Nat) : State :=
  let d := s.dirAt key
  match d.busy with
  | none => s
  | some t =>
    if !t.waits.isEmpty then s
    else
      let h := key / 131072
      match t.req with
      | some r => (s.complete key { d with busy := none } r t.got t.lostOwner).runHome [.done h]
      | none =>
        let s1 := (match t.got with
          | some g => s.writeLine d.line fullMask g.1 g.2
          | none => s).putDir key DirEnt.none
        match t.wait with
        | some r => s1.runHome (if s1.fromDead r.agent then [.done h] else [.req r, .done h])
        | none => s1.runHome [.done h]

/-- An agent that was named in an entry and no longer holds the line. -/
def DirEnt.without (d : DirEnt) (a : Nat) : DirEnt :=
  if d.owner = some a then { d with owner := .none } else { d with shares := d.shares &&& ~~~ (shareBit a) }

/-- The entry in transaction that awaits an agent's answer for a line. -/
def State.awaiting (s : State) (agent line : Nat) : Option (Nat × DirEnt × Txn) :=
  match s.findDir line with
  | none => none
  | some k =>
    let d := s.dirAt k
    match d.busy with
    | some t => if t.waits.contains agent then some (k, d, t) else none
    | none => none

/-- A full answer of a snooped agent, with dirty data or none. -/
def State.answered (s : State) (agent line : Nat) (data : Option (List Byte × BitVec 8)) : State :=
  match s.awaiting agent line with
  | none => s.lateAnswer agent line
  | some (k, d, t) =>
    let t' := { t with
      waits := t.waits.erase agent
      got := if data.isSome then data else t.got
      reports := t.reports.filter (fun e => e.1 != agent) }
    (s.putDir k { d with busy := some t' }).settle k

/-- AckEvicted, or the WbD or EvC that goes with it: when the second of the two has come the agent holds no copy, and the
transaction goes on with a directory that does not name it (08 R229). -/
def State.oneOfPair (s : State) (agent line : Nat) (data : Option (List Byte × BitVec 8)) : State :=
  match s.awaiting agent line with
  | none => s.lateAnswer agent line
  | some (k, d, t) =>
    let got := if data.isSome then data else t.got
    if t.evicted.contains agent then
      let t' := { t with
        waits := t.waits.erase agent
        evicted := t.evicted.erase agent
        got := got
        lostOwner := t.lostOwner || d.owner == some agent
        reports := t.reports.filter (fun e => e.1 != agent) }
      let d' := if d.owner = some agent then d else d.without agent
      (s.putDir k { d' with busy := some t' }).settle k
    else s.putDir k { d with busy := some { t with evicted := t.evicted ++ [agent], got := got } }

/-! ### Requests that reach a home -/

/-- Take a message out of the fabric, where one is under way. -/
def State.consume (s : State) (f : Msg → Bool) : State × Option Msg :=
  match s.takeMsg f with
  | some (m, t) => (t, some m)
  | none => (s, none)

/-- An evicted line reaches its home: a dirty one is written to memory, and the sender leaves the entry; while the line is in
transaction for the sender's copy it is the answer of R229, R230. -/
def State.evicted (s : State) (agent line tag pid : Nat) (world : Bool) (data : Option (List Byte × BitVec 8)) : State :=
  let ack := fun (t : State) => t.sendAck line agent tag pid world 0
  match s.awaiting agent line with
  | some _ => ack (s.oneOfPair agent line data)
  | none =>
    match s.findDir line with
    | none => ack (s.lateAnswer agent line)
    | some k =>
      let d := s.dirAt k
      if !d.holders.contains agent then ack (s.lateAnswer agent line)
      else
        let s1 := match data with
          | some g => if d.owner = some agent then s.writeLine line fullMask g.1 g.2 else s
          | none => s
        ack (s1.putDir k (let e := d.without agent; if e.used then e else DirEnt.none))

/-- Take the WbD or EvC of an agent for a line that is under way before a request of the same agent: the fabric keeps their
order, and it is applied first (08 R225). -/
def State.evictFirst (s : State) (agent line : Nat) : State :=
  match s.takeMsg (fun m => (m.kind == .wbd || m.kind == .evc) && m.agent == agent && m.addr == line) with
  | some (m, t) => t.evicted agent line m.tag m.pid m.world (if m.kind = .wbd then some (m.data, m.poison) else none)
  | none => s

/-- Whether a home works, and whether an agent's requests to it wait for a reload of its verdict copy (15 R397). -/
def State.homeTakes (s : State) (agent line : Nat) : Bool :=
  s.inService (homeRouter (homeOf line)) && !s.fw.reload.contains agent

/-- The unit that the entry of an unmapped address names for an agent (01 R13): for a cluster, the leading core the request is made for,
or the L2 where it is made for none (DESIGN CHOICE, log entry 158). -/
def State.agentUnit (s : State) (agent line : Nat) : Nat :=
  if agent < 16 then
    match (s.wants.find? (fun w => w.agent == agent && w.line == line)).bind (·.l1) with
    | some l => s.unitOf (engOf l)
    | none => 0x10F + agent * 16
  else if agent < 48 then 0x300 + (agent - 16) * 8 + 7 else if agent = 48 then 0x700 else 0x7F0

/-- The fabric answers a request for a second copy itself (01 R13, R15). -/
def State.answerUnmapped (s : State) (r : HomeReq) : State :=
  let x := agentRouter r.agent
  (s.logUnmapped (s.agentUnit r.agent r.line) r.pid r.world (r.line * 64)).send
    { Msg.of .absent x x r.agent (r.line * 64) with tag := r.tag }

/-- A request reaches its line's home. -/
def State.homeRequest (s : State) (r : HomeReq) : State :=
  if !s.homeTakes r.agent r.line then s
  else
    let s0 := s.evictFirst r.agent r.line
    let a := s0.consume (fun m => m.kind == r.kind && m.agent == r.agent && m.addr == r.line)
    if s.fromDead r.agent then a.1.logEvent (0x500 + homeOf r.line) clsContained (r.line * 64) 0
    else if s.isUnmapped r.pid (r.line * 64) then a.1.answerUnmapped r
    else a.1.runHome [.req r, .done (homeOf r.line)]

/-- The request that a command's operands name. -/
def reqOf (k : MsgKind) (q : HReq) (mask : Nat) (data : List Byte) (poison : BitVec 8) : HomeReq :=
  ⟨k, q.agent.val, q.line.toNat, q.tag.toNat, q.pid.toNat, q.world, mask, padTo 64 0 data, poison, q.credit⟩

def execRds (q : HReq) (s : State) : Result := .next (s.homeRequest (reqOf .rds q 0 [] 0))
def execRdx (q : HReq) (s : State) : Result := .next (s.homeRequest (reqOf .rdx q 0 [] 0))
def execUpg (q : HReq) (s : State) : Result := .next (s.homeRequest (reqOf .upg q 0 [] 0))
def execIord (q : HReq) (s : State) : Result := .next (s.homeRequest (reqOf .iord q 0 [] 0))
def execIowr (q : HReq) (mask : BitVec 64) (data : List Byte) (poison : BitVec 8) (s : State) : Result :=
  .next (s.homeRequest (reqOf .iowr q mask.toNat data poison))

/-- WbD and EvC are applied on arrival and never answered with Retry (08 R227). -/
def State.homeEvict (s : State) (k : MsgKind) (q : HReq) (data : Option (List Byte × BitVec 8)) : State :=
  let line := q.line.toNat
  let a := q.agent.val
  if !s.inService (homeRouter (homeOf line)) then s
  else
    let t := (s.consume (fun m => m.kind == k && m.agent == a && m.addr == line)).1
    if s.fromDead a then t.logEvent (0x500 + homeOf line) clsContained (line * 64) 0
    else t.evicted a line q.tag.toNat q.pid.toNat q.world data

def execWbd (q : HReq) (data : List Byte) (poison : BitVec 8) (s : State) : Result :=
  .next (s.homeEvict .wbd q (some (padTo 64 0 data, poison)))
def execEvc (q : HReq) (s : State) : Result := .next (s.homeEvict .evc q none)

/-! ### Slots (10 R280-R282) -/

/-- Whether a partition owns slot `n` of a home. -/
def State.ownsSlot (s : State) (h n pid : Nat) : Bool :=
  s.flag (.fbslot h n) Fld.fbslotEn && s.fld (.fbslot h n) Fld.fbslotPid == pid

/-- RES of a request: its partition owns a slot at the home (10 R282). -/
def State.reserved (s : State) (h pid : Nat) : Bool := (List.range 250).any (fun n => s.ownsSlot h n pid)

/-- The message of a request that waits for admission at a home. -/
def waitsAt (h : Nat) (m : Msg) : Bool :=
  m.dst == homeRouter h && (m.kind == .rds || m.kind == .rdx || m.kind == .upg || m.kind == .iord || m.kind == .iowr)

def Msg.toReq (m : Msg) : HomeReq :=
  ⟨m.kind, m.agent, m.addr, m.tag, m.pid, m.world, m.mask, padTo 64 0 m.data, m.poison, m.credit⟩

/-- A prefetch, the one RdS with DEM = 0 (10 R282). -/
def Msg.isPrefetch (m : Msg) : Bool := m.kind == .rds && !m.dem

/-- The requests that a prefetch of their cluster does not overtake: a prefetch is left out while a demand of its cluster waits (07 R201). -/
def demandFirst (ws : List Msg) : List Msg :=
  ws.filter (fun m => !(m.isPrefetch && ws.any (fun d => !d.isPrefetch && d.agent == m.agent)))

/-- The two requests a slot admits, in order (10 R281); a prefetch uses its own partition's slots and those that no partition owns (07 R201). -/
def State.admits (s : State) (h n : Nat) : List Msg :=
  let ws := s.net.filter (fun m => waitsAt h m && s.homeTakes m.agent m.addr &&
    !(m.isPrefetch && s.flag (.fbslot h n) Fld.fbslotEn && !s.ownsSlot h n m.pid))
  let mine := (demandFirst ws).filter (fun m => s.ownsSlot h n m.pid)
  let a := match mine.find? (fun m => m.dem) with
    | some m => some m
    | none => mine.head?
  let rest := demandFirst (match a with
    | some m => ws.erase m
    | none => ws)
  let b := match rest.find? (fun m => s.reserved h m.pid) with
    | some m => some m
    | none => rest.head?
  a.toList ++ b.toList

/-- Requests to one line in one slot are ordered by agent number from P, and P moves on (08 R225). -/
def State.arbitrate (s : State) (h : Nat) (ms : List Msg) : State × List Msg :=
  match ms with
  | [a, b] =>
    if a.addr = b.addr then
      let x := s.home h
      let rank := fun (m : Msg) => (m.agent + 50 - x.arb) % 50
      let o := if rank b < rank a then (b, a) else (a, b)
      (s.setHome h { x with arb := (o.1.agent + 1) % 50 }, [o.1, o.2])
    else (s, ms)
  | _ => (s, ms)

def execSlotAdmission (h : Fin 8) (n : Fin 250) (s : State) : Result :=
  let ms := s.admits h.val n.val
  let counted := ms.zipIdx.foldl (fun t e =>
    t.blockEvent (0x500 + h.val) (if e.2 = 0 && s.ownsSlot h.val n.val e.1.pid then 4 else 5) e.1.pid 1) s
  let a := counted.arbitrate h.val ms
  .next (a.2.foldl (fun t m => t.homeRequest m.toReq) a.1)

/-! ### Snooped caches (08 R223) -/

/-- Answer a snoop: Table 5, with its tag, PID and world (08 R222). SnpI and SnpX end locks and reservations on the line (08 R245). -/
def State.snooped (s : State) (k : MsgKind) (agent line : Nat) : State :=
  if !s.inService (agentRouter agent) then s
  else
    let a := s.consume (fun m => m.kind == k && m.dst == agentRouter agent && m.agent == agent && m.addr == line)
    let u := if agent < 16 then a.1.blockEvent (0x10F + agent * 16) 3 256 1 else a.1
    let t := if agent < 16 && k != .snps then u.clearResv agent line none else u
    let reply := fun (kind : MsgKind) => { Msg.of kind (agentRouter agent) (homeRouter (homeOf line)) agent line with
      tag := (a.2.map (·.tag)).getD 0, pid := (a.2.map (·.pid)).getD 0, world := (a.2.map (·.world)).getD false }
    if t.leaving.any (fun e => e.agent == agent && e.line == line) then t.send (reply .ackEvicted)
    else
      let t1 := if agent < 16 then t.mergeL1 agent line else t
      match t1.findLine (256 + agent) line with
      | none => t1.send (reply .ack)
      | some l =>
        let t2 :=
          if k = .snps then
            ((if agent < 16 then
                (t1.hosted agent).foldl (fun u c => u.editLine (128 + c) line (fun x => { x with st := .s })) t1 else t1).editLine
              (256 + agent) line (fun x => { x with st := .s }))
          else
            (if agent < 16 then ((t1.lapse agent line).backInval agent line) else t1).editLine
              (256 + agent) line (fun _ => Line.none)
        t2.send (if l.st = .m then { reply .data with data := l.data, poison := l.poison } else reply .ack)

def execSnps (agent : Fin 48) (line : BitVec 34) (s : State) : Result := .next (s.snooped .snps agent.val line.toNat)
def execSnpi (agent : Fin 48) (line : BitVec 34) (s : State) : Result := .next (s.snooped .snpi agent.val line.toNat)
def execSnpx (agent : Fin 48) (line : BitVec 34) (s : State) : Result := .next (s.snooped .snpx agent.val line.toNat)

/-- ACKEVICTED reaches the home. -/
def execAckevicted (agent : Fin 48) (line : BitVec 34) (s : State) : Result :=
  let l := line.toNat
  let t := (s.consume (fun m => m.kind == .ackEvicted && m.agent == agent.val && m.addr == l)).1
  .next (if s.fromDead agent.val then t.logEvent (0x500 + homeOf l) clsContained (l * 64) 0 else t.oneOfPair agent.val l none)

/-! ### Answers that reach an agent -/

/-- The engines that wait behind an agent: the cores of a cluster, or the Trust Core. -/
def State.behind (s : State) (agent : Nat) : List Nat :=
  if agent < 16 then s.hosted agent else if agent = 48 then [128] else []

/-- A line bound to the parts of the accesses that wait for it (08 R237). -/
def bindPieces (line : Nat) (data : List Byte) (poison : BitVec 8) (ps : List Piece) : List Piece :=
  ps.map (fun p =>
    if p.got.isNone && p.pa / 64 = line then
      { p with got := some ((data.drop (p.pa % 64)).take p.n)
               poison := poisonAt poison (p.pa % 64) p.n }
    else p)

/-- Give a line's bytes to what waits for them without a cached copy: loads, and a fetch. -/
def State.bindLine (s : State) (agent line : Nat) (data : List Byte) (poison : BitVec 8) : State :=
  (s.behind agent).foldl (fun t k =>
    let e := engOf k
    let c := t.core e
    match c.frozen with
    | some (.access a) => t.setCore e { c with frozen := some (.access { a with pieces := bindPieces line data poison a.pieces }) }
    | some (.fetch va) =>
      (match c.fetchView.lookup e true .fetch va with
      | (.ok pa, _) => if pa / 64 = line then t.setCore e { c with frozen := none, win := some c.pc } else t
      | _ => t)
    | _ => t) s

/-- A line with its grant reaches a requester: it is installed, or a cache that has no place for it gives it up again after
its bytes have been used (07 R195, 08 R220). -/
def State.gotLine (s : State) (w : Want) (data : List Byte) (poison : BitVec 8) (grant : Nat) : State :=
  let s1 := { s with wants := s.wants.erase w }
  let i := 256 + w.agent
  if grant = 0 || 48 ≤ w.agent then s1.bindLine w.agent w.line data poison
  else
    let l : Line := ⟨if grant = 2 then .e else .s, w.line, data, poison, false, fillAge w.pf w.old, w.pf⟩
    if (s1.findWay i w.line).isSome then
      s1.editLine i w.line (fun u => if u.st = .m then u else { l with locked := u.locked })
    else
      let a := s1.install i w.pid w.world l
      if a.2 then (match w.l1 with
        | some k => if w.agent < 16 && (a.1.hosted w.agent).contains k then a.1.fillL1 (128 + k) w.line w.pf w.old else a.1
        | none => a.1)
      else (a.1.bindLine w.agent w.line data poison).leave w.agent w.line false [] 0 w.pid w.world

/-- A message Data or Poison to a requester. -/
def State.lineArrives (s : State) (k : MsgKind) (agent line : Nat) : State :=
  let a := s.consume (fun m => m.kind == k && m.dst == agentRouter agent && m.agent == agent && m.addr == line
    && m.src == homeRouter (homeOf line))
  match a.2, a.1.wants.find? (fun w => w.agent == agent && w.line == line) with
  | some m, some w => a.1.gotLine w m.data m.poison m.grant
  | _, _ => a.1

/-- A Data message reaches a home as a snooped cache's dirty line, and any other router as a line with its grant. -/
def State.dataArrives (s : State) (dst agent l : Nat) : State :=
  if dst = homeRouter (homeOf l) then
    let a := s.consume (fun m => m.kind == .data && m.dst == dst && m.agent == agent && m.addr == l)
    match a.2 with
    | none => s
    | some m =>
      if s.fromDead agent then a.1.logEvent (0x500 + homeOf l) clsContained (l * 64) 0
      else a.1.answered agent l (some (m.data, m.poison))
  else if dst = agentRouter agent then s.lineArrives .data agent l
  else s

/-- DATA reaches its destination with `flip` the header bits in error: a mismatching pair discards it, and one that names another code or line
after an error in both halves of a pair ends as an answer that nobody awaits; a code that is never sent is logged (10 R272, R273). -/
def execData (dst : Router) (agent : Fin 50) (d : DataCall) (s : State) : Result :=
  let l := d.line.toNat
  let bad := if d.flip = 0 then none else
    s.net.find? (fun m => m.kind == .data && m.dst == dst.val && m.agent == agent.val && m.addr == l)
  .next (match bad with
    | some m =>
      let h := m.header ^^^ d.flip
      if !pairsHold h then s.mismatch m
      else if h.extractLsb' 0 6 != m.header.extractLsb' 0 6 || h.extractLsb' 30 34 != m.header.extractLsb' 30 34 then
        let t := (s.consume (fun x => x == m)).1
        if codeUsed (h.extractLsb' 0 6).toNat then t
        else t.logEvent ((if s.planeNow m.src m.dst then 0x640 else 0x600) + m.dst) clsContained 0 0
      else s.dataArrives dst.val agent.val l
    | none => s.dataArrives dst.val agent.val l)

def execPoison (agent : Fin 50) (line : BitVec 34) (s : State) : Result := .next (s.lineArrives .poison agent.val line.toNat)

/-- An agent's Ack: Upg has made its copy exclusive, a leaving line is gone, or an uncached write has been performed. -/
def State.agentAck (s : State) (agent line grant : Nat) : State :=
  let want := s.wants.find? (fun w => w.agent == agent && w.line == line && (if grant = 2 then w.kind == .upg else w.kind == .iowr))
  let gone := s.leaving.find? (fun e => e.agent == agent && e.line == line && e.sent)
  if grant = 2 then
    match want with
    | some w => ({ s with wants := s.wants.erase w }).editLine (256 + agent) line (fun (u : Line) => { u with st := if u.st = LineSt.s then .e else u.st })
    | none => s
  else match gone with
    | some e => State.sendLeaving { s with leaving := s.leaving.erase e } agent (homeOf line)
    | none => match want with
      | some w =>
        let s1 := { s with wants := s.wants.erase w }
        (match w.l1 with
        | some k => (match (s1.core (engOf k)).sbuf with
          | b :: _ => if b.sent && b.pa / 64 = line then s1.popStore (engOf k) else s1
          | [] => s1)
        | none => s1)
      | none => s

/-- ACK: to a home a snoop's answer without data, to any other router the end of a request. -/
def execAck (dst : Router) (agent : Fin 50) (line : BitVec 34) (s : State) : Result :=
  let l := line.toNat
  let a := s.consume (fun m => m.kind == .ack && m.dst == dst.val && m.agent == agent.val && m.addr == l)
  .next (match a.2 with
    | none => s
    | some m =>
      if dst.val = homeRouter (homeOf l) then
        if s.fromDead agent.val then a.1.logEvent (0x500 + homeOf l) clsContained (l * 64) 0
        else a.1.answered agent.val l none
      else a.1.agentAck agent.val l m.grant)

/-- RETRY: the agent sends the request again, with the credit when it received one. Without one it waits until its credited
request at that home has been accepted (08 R226). -/
def State.resend (s : State) (agent line : Nat) : State :=
  let h := homeOf line
  let mine := fun (m : Msg) => m.kind == .retry && m.agent == agent && m.addr == line
  match s.net.find? mine with
  | none => s
  | some m =>
    if !m.credit && s.net.any (fun x => waitsAt h x && x.agent == agent && x.credit) then s
    else
      let t := (s.consume mine).1
      match t.wants.find? (fun w => w.agent == agent && w.line == line) with
      | none => t
      | some w =>
        let b := match w.l1 with
          | some k => (t.core (engOf k)).sbuf.head?
          | none => none
        let body : Nat × List Byte := match b with
          | some e => if w.kind = .iowr && e.pa / 64 = line then
              (maskAt (e.pa % 64) e.bytes.length, List.replicate (e.pa % 64) 0 ++ e.bytes) else (0, [])
          | none => (0, [])
        t.send { Msg.of w.kind (agentRouter agent) (homeRouter h) agent line with
          tag := w.tag, pid := w.pid, world := w.world, mask := body.1, data := body.2, credit := m.credit,
          dem := !w.pf && (w.kind == .rds || w.kind == .iord) }

def execRetry (agent : Fin 50) (line : BitVec 34) (s : State) : Result := .next (s.resend agent.val line.toNat)

/-! ### Absent (08 R246, 01 R13) -/

/-- The requester of an engine's accesses. -/
def State.reqOfEng (s : State) (k : Nat) : Req :=
  let e := engOf k
  let c := s.core e
  ⟨BitVec.ofNat 8 (c.pid e), s.worldOf e, BitVec.ofNat 12 (s.unitOf e), if h : k < 128 then some ⟨k, h⟩ else none⟩

/-- A frozen access one of whose parts has received Absent raises Firebreak denial and writes no register (01 R13, 08 R249). -/
def State.absentLoad (s : State) (k : Nat) (f : Piece → Bool) : State :=
  let e := engOf k
  let c := s.core e
  match c.frozen with
  | some (.access a) =>
    (match a.pieces.find? (fun p => p.got.isNone && f p) with
    | some p => s.setCore e (c.failAccess a (denialExc 2 p.va))
    | none => s)
  | _ => s

/-- A fetch that has received Absent (01 R13). -/
def State.absentFetch (s : State) (k line : Nat) : State :=
  let e := engOf k
  let c := s.core e
  match c.frozen with
  | some (.fetch va) =>
    (match c.fetchView.lookup e true .fetch va with
    | (.ok pa, _) => if pa / 64 = line then s.fetchExc e (denialExc 2 va c.pc) else s
    | _ => s)
  | _ => s

/-- A walk whose table line has received Absent (01 R13). -/
def State.absentWalk (s : State) (k line : Nat) : State :=
  let e := engOf k
  let c := s.core e
  match c.frozen with
  | some (.walk va fetch store) =>
    let v := if fetch then c.fetchView else c
    let w := s.walk e v (if fetch then .fetch else if store then .write else .read) va
    if (s.walkMisses e (v.pid e) (s.worldOf e) w.1).head? = some line then
      if fetch then s.fetchExc e (denialExc 2 va c.pc) else s.setCore e ({ c with frozen := none }.raiseExc (denialExc 2 va c.pc))
    else s
  | _ => s

/-- The oldest store of an engine has received Absent: the lost-store path (08 R246). -/
def State.absentStore (s : State) (k line : Nat) : State :=
  let e := engOf k
  match (s.core e).sbuf with
  | b :: _ => if !b.dev && b.pa / 64 = line then (s.loseStore (s.reqOfEng k) b.pa).popStore e else s
  | [] => s

/-- A line that was leaving for a home that is gone: nothing awaits its Ack any more. -/
def State.absentLeaving (s : State) (agent line : Nat) : State :=
  match s.leaving.find? (fun e => e.agent == agent && e.line == line && e.sent) with
  | some e => State.sendLeaving { s with leaving := s.leaving.erase e } agent (homeOf line)
  | none => s

/-- ABSENT reaches a requester. -/
def State.absentArrives (s : State) (agent addr tag : Nat) : State :=
  let a := s.consume (fun m => m.kind == .absent && m.dst == agentRouter agent && m.addr == addr && m.tag == tag)
  match a.2 with
  | none => s
  | some m =>
    match m.lcore with
    | some k =>
      if m.grant = 1 then
        let e := engOf k
        let c := a.1.core e
        (a.1.setCore e { c with devOut := c.devOut - 1 }).loseStore (s.reqOfEng k) addr
      else a.1.absentLoad k (fun p => p.pa == addr)
    | none =>
      match a.1.wants.find? (fun w => w.agent == agent && w.line == addr / 64) with
      | none => a.1.absentLeaving agent (addr / 64)
      | some w =>
        let s1 := { a.1 with wants := a.1.wants.erase w }
        let line := addr / 64
        if w.kind = .rds || w.kind = .iord then
          (s1.behind agent).foldl (fun t k => ((t.absentLoad k (fun p => p.pa / 64 == line)).absentFetch k line).absentWalk k line) s1
        else match w.l1 with
          | some k => (s1.absentLoad k (fun p => p.pa / 64 == line)).absentStore k line
          | none => s1

def execAbsent (agent : Fin 50) (addr : PAddr) (tag : BitVec 10) (s : State) : Result :=
  .next (s.absentArrives agent.val addr.toNat tag.toNat)

/-! ### Agents that do not answer (08 R233-R235) -/

/-- SNOOP_TIMEOUT: an answer, or the WbD or EvC after an AckEvicted, is 4 µs late. -/
def execSnoopTimeout (agent : Fin 48) (line : BitVec 34) (s : State) : Result :=
  .next (match s.awaiting agent.val line.toNat with
    | some (k, _, _) => s.snoopReport k agent.val
    | none => s)

/-- FORERUNNER_TIMEOUT: DIRCTL.TMO has passed since the home accepted a transaction under the forerunner-compatible mode. The home completes
the line at once: an O line is poisoned, and the agent is removed from the entry; the report of R233 is made unless it has been, and a late
answer will be dropped (08 R235, R236). -/
def execForerunnerTimeout (agent : Fin 48) (line : BitVec 34) (s : State) : Result :=
  let a := agent.val
  let l := line.toNat
  let h := homeOf l
  .next (match s.awaiting a l with
    | none => s
    | some (k, d, t) =>
      if !t.fore || s.mtime.toNat < t.since + t.tmo * 1000 then s
      else
        let owned := d.owner == some a
        let s0 := if t.reports.any (fun e => e.1 == a) then s else s.protoEvent l
        let s1 := if owned then s0.poisonLine l else s0
        let s2 := s1.setHome h { s1.home h with late := (s1.home h).late ++ [(a, l)] }
        let t' := { t with
          waits := t.waits.erase a
          evicted := t.evicted.erase a
          got := if owned then none else t.got
          lostOwner := t.lostOwner || owned }
        let d' := if owned then d else d.without a
        (s2.putDir k { d' with busy := some t' }).settle k)

/-- A home reclaims one entry of a dead agent (08 R234). -/
def State.reclaimAt (s : State) (key agent : Nat) : State :=
  let d := s.dirAt key
  if !d.used then s
  else
    let owned := d.owner == some agent
    let s1 := if owned then s.poisonLine d.line else s
    match d.busy with
    | none => s1.putDir key (let e := d.without agent; if e.used then e else DirEnt.none)
    | some t =>
      let waited := t.waits.contains agent
      let t' := { t with
        waits := t.waits.erase agent
        evicted := t.evicted.erase agent
        got := if owned then none else t.got
        lostOwner := t.lostOwner || owned
        reports := t.reports.filter (fun e => e.1 != agent) }
      let d' := if owned then d else d.without agent
      let s2 := s1.putDir key { d' with busy := some t' }
      if waited then s2.settle key else s2

/-- Every home reclaims the lines, credits and messages of a dead agent. -/
def State.reclaim (s : State) (agent : Nat) : State :=
  let s1 := (List.range 8).foldl (fun t h =>
    let x := t.home h
    t.setHome h { x with credits := x.credits.filter (fun a => a != agent), queue := x.queue.filter (fun r => r.agent != agent) }) s
  (s1.dir.map (·.1)).foldl (fun t k => t.reclaimAt k agent) s1

end Sys2Proof.Machine
end

