-- ==== Sys2Proof/Machine/Fabric.lean ====
section
/-! DEFINITION. Acknowledgement and resend, plane failover and test, and messages that are not accepted (10 R269-R278). -/
namespace Sys2Proof.Machine

/-! ### Planes (FBSTAT: 0 in service, 1 out for test, 2 failed, 3 reinitialising) -/

def planeFld (p : Bool) : Field := if p then Fld.fbstatPlaneb else Fld.fbstatPlanea
def State.plane (s : State) (p : Bool) : Nat := s.fld .fbstat (planeFld p)
def State.setPlane (s : State) (p : Bool) (v : Nat) : State := s.putFld .fbstat (planeFld p) v

/-- The plane a pair uses by R271: B when SRC + DST is odd. -/
def planeOf (src dst : Nat) : Bool := (src + dst) % 2 == 1

/-- Pairs follow R271 again. -/
def State.pairsHome (s : State) : State :=
  { s with fab := { s.fab with pairs := KV.remap PairSt.none s.fab.pairs (fun _ x => { x with moved := false }) } }

/-- Resend the unacknowledged messages of a pair from a SEQ, in order: those not yet delivered stand in the fabric again. -/
def State.resendFrom (s : State) (src dst : Nat) (q : BitVec 16) : State :=
  let p := s.pair src dst
  let again := p.replay.filter (fun m =>
    let k := BitVec.ofNat 16 m.seq
    seqLe q k && (s.net.contains m || seqLe p.expect k))
  { s with net := s.net.filter (fun m => !again.contains m) ++ again }

/-- Resend everything unacknowledged, of every pair (10 R275). -/
def State.resendAll (s : State) : State :=
  s.fab.pairs.foldl (fun t e => match e.2.replay with
    | m :: _ => t.resendFrom (e.1 / 64) (e.1 % 64) (BitVec.ofNat 16 m.seq)
    | [] => t) s

/-- Lookout declares a plane failed (10 R275, R277, 16 R425): every pair uses the other; a plane under test is
reinitialised; with both failed LOOKOUT_OK goes inactive with cause 0x04 and both are reinitialised. -/
def State.planeFailed (s : State) (p : Bool) : State :=
  if s.plane p = 2 || s.plane p = 3 then s
  else
    let n := if p then 1 else 0
    let other := if s.powered (if p then 56 else 57) then s.plane (!p) else 2
    let s1 := ((s.setPlane p 2).raiseId (1088 + n)).logEvent (0x600 + n * 0x40) clsRecovered 0 0
    let s2 := { s1 with fab := { s1.fab with emptying := none, testing := none } }
    let s3 :=
      if other = 1 then s2.setPlane (!p) 3
      else if other = 0 then s2
      else ((s2.setPlane p 3).setPlane (!p) 3).lkoCause 4
    let s4 := if s3.scState 51 = scNoSpare then s3 else (s3.exhaust 51)
    s4.pairsHome.resendAll

def execPlaneFailure (plane : Bool) (s : State) : Result := .next (s.planeFailed plane)

/-- PLANE_REINIT_DONE: a plane that passes returns to service. -/
def State.planeBack (s : State) (p pass : Bool) : State :=
  if s.plane p ≠ 3 then s
  else if !pass then s.setPlane p 2
  else ((s.setPlane p 0).lkoClear 4).pairsHome.resendAll

def execPlaneReinitDone (plane pass : Bool) (s : State) : Result := .next (s.planeBack plane pass)

/-- The key of a link by the router that receives on it: above, below, left, right. -/
def linkKey (plane : Bool) (r dir : Nat) : Nat := (if plane then 256 else 0) + r * 4 + dir

/-- LINK_CRC_ERROR: the receiver of a link finds a CRC error in a flit, the flit's number on the link given, and asks for a replay; the same
flit failing three times fails the link, and its plane (10 R269). -/
def State.linkError (s : State) (plane : Bool) (r dir : Nat) (flit : BitVec 32) : State :=
  let k := linkKey plane r dir
  let x := KV.get (0, 0) s.fab.links k
  let n := if x.1 = flit then x.2 + 1 else 1
  if 3 ≤ n then
    { s with fab := { s.fab with links := KV.keep (fun j => (256 ≤ j) != plane) s.fab.links } }.planeFailed plane
  else { s with fab := { s.fab with links := KV.set (0, 0) s.fab.links k (flit, n) } }.blockEvent
    ((if plane then 0x640 else 0x600) + r) 2 256 1

def execLinkCrcError (plane : Bool) (r : Router) (x : LinkFlit) (s : State) : Result := .next (s.linkError plane r.val x.dir.val x.flit)

/-! ### End-to-end acknowledgement (10 R274) -/

/-- E2EACK: the source releases what ACKSEQ covers. -/
def execE2eack (src dst : Router) (ackseq : BitVec 16) (s : State) : Result := .next (s.release src.val dst.val ackseq.toNat)

/-- E2ENAK: the source counts a resend and resends from the SEQ expected. -/
def execE2enak (src dst : Router) (expected : BitVec 16) (s : State) : Result :=
  let t := s.setPair src.val dst.val { s.pair src.val dst.val with nak := none }
  .next ((t.countFab Fld.fbcntResend 1).resendFrom src.val dst.val expected)

/-- E2E_ACK_TIMEOUT: a destination that had no message to carry ACKSEQ for 64 clocks returns it in an E2EAck. -/
def execE2eAckTimeout (src dst : Router) (s : State) : Result :=
  let p := s.pair src.val dst.val
  .next (if p.expect = 0 && p.next = 0 then s else s.release src.val dst.val (p.expect - 1).toNat)

/-- E2E_RESEND_TIMEOUT: the oldest unacknowledged message has waited 256 clocks. The second time in a row its source reports
the plane, which Lookout declares failed (10 R275). -/
def State.resendTimeout (s : State) (src dst : Nat) : State :=
  let p := s.pair src dst
  match p.replay with
  | [] => s
  | m :: _ =>
    let s1 := (s.countFab Fld.fbcntResend 1).setPair src dst { p with timeouts := p.timeouts + 1 }
    if 1 ≤ p.timeouts then
      (s1.setPair src dst { p with timeouts := 0 }).planeFailed (s1.planeNow src dst)
    else s1.resendFrom src dst (BitVec.ofNat 16 m.seq)

def execE2eResendTimeout (src dst : Router) (s : State) : Result := .next (s.resendTimeout src.val dst.val)

/-! ### Plane test (10 R276) -/

/-- Whether every pair that used a plane has moved off it. -/
def State.planeEmpty (s : State) (p : Bool) : Bool :=
  s.fab.pairs.all (fun e => e.2.moved || planeOf (e.1 / 64) (e.1 % 64) != p)

/-- Once every pair has moved, the plane to be tested leaves service. -/
def State.planeLeaves (s : State) : State :=
  match s.fab.emptying with
  | some p =>
    if s.planeEmpty p then
      let s1 := { s with fab := { s.fab with emptying := none, testing := some p } }
      ((s1.setPlane p 1).setSpare 51 (if p then 1 else 0)).setScState 51 scTesting
    else s
  | none => s

/-- PLANE_MOVE: a pair without an unacknowledged message moves to the other plane; not while Lookout is stopped (16 R429). -/
def State.planeMove (s : State) (src dst : Nat) : State :=
  match s.fab.emptying with
  | some p =>
    let x := s.pair src dst
    if planeOf src dst == p && x.replay.isEmpty && !s.lko.stopped then (s.setPair src dst { x with moved := true }).planeLeaves else s
  | none => s

def execPlaneMove (src dst : Router) (s : State) : Result := .next (s.planeMove src.val dst.val)

/-! ### Messages not accepted (10 R278) -/

/-- Whether a message is a request or a snoop, which the fabric answers with Absent. -/
def MsgKind.asks (k : MsgKind) : Bool :=
  match k with
  | .rds | .rdx | .upg | .iord | .iowr | .drd | .dwr | .snps | .snpi | .snpx => true
  | _ => false

/-- ACCEPT_TIMEOUT: a request is discarded and answered with Absent; a snoop so answered is the report of 08 R233. -/
def State.notAccepted (s : State) (dst tag : Nat) : State :=
  match s.takeMsg (fun m => m.dst == dst && m.tag == tag && m.kind.asks) with
  | none => s
  | some (m, t) =>
    match m.kind with
    | .snps | .snpi | .snpx => (match t.awaiting m.agent m.addr with
      | some (k, _, _) => t.snoopReport k m.agent
      | none => t)
    | .drd | .dwr => t.send { m with kind := .absent, src := dst, dst := m.src }
    | _ => t.send { m with kind := .absent, src := dst, dst := m.src, addr := m.addr * 64 }

def execAcceptTimeout (dst : Router) (tag : BitVec 10) (s : State) : Result := .next (s.notAccepted dst.val tag.toNat)

end Sys2Proof.Machine
end

