-- ==== Sys2Proof/Machine/Counts.lean ====
section
/-! DEFINITION. Flushes of live counters into Tally's accumulators (21 R517-R520). -/
namespace Sys2Proof.Machine

/-- Whether the counts of a level belong to the partition's counts: level H always, under PID 0; otherwise by TALSEL.LVL (21 R518). -/
def Bucket.counted (b : Bucket) : Bool :=
  b.pid == 0 || (match bitsOf b.sel 25 24 with
    | 0 => b.lvl < 2
    | 1 => b.lvl == 0
    | _ => b.lvl == 1)

/-- The nine counts of a bucket: CYCLES, RETIRED, WASTED, FRONT, BACK, PMC0-PMC3 (21 Table 2, R515). -/
def Bucket.counts (b : Bucket) : List Nat :=
  [b.cnt.cycles, b.cnt.retired, b.cnt.wasted, b.cnt.front, b.cnt.back] ++
    (List.range 4).map (fun i =>
      let c := bitsOf b.sel (6 * i + 5) (6 * i)
      if 1 ≤ c && c ≤ 0x11 then KV.get 0 b.cnt.ev c else 0)

/-- Add a bucket to the accumulators of its partition. -/
def State.accumulate (s : State) (b : Bucket) : State :=
  if b.counted then b.counts.zipIdx.foldl (fun t e => t.bump (.talacc b.pid e.2) Fld.talaccCount e.1) s else s

/-- A core's live counts by level and partition. -/
def Core.buckets (c : Core) : List Bucket :=
  c.stash ++ c.live.map (fun (b : Nat × Live) => ⟨if b.1 = 2 then 0 else c.cntPid, b.1, if b.1 = 2 then c.selH else c.sel, b.2⟩)

/-- Logical core `l` flushes: its counts are added and cleared, and the TALSEL values apply. -/
def State.flushCore (s : State) (l : Nat) : State :=
  let c := s.lc l
  let s1 := c.buckets.foldl State.accumulate s
  s1.setLc l { c with
    stash := []
    live := []
    sel := s.rd (.talsel c.cntPid)
    selH := s.rd (.talsel 0) }

/-- Every logical core that passes flushes; one that counts nothing has nothing to add. -/
def State.flushWhere (s : State) (f : Nat → Bool) : State := (lcores.filter f).foldl State.flushCore s

end Sys2Proof.Machine
end

