-- ==== Sys2Proof/Machine/Ports.lean ====
section
/-! DEFINITION. The ports (12): control words, enabling, tests, the frames and events of each interface. -/
namespace Sys2Proof.Machine

/-! ### Control words (11 Table 4, 12 Table 3) -/

/-- Clear ERR and WAKE. -/
def State.clearErr (s : State) (n : Nat) : State := s.setPort n { s.port n with errF := false, wakeF := false }

/-- RECOVER: recovery of a bus-off CAN port starts; ignored while FAULT is 1 (12 R324). -/
def State.recoverPort (s : State) (n : Nat) : State :=
  let p := s.port n
  if s.ifc n = 1 && p.busOff && !p.faulted then s.setPort n { p with integrating := true } else s

/-- STANDBY of a CAN port: transceiver standby with selective wake (12 R326). -/
def State.standbyPort (s : State) (n : Nat) (on : Bool) : State :=
  if s.ifc n = 1 then s.setPort n { s.port n with standby := on } else s

/-- SLEEP of a LIN port: bus sleep. -/
def State.sleepPort (s : State) (n : Nat) : State :=
  if s.ifc n = 2 then s.setPort n { s.port n with asleep := true, wakePulse := false } else s

/-- WAKE of a LIN port: a dominant pulse of 1 ms; the bus is awake (12 R328). -/
def State.wakePort (s : State) (n : Nat) : State :=
  if s.ifc n = 2 then s.setPort n { s.port n with wakePulse := true, asleep := false } else s

/-- GATE of a direct port: bit c = 1 holds class c. -/
def State.gatePort (s : State) (n : Nat) (m : BitVec 8) : State :=
  if directIfc (s.ifc n) then s.setPort n { s.port n with gates := m } else s

/-- SUPPLY of a sensor port, given what it was before: after an overcurrent it comes on again only when 0 and then 1 are
written (12 R337). -/
def State.supplyPort (s : State) (n : Nat) (before on : Bool) : State :=
  let p := s.port n
  if s.ifc n ≠ 6 && s.ifc n ≠ 7 then s
  else if !on then s.setPort n { p with supply := false }
  else if p.faulted && before then s
  else s.setPort n { p with supply := true, faulted := false }

/-- SYNC of a PSI5 port: synchronisation pulses enabled. -/
def State.syncPort (s : State) (n : Nat) (on : Bool) : State :=
  if s.ifc n = 7 then s.setPort n { s.port n with sync := on } else s

/-- ADC of an analogue pin: the request joins the group's queue, merging with one that waits (12 R340); while the group's ADC
has failed it is answered by an error word with status FAULT (19 R477). -/
def State.adcPort (s : State) (n : Nat) : State :=
  if s.ifc n ≠ 9 || s.fld (.fldcfg (n / 16) (n % 16)) Fld.fldcfgMode ≠ 7 then s
  else if s.bitIn .caladc Fld.caladcFail (n / 16) then s.pushRx n [rxWord 4 0 (endPayload 7 s.mtime)]
  else
    let g := s.group (n / 16)
    if g.adcQ.contains (n % 16) then s else s.setGroup (n / 16) { g with adcQ := g.adcQ ++ [n % 16] }

/-- The interface bits of a control word. -/
def State.ifcCtl (s : State) (n : Nat) (before v : W64) : State :=
  match s.ifc n with
  | 1 => (if bitOf v 32 then s.recoverPort n else s).standbyPort n (bitOf v 34)
  | 2 => let s1 := if bitOf v 32 then s.sleepPort n else s
         if bitOf v 33 then s1.wakePort n else s1
  | 3 => s.gatePort n (BitVec.ofNat 8 (bitsOf v 39 32))
  | 4 => s.gatePort n (BitVec.ofNat 8 (bitsOf v 39 32))
  | 5 => s.gatePort n (BitVec.ofNat 8 (bitsOf v 39 32))
  | 6 => s.supplyPort n (bitOf before 32) (bitOf v 32)
  | 7 => (s.supplyPort n (bitOf before 32) (bitOf v 32)).syncPort n (bitOf v 33)
  | 9 => if bitOf v 32 then s.adcPort n else s
  | _ => s

/-- A control word is written whole: EN, ERRCLR, the flushes, then the interface bits (11 Table 4). -/
def State.control (s : State) (n : Nat) (v : W64) : State :=
  let before := (s.port n).ctl
  let s1 := s.setEn n (bitOf v 0)
  let s2 := if bitOf v 3 then s1.clearErr n else s1
  let s3 := if bitOf v 2 then s2.flushTx n else s2
  let s4 := if bitOf v 1 then s3.flushRx n else s3
  let s5 := s4.setPort n { s4.port n with ctl := v &&& ~~~ (0xFFFFFFF0 : W64) }
  s5.ifcCtl n before v

/-! ### Register side (12 R316-R318) -/

/-- A write to a port's block: Absent while its group does not answer, refused for a partition that does not reach it,
otherwise its effect. -/
def State.portWrite (s : State) (r : Req) (n pa : Nat) (f : State → State) : State :=
  if !s.groupAlive (n / 16) then s.loseStore r pa
  else if s.reachesPort r.pid.toNat n then f s
  else s.refuse r (phyUnit (n / 16)) pa 0

def execPortEnable (r : Req) (p : PortId) (s : State) : Result :=
  .next (s.gated r (Reg.pctrl p.gg.val p.pp.val).addr (fun s =>
    s.portWrite r p.code (Reg.pctrl p.gg.val p.pp.val).addr (fun s => s.setEn p.code true)))
def execPortDisable (r : Req) (p : PortId) (s : State) : Result :=
  .next (s.gated r (Reg.pctrl p.gg.val p.pp.val).addr (fun s =>
    s.portWrite r p.code (Reg.pctrl p.gg.val p.pp.val).addr (fun s => s.setEn p.code false)))
def execErrclr (r : Req) (p : PortId) (s : State) : Result :=
  .next (s.gated r (Reg.pctrl p.gg.val p.pp.val).addr (fun s =>
    s.portWrite r p.code (Reg.pctrl p.gg.val p.pp.val).addr (fun s => s.clearErr p.code)))

/-- The enable test ends. A pass clears a fault and lets the port join: UP at once for LIN, sensor, serial and field ports;
CAN at the later of the test and bus integration; a PHY at link up. A fail sets FAULT, with an error word FAULT and the step code in an
entry of class contained (19 R475, R476). -/
def State.portTested (s : State) (n : Nat) (pass : Bool) (code : Nat) : State :=
  let p := s.port n
  if !p.testing then s
  else if pass then
    let c := s.ifc n
    s.setPort n { p with testing := false, faulted := false
                         up := c == 2 || (6 ≤ c && c ≤ 9) || (c == 1 && !p.integrating) }
  else
    let s1 := (s.setPort n { p with testing := false, integrating := false }).portFault n
    let s2 := if wordIfc (s.ifc n) then s1.pushRx n [rxWord 4 0 (endPayload 7 s.mtime)] else s1
    s2.logEvent (phyUnit (n / 16)) clsContained 0 (code + n % 16 * 256)

def execPortTestDone (p : PortId) (pass : Bool) (code : BitVec 8) (s : State) : Result :=
  .next (s.portTested p.code pass code.toNat)

/-- Bus integration of a CAN port ends: error counters cleared, error-active; UP after enabling (12 R318, R324). -/
def execBusIntegration (p : PortId) (s : State) : Result :=
  .next (let x := s.port p.code
    if s.ifc p.code = 1 && x.integrating && s.portEn p.code then
      s.setPort p.code { x with integrating := false, busOff := false, up := !x.testing
                                tec := if x.busOff then 0 else x.tec, rec_ := if x.busOff then 0 else x.rec_ }
    else s)

/-! ### CAN (12 R323-R326) -/

/-- The start-of-frame word's payload of a received CAN frame (12 Table 4). -/
def canStart (f : CanFrame) : Nat :=
  f.id.toNat % 2 ^ 29 + (if f.ide then 2 ^ 29 else 0) + (if f.rtr then 2 ^ 30 else 0) + (if f.fdf then 2 ^ 31 else 0)
    + (if f.xlf then 2 ^ 32 else 0) + (if f.brs then 2 ^ 33 else 0) + (if f.esi then 2 ^ 34 else 0)
    + f.data.length % 2048 * 2 ^ 35 + f.sdt.toNat * 2 ^ 46 + (if f.sec then 2 ^ 54 else 0)

/-- The words of a received CAN frame: start, the XL event word, data, end of frame with its status. -/
def canWords (f : CanFrame) (t : W64) : List W64 :=
  [rxWord 1 7 (canStart f)]
    ++ (if f.xlf then [rxWord 3 0 (f.vcid.toNat + f.af.toNat * 256)] else [])
    ++ dataWords 300 f.data ++ [rxWord 2 0 (endPayload f.status.toNat t)]

/-- Whether a CAN port takes frames of a format: Classical always, FD and XL when enabled (12 CANMODE). -/
def State.canTakes (s : State) (n : Nat) (f : CanFrame) : Bool :=
  let r := Reg.canmode (n / 16) (n % 16)
  if f.xlf then s.flag r Fld.canmodeXlen else if f.fdf then s.flag r Fld.canmodeFden else true

/-- The receive error counter after a frame (ISO 11898-1, log entry 41). -/
def recAfter (r status : Nat) : Nat := if status = 0 then (if 127 < r then 119 else r - 1) else r + 1

/-- Frames are received by an enabled port that takes part in its bus, in standby none (12 R318, R326). -/
def State.listens (s : State) (n : Nat) : Bool :=
  let p := s.port n
  s.portEn n && p.up && !p.standby

def execCanFrameReceive (p : PortId) (f : CanFrame) (s : State) : Result :=
  .next (let n := p.code
    if s.ifc n ≠ 1 || !s.listens n || (s.port n).busOff then s
    else
      let st := if s.canTakes n f then f.status.toNat else 2
      let s1 := s.setPort n { s.port n with rec_ := recAfter (s.port n).rec_ st }
      let s2 := s1.pushRx n (if s.canTakes n f then canWords f s.mtime else [rxWord 2 0 (endPayload 2 s.mtime)])
      s2.rxEnded n st)

/-- Bus-off: event ERR; recovery starts at once with AUTOREC, but not under a fault (12 R324). -/
def execCanBusOff (p : PortId) (s : State) : Result :=
  .next (let n := p.code
    let x := s.port n
    if s.ifc n ≠ 1 || !s.portEn n || x.busOff then s
    else
      let auto := s.flag (.canmode p.gg.val p.pp.val) Fld.canmodeAutorec && !x.faulted
      (s.setPort n { x with busOff := true, up := false, errF := true, integrating := auto, tec := max x.tec 256 }).portEvent n 1)

/-- A transceiver fault: the driver is disabled, transmit words counted, an error word FAULT, FAULT in IFS and PIRQ, an entry of
class contained (12 R325). -/
def execCanTransceiverFault (p : PortId) (why : CanFault) (s : State) : Result :=
  .next (let n := p.code
    let x := s.port n
    if s.ifc n ≠ 1 || !s.portEn n then s
    else
      let s1 := (s.setPort n { x with tx := [] }).txErr n x.tx.length
      let s2 := (s1.pushRx n [rxWord 4 0 (endPayload 7 s.mtime)]).portFault n
      s2.logEvent (phyUnit (n / 16)) clsContained (Reg.pstat p.gg.val p.pp.val).addr (if why = .dominant then 1 else 2))

/-- Whether a frame satisfies the selective-wake registers (12 R326). -/
def State.wakeMatch (s : State) (n : Nat) (f : CanFrame) : Bool :=
  let r := Reg.canswf (n / 16) (n % 16)
  let w := s.rd r
  let idm := s.fld (.canswm (n / 16) (n % 16)) Fld.canswmMask
  let d := s.rd (.canswd (n / 16) (n % 16))
  let dm := s.rd (.canswdm (n / 16) (n % 16))
  let data := BitVec.ofNat 64 (ofBytes (padTo 8 0 f.data))
  Nat.land (Nat.xor f.id.toNat (bitsOf w 28 0)) idm == 0 && f.ide == bitOf w 29
    && (!bitOf w 40 || f.dlc.toNat == bitsOf w 35 32)
    && (f.dlc.toNat != bitsOf w 35 32 || ((data ^^^ d) &&& dm) == 0)

/-- A frame, or with `good = false` a decoding error, met in transceiver standby; with CANSWF.EN = 0 the wake-up pattern. The
frame error count lies in `rec_` while the port stands by (12 R326). -/
def State.selectiveWake (s : State) (n : Nat) (f : CanFrame) (good : Bool) : State :=
  let x := s.port n
  if s.ifc n ≠ 1 || !x.standby || !s.flag (.pctrl (n / 16) (n % 16)) Fld.pctrlWakeen then s
  else if !s.flag (.canswf (n / 16) (n % 16)) Fld.canswfEn then s.portWake n
  else if f.fdf || f.xlf then s
  else if good && s.wakeMatch n f then (s.setPort n { x with partialRx := [] }).portWake n
  else
    let c := ofBytes x.partialRx
    let c1 := if good then c - 1 else c + 1
    let s1 := s.setPort n { x with partialRx := if 32 ≤ c1 then [] else toBytes 1 c1 }
    if 32 ≤ c1 then s1.portWake n else s1

/-- Whether such a frame, error or pattern wakes the module. -/
def State.wakesBy (s : State) (n : Nat) (f : CanFrame) (good : Bool) : Bool :=
  let c := ofBytes (s.port n).partialRx
  s.ifc n == 1 && (s.port n).standby && s.flag (.pctrl (n / 16) (n % 16)) Fld.pctrlWakeen
    && (!s.flag (.canswf (n / 16) (n % 16)) Fld.canswfEn
      || (!f.fdf && !f.xlf && (if good then s.wakeMatch n f else 32 ≤ c + 1)))

/-! ### LIN (12 R327, R328) -/

/-- The start-of-frame payload of a LIN frame (12 Table 4). -/
def linStart (id len : Nat) (enhanced : Bool) : Nat := id % 64 + len % 16 * 256 + if enhanced then 2 ^ 12 else 0

def execLinFrameReceive (p : PortId) (id : BitVec 6) (enhanced : Bool) (data : List Byte) (status : BitVec 8) (s : State) : Result :=
  .next (let n := p.code
    if s.ifc n ≠ 2 || !s.listens n then s
    else
      let s1 := s.setPort n { s.port n with asleep := false, wakePulse := false }
      let ws := [rxWord 1 2 (linStart id.toNat data.length enhanced)] ++ dataWords 4 data
        ++ [rxWord 2 0 (endPayload status.toNat s.mtime)]
      (s1.pushRx n ws).rxEnded n status.toNat)

/-- A response that has not ended in time: an end-of-frame word with status TIMEOUT. -/
def execLinResponseTimeout (p : PortId) (s : State) : Result :=
  .next (let n := p.code
    if s.ifc n ≠ 2 || !s.listens n then s
    else (s.pushRx n [rxWord 2 0 (endPayload 4 s.mtime)]).rxEnded n 4)

/-! ### Ethernet and trunk (12 R331, R334) -/

/-- The key of an Ethernet frame (13 Table 1). -/
def etherKey (d : List Byte) : Nat :=
  let w := fun (i : Nat) => (d.getD i 0).toNat * 256 + (d.getD (i + 1) 0).toNat
  if w 12 = 0x8100 then w 16 * 65536 + 2 ^ 15 + w 14 / 8192 * 4096 + w 14 % 4096 else w 12 * 65536

/-- Whether the port takes the destination of a frame: its own address, a group address, or every one (12 R331). -/
def State.macTakes (s : State) (n : Nat) (d : List Byte) : Bool :=
  let r := Reg.macaddr (n / 16) (n % 16)
  s.flag r Fld.macaddrPromisc || (d.getD 0 0).toNat % 2 == 1 || ofBytes (d.take 6) == s.fld r Fld.macaddrAddr

/-- A MAC frame with its FCS: accepted with its receive stamp and passed to the router, or dropped and counted in RXERR. -/
def State.etherReceive (s : State) (n : Nat) (f : List Byte) (fcsOk secured secOk : Bool) : State :=
  let trunkBad := s.ifc n == 5 && ((s.flag (.trkcfg (n / 16) (n % 16)) Fld.trkcfgMsecreq && !secured) || (secured && !secOk))
  if !directIfc (s.ifc n) || !s.portEn n || !(s.port n).up then s
  else if !fcsOk || f.length < 64 || 1522 < f.length || !s.macTakes n f || trunkBad then s.rxErr n 1
  else
    let d := f.take (f.length - 4)
    let g := s.group (n / 16)
    s.setGroup (n / 16) { g with accept := g.accept ++ [⟨n, 5, etherKey d, s.mtime, 0xFFFF, 0, d⟩] }

/-- GATE by the Juggler's control word is in JugglerIsa. A PHY or PCIe port reaches link up with a speed code (12 R318); a PCIe
port's is its generation in [2:0], width 1, 2, 4 as 0, 1, 2 is fixed by the port at 4 (12 Table 3). -/
def execLinkUp (p : PortId) (speed : BitVec 4) (s : State) : Result :=
  .next (let n := p.code
    let c := s.ifc n
    let x := s.port n
    if !(directIfc c || c == 0xA) || !s.portEn n || x.testing || x.faulted then s
    else
      let i : BitVec 32 := if c = 0xA then BitVec.ofNat 32 (4 * 16 + speed.toNat % 16) else x.ifs
      let s1 := s.setPort n { x with up := true, speed := speed.toNat, ifs := i }
      if c = 5 && s.vn.upAt.isNone then { s1 with vn := { s1.vn with upAt := some s.mtime } } else s1)

/-- A link goes down: UP cleared, event ERR (12 PIRQ). -/
def execLinkDown (p : PortId) (s : State) : Result :=
  .next (let n := p.code
    let c := s.ifc n
    let x := s.port n
    if !(directIfc c || c == 0xA) || !x.up then s
    else (s.setPort n { x with up := false, errF := true }).portEvent n 1)

/-! ### Sensors (12 R335-R337, 19 R478) -/

/-- A SENT fast frame or, with `slow`, a slow-channel message: tick within 25 % of TICK; CHECK when the CRC fails or the
calibration pulse differs from the previous one by more than 1/64 (12 R335). -/
def State.sentReceive (s : State) (n : Nat) (slow enhanced : Bool) (id : BitVec 8) (nibbles : BitVec 28) (tick : BitVec 10)
    (cal prev : Nat) (crcOk : Bool) (payload : BitVec 16) : State :=
  let r := Reg.snscfg (n / 16) (n % 16)
  let t := s.fld r Fld.snscfgTick * 5
  if s.ifc n ≠ 6 || !s.listens n then s
  else
    let s1 := s.setPort n { s.port n with ifs := BitVec.ofNat 32 (tick.toNat * 256) }
    if slow then
      if s.flag r Fld.snscfgSlow && crcOk then
        s1.pushRx n [rxWord 3 4 (payload.toNat + id.toNat * 2 ^ 16 + (if enhanced then 2 else 1) * 2 ^ 24)]
      else s1
    else
      let far := cal < prev && cal * 64 + prev < prev * 64 || prev < cal && prev * 64 + prev < cal * 64
      let off := 4 * tick.toNat < 3 * t || 5 * t < 4 * tick.toNat
      let st := if !crcOk || (far && prev != 0) || off then 1 else 0
      (s1.pushRx n [rxWord 0 4 nibbles.toNat, rxWord 2 0 (endPayload st s.mtime)]).rxEnded n st

def execSentFrameReceive (p : PortId) (slow enhanced : Bool) (id : BitVec 8) (nibbles : BitVec 28) (tick : BitVec 10)
    (calUnits prevUnits : Nat) (crcOk : Bool) (payload : BitVec 16) (s : State) : Result :=
  .next (s.sentReceive p.code slow enhanced id nibbles tick calUnits prevUnits crcOk payload)

/-- A PSI5 frame: its slot is its order of arrival after the last sync pulse, 0 when asynchronous; a fifth ends with FORM
(12 R336). The order lies in `ifs`. -/
def execPsi5FrameReceive (p : PortId) (bits : BitVec 28) (crcOk : Bool) (s : State) : Result :=
  .next (let n := p.code
    if s.ifc n ≠ 7 || !s.listens n then s
    else
      let sync := s.flag (.snscfg p.gg.val p.pp.val) Fld.snscfgSyncm
      let k := if sync then (s.port n).ifs.toNat + 1 else 0
      let st := if 4 < k then 2 else if crcOk then 0 else 1
      let s1 := s.setPort n { s.port n with ifs := BitVec.ofNat 32 k }
      let ws := (if 4 < k then [] else [rxWord 0 4 (bits.toNat + k * 2 ^ 28)]) ++ [rxWord 2 0 (endPayload st s.mtime)]
      (s1.pushRx n ws).rxEnded n st)

/-- The PSI5 sync pulse of the oldest transmit event word starts at its MTIME [47:0], at once when 0 (12 R336, Table 4). -/
def execPsi5SyncPulse (p : PortId) (s : State) : Result :=
  .next (let n := p.code
    let x := s.port n
    match x.tx with
    | w :: rest =>
      if s.ifc n = 7 && x.sync && s.portEn n && !(s.pos (n / 16) (n % 16 / 4)).idle && bitsOf w 62 60 = 3
          && (bitsOf w 47 0 = 0 || bitsOf w 47 0 ≤ bitsOf s.mtime 47 0) then
        s.setPort n { x with tx := rest, ifs := 0 }
      else s
    | [] => s)

/-- A sensor supply above 40 mA for 100 µs, or outside its window: switched off, FAULT, an error word FAULT. -/
def State.supplyFault (s : State) (n : Nat) : State :=
  let x := s.port n
  if (s.ifc n ≠ 6 && s.ifc n ≠ 7) || !x.supply then s
  else ((s.setPort n { x with supply := false }).pushRx n [rxWord 4 0 (endPayload 7 s.mtime)]).portFault n

def execSensorSupplyOvercurrent (p : PortId) (s : State) : Result := .next (s.supplyFault p.code)

/-- A sensor silent beyond its frame time: an end-of-frame word with status TIMEOUT (12 Table 2). -/
def execSensorSilentTimeout (p : PortId) (s : State) : Result :=
  .next (let n := p.code
    if (s.ifc n ≠ 6 && s.ifc n ≠ 7) || !s.listens n then s
    else (s.pushRx n [rxWord 2 0 (endPayload 4 s.mtime)]).rxEnded n 4)

/-! ### Serial (12 R338) -/

/-- Data words of a UART, delivered at 7 bytes; the rest waits for more or for the line to be idle. -/
def State.uartReceive (s : State) (n : Nat) (bs : List Byte) : State :=
  let all := (s.port n).partialRx ++ bs
  let k := all.length / 7 * 7
  let s1 := s.setPort n { s.port n with partialRx := all.drop k }
  s1.pushRx n (dataWords (all.length + 1) (all.take k))

def execSerialReceive (p : PortId) (data : List Byte) (ended : Bool) (status : BitVec 8) (s : State) : Result :=
  .next (let n := p.code
    if s.ifc n ≠ 8 || !s.listens n then s
    else if s.fld (.sercfg p.gg.val p.pp.val) Fld.sercfgMode = 2 then (s.uartReceive n data).rxEnded n status.toNat
    else
      let ws := dataWords (data.length + 1) data ++ (if ended then [rxWord 2 0 (endPayload status.toNat s.mtime)] else [])
      let s1 := s.pushRx n ws
      if ended then s1.rxEnded n status.toNat else s1)

/-- After 2 character times of idle a UART delivers the bytes that wait. -/
def execUartIdleTimeout (p : PortId) (s : State) : Result :=
  .next (let n := p.code
    let x := s.port n
    if s.ifc n ≠ 8 || s.fld (.sercfg p.gg.val p.pp.val) Fld.sercfgMode ≠ 2 || x.partialRx.isEmpty then s
    else (s.setPort n { x with partialRx := [] }).pushRx n (dataWords 2 x.partialRx))

/-! ### Field pins (12 R339, R340) -/

/-- Raw and filtered level of a field pin; an edge selected by EDGE in digital-input and capture modes places an event word,
raises event 3 and, with WAKEEN, is a wake source. Answers whether it wakes. -/
def State.fieldEdge (s : State) (n : Nat) (level : Bool) : State × Bool :=
  let r := Reg.fldcfg (n / 16) (n % 16)
  let x := s.port n
  let inv := s.flag r Fld.fldcfgInv
  let lv := level != inv
  let mode := s.fld r Fld.fldcfgMode
  let edge := s.fld r Fld.fldcfgEdge
  let s1 := s.setPort n { x with lands := if lv then 3 else 0 }
  let hit := (mode == 1 || mode == 6) && (edge == 3 || (edge == 1 && lv) || (edge == 2 && !lv))
  if s.ifc n ≠ 9 || lv == x.lands.getLsbD 1 then (s, false)
  else if !hit then (s1, false)
  else
    let w := rxWord 3 7 (s.mtime.toNat % 2 ^ 48 + if lv then 2 ^ 48 else 0)
    let s2 := (if s.portEn n then s1.pushRx n [w] else s1).portEvent n 3
    (s2, s.flag (.pctrl (n / 16) (n % 16)) Fld.pctrlWakeen)

/-- A digital output above 40 mA for 10 µs: high impedance and FAULT. -/
def execFieldOutputOvercurrent (p : PortId) (s : State) : Result :=
  .next (let m := s.fld (.fldcfg p.gg.val p.pp.val) Fld.fldcfgMode
    if s.ifc p.code = 9 && (m = 2 || m = 3) && s.portEn p.code then
      let t := s.portFault p.code
      t.setPort p.code { t.port p.code with hiz := true }
    else s)

/-- A signed trim (19 R487): CALE.E. -/
def State.trimOf (s : State) (n : Nat) : Int := toSigned 16 (s.fld (.cale n) Fld.caleE)

/-- Round to the nearest integer, halves away from zero, of num / den. -/
def roundDiv (num den : Int) : Int := if 0 ≤ num then (2 * num + den) / (2 * den) else -((2 * -num + den) / (2 * den))

/-- A conversion's code after calibration: round((raw - offset/16) * (1 + gain * 1e-6)), limited to 0-4,095 (19 R488). -/
def State.adcCode (s : State) (n raw : Nat) : Nat :=
  let r := s.fld (.fldcfg (n / 16) (n % 16)) Fld.fldcfgArange
  let off := s.trimOf (n / 16 * 8 + r)
  let gain := s.trimOf (n / 16 * 8 + 4 + r)
  let v := roundDiv ((16 * (raw : Int) - off) * (1000000 + gain)) 16000000
  if v < 0 then 0 else if 4095 < v then 4095 else v.toNat

/-- The oldest waiting conversion completes: FLDADC, a data word, event 3 (12 R340). -/
def execAdcConversionDone (g : Fin 32) (raw : BitVec 12) (s : State) : Result :=
  .next (let gr := s.group g.val
    match gr.adcQ with
    | [] => s
    | pp :: rest =>
      let n := g.val * 16 + pp
      let code := s.adcCode n raw.toNat
      let s1 := s.setGroup g.val { gr with adcQ := rest }
      let s2 := s1.wr (.fldadc g.val pp) (BitVec.ofNat 64 (s.mtime.toNat % 2 ^ 48 * 2 ^ 16 + 2 ^ 15 + code))
      (s2.pushRx n [rxWord 0 2 code]).portEvent n 3)

/-! ### Transmission (12 R320) -/

/-- The transmit error counter after a frame (ISO 11898-1, log entry 41). -/
def tecAfter (t status : Nat) : Nat := if status = 0 then t - 1 else if status = 6 then t else t + 8

/-- Whether a port transmits: enabled and able to carry traffic (12 R318); on CAN not while bus-off, in standby, with its driver disabled by a
fault, or in the bus-monitoring and restricted-operation modes, which send no data frames (12 R323-R326; ISO 11898-1, log entry 41). -/
def State.sends (s : State) (n : Nat) : Bool :=
  let x := s.port n
  let r := Reg.canmode (n / 16) (n % 16)
  s.portEn n && x.up && !s.unsupplied n && (s.ifc n != 1 ||
    (!x.busOff && !x.faulted && !x.standby && !s.flag r Fld.canmodeMonitor && !s.flag r Fld.canmodeRestrict))

/-- The words of a frame as the port's own receiver delivers them when LOOP joins transmit to receive (12 PCTRL; log entry 177). -/
def loopWords (ws : List W64) (t : W64) : List W64 :=
  ws.map (fun w => if bitsOf w 62 60 = 2 then rxWord 2 0 (endPayload 0 t) else w ||| 0x8000000000000000)

/-- With LOOP a frame that ended well is received by the port that sent it. -/
def State.loopBack (s : State) (n : Nat) (ws : List W64) (f : Option Frame) : State :=
  if !s.flag (.pctrl (n / 16) (n % 16)) Fld.pctrlLoop then s
  else match f with
    | some x => s.etherReceive n (padTo 60 0 x.data ++ List.replicate 4 0) true true true
    | none => s.pushRx n (loopWords ws s.mtime)

/-- A transmitted frame ends: a word port's words leave its FIFO, a direct port's frame its queue; a confirmation when TXCONF
is set. A CAN frame that failed stays for its next attempt unless it was cut. -/
def State.transmitted (s : State) (n status : Nat) : State :=
  let x := s.port n
  if !s.sends n then s
  else if directIfc (s.ifc n) then
    match x.nextFrame with
    | none => s
    | some f =>
      let s1 := s.setPort n { x with queue := x.queue.erase f }
      if status = 0 then s1.loopBack n [] (some f) else (s1.txErr n 1).portEvent n 1
  else if !wordIfc (s.ifc n) || x.tx.isEmpty then s
  else
    let can := s.ifc n == 1
    let keep := can && status != 0 && status != 6
    let s1 := (s.setPort n { x with tx := if keep then x.tx else afterFrame x.tx
                                    tec := if can then tecAfter x.tec status else x.tec }).txEnded n status
    if status = 0 then s1.loopBack n (x.tx.take (x.tx.length - (afterFrame x.tx).length)) none else s1

def execTransmitFrameEnd (p : PortId) (status : BitVec 8) (s : State) : Result := .next (s.transmitted p.code status.toNat)

end Sys2Proof.Machine
end

