-- ==== Sys2Proof/Machine/RegOps.lean ====
section
/-! DEFINITION. A write of a register by access type (00_scope R3-R6, Table 2): the unit that owns an address (R9), field-by-field
storing, and the check of a keyed pair. -/
namespace Sys2Proof.Machine

/-- The clamp of a calibration entry (19 Table 4). -/
def calClamp (n : Nat) : Nat :=
  if n < 256 then (if n % 8 < 4 then 512 else 2000) else if n < 0x13C then 30 else if n < 0x143 then 50
  else if n < 0x151 then 300 else if n < 0x1A0 then 100 else 20

/-- The unit ID of the block that holds an address (00_scope R9, Table 3). DESIGN CHOICE: the Juggler control block of a group, which
Table 3 does not name, counts as group control (log entry 155). -/
def unitAt (a : Nat) : Nat :=
  if a < 0x0900000000 then
    let g := (a - 0x0800000000) / 0x1000000
    let o := a % 0x1000000
    0x300 + g * 8 + (if o < 0x100000 then 7 else if o < 0x200000 then 5 else 6)
  else if a < 0x0A00000000 then 0x10F + (a - 0x0900000000) / 0x100000 * 16
  else if a < 0x0B00000000 then 0x500 + (a - 0x0A00000000) / 0x100000
  else if a < 0x0C00000000 then 0x700
  else
    let o := a - 0x0C00000000
    if 0x40000 ≤ o && o < 0x60000 then 0x710 else if 0x70000 ≤ o && o < 0x80000 then 0x700 else 0x7F0

/-! ### Storing by access type -/

/-- The bits of a 64-bit register that an access of `n` bytes at offset `o` in it addresses. -/
def laneMask (o n : Nat) : W64 := BitVec.ofNat 64 ((2 ^ (8 * n) - 1) * 2 ^ (8 * o))

/-- The bits of a field. -/
def Field.mask (f : Field) : W64 := maskOf f.hi f.lo

/-- One field of a write: `m` holds the bits addressed. A value outside the field's range keeps the previous one (R3). -/
def mergeField (m v : W64) (acc : W64) (f : Field) : W64 :=
  match f.acc with
  | .rw =>
    let w := (acc &&& ~~~ m) ||| (v &&& m)
    if inRanges f.ok (bitsOf w f.hi f.lo) then (acc &&& ~~~ f.mask) ||| (w &&& f.mask) else acc
  | .w1c => acc &&& ~~~ (v &&& m &&& f.mask)
  | .w1cAll => if v &&& m &&& f.mask = f.mask then acc &&& ~~~ f.mask else acc
  | .w1s => acc ||| (v &&& m &&& f.mask)
  | _ => acc

/-- A write of some fields of a register that is not keyed. -/
def mergeReg (fs : List Field) (m v old : W64) : W64 := fs.foldl (mergeField m v) old

/-- Whether [31:0] of a keyed pair holds no reserved bit and no field value out of range. -/
def keyedFields (fs : List Field) (n : Nat) : Bool :=
  fs.all (fun f => inRanges f.ok (n / 2 ^ f.lo % 2 ^ (f.hi + 1 - f.lo)))
    && (fs.foldl (fun v f => v &&& ~~~ f.mask) (BitVec.ofNat 64 n)) == 0

/-- Combinations of field values that a keyed register's own description reserves; `n` is [31:0]. -/
def keyedExtra (r : Reg) (n : Nat) : Bool :=
  let f := fun (hi lo : Nat) => n / 2 ^ lo % 2 ^ (hi + 1 - lo)
  match r.kind with
  | .ircfg => f 19 18 ≠ 2 || (1 ≤ f 31 24 && f 31 24 ≤ 254)
  | .mctwin => (f 31 31 = 0 || f 19 10 ≠ 0) && f 9 0 % 512 + f 19 10 ≤ 512
  | .skcmd =>
    let op := f 7 0
    if op = 6 then n = 6
    else (op = 4 || f 31 24 = 0) && (op = 2 || op = 3 || f 16 16 = 0) && (f 10 8 ≠ 0 || f 14 12 = 0)
  | .carqwp => f 31 31 = 0 || (100 ≤ f 19 0 && f 19 0 ≤ 1000000)
  | .pwrtemp => f 7 0 < f 15 8
  | .clkss => f 3 0 = 0 || (30 ≤ f 15 8 && f 15 8 ≤ 60)
  | .pwrreq => if f 7 0 < 0x10 then f 15 8 ≤ 60 else if f 7 0 = 0x11 then f 15 8 ≤ 7 else f 15 8 = 0
  | .calpol => (List.range 14).all (fun c => f (2 * c + 1) (2 * c) ≠ 3 && (c < 8 || f (2 * c + 1) (2 * c) ≠ 0))
  | .lkocmd => f 7 0 = 3 || f 14 8 = 0
  | .lcdsafe => (r.i ≠ 0 || f 0 0 = 0) && (r.i ≠ 7 || f 31 31 = 0)
  | .pwrown => r.i ≠ 60
  | .clkown => r.i < 57
  | _ => true

/-- Whether a keyed register accepts a write of `n` bytes at its address (R5). -/
def keyedOk (r : Reg) (n : Nat) (v : W64) : Bool :=
  n == 8 && pairOk v && keyedFields r.kind.fields (bitsOf v 31 0) && keyedExtra r (bitsOf v 31 0)

/-- Whether a field accepts writes only while the port's EN is 0 (12 R317). -/
def enZeroOnly (k : RegKind) (f : Field) : Bool :=
  match k with
  | .pctrl => f.lo == 8 || f.lo == 4 || f.lo == 2
  | .canmode => f.lo != 8
  | .fldcfg => f.lo != 32
  | .canbt | .lincfg | .t1scfg | .t1cfg | .trkcfg | .snscfg | .sercfg | .pcicfg | .pciwin => true
  | _ => false

/-- Fields of a port that only PID 255 writes (12 TRKCFG, FLDCFG). -/
def onlyTrust (k : RegKind) (f : Field) : Bool :=
  match k with
  | .trkcfg => f.lo == 8 || f.lo == 9 || f.lo == 16
  | .fldcfg => f.lo == 32
  | _ => false

/-- Combinations that make the whole write of a port register reserved: it is ignored and logged (12 FLDCFG). -/
def portComboBad (k : RegKind) (v : W64) : Bool :=
  match k with
  | .fldcfg => bitsOf v 15 8 ≤ 240 && bitsOf v 23 16 ≤ 240 && bitsOf v 15 8 < bitsOf v 23 16
  | _ => false

/-- Values that depend on another field of the same port register (12 SNSCFG, SERCFG, PCICFG): the register keeps them as they were. -/
def portComboFix (k : RegKind) (old v : W64) : W64 :=
  match k with
  | .snscfg => if bitOf v 0 && !(65 ≤ bitsOf v 55 48 && bitsOf v 55 48 ≤ 110) then withBits v 55 48 (bitsOf old 55 48) else v
  | .sercfg =>
    let q := bitsOf v 24 0
    let ok := match bitsOf v 33 32 with
      | 0 => decide (q ≤ 20000000)
      | 1 => q == 100000 || q == 400000 || q == 1000000
      | _ => 1200 ≤ q && q ≤ 3000000
    if ok then v else withBits v 24 0 (bitsOf old 24 0)
  | .pcicfg => if !bitOf v 0 then withBits v 5 5 0 else v
  | .pciwin => if bitsOf v 48 44 ≤ 19 && bitsOf v 39 12 * 4096 + 4096 * 2 ^ bitsOf v 48 44 ≤ 0x80000000 then v else old
  | _ => v

/-- A write of a port's register that is not EN's own: fields that EN or the requester keeps stay; a kept field that would
change is logged (12 R317). -/
def State.writePort (s : State) (r : Req) (rg : Reg) (a : Nat) (m v : W64) : State :=
  let n := rg.i * 16 + rg.j
  let old := s.rd rg
  let fs := rg.kind.fields
  let kept := fs.filter (fun f => (s.portEn n && enZeroOnly rg.kind f) || (r.pid != 255 && onlyTrust rg.kind f)
    || (rg.kind == .pcicfg && f.lo == 0))
  let free := fs.filter (fun f => !kept.contains f)
  let would := mergeReg kept m v old
  let new := portComboFix rg.kind old (mergeReg free m v old)
  let s1 := if would != old then s.refuse r (phyUnit rg.i) a 0 else s
  if portComboBad rg.kind new then s.refuse r (phyUnit rg.i) a 0 else s1.wr rg new

/-- The effective trim of an entry, with its flags (19 R487). -/
def State.calEff (s : State) (n : Nat) : State :=
  let f := s.rd (.calf n)
  let bad := bitsOf f 63 32 ≠ Nat.xor (bitsOf f 15 0) 0xFFFFFFFF
  let fv : Int := if bad then 0 else toSigned 16 (bitsOf f 15 0)
  let u := toSigned 16 (s.fld (.calu n) Fld.caluU)
  let l : Int := calClamp n
  let c := if u < -l then -l else if l < u then l else u
  let e := ((fv + c) % 65536).toNat
  s.wr (.cale n) (BitVec.ofNat 64 (e + (if c ≠ u then 65536 else 0) + (if bad then 131072 else 0)))

/-- A rejected keyed write (R6): an entry of class contained naming the unit and the register. -/
def State.reject (s : State) (r : Req) (rg : Reg) : State := s.refuse r (unitAt rg.addr) rg.addr 0

/-- A keyed write: accepted whole, or rejected whole. -/
def State.writeKeyed (s : State) (r : Req) (rg : Reg) (n : Nat) (v : W64) : State :=
  if keyedOk rg n v then s.wr rg v else s.reject r rg

/-- A write of a register without an effect of its own: stored field by field, or as a keyed pair. -/
def State.writePlain (s : State) (r : Req) (rg : Reg) (o n : Nat) (v : W64) : State :=
  if rg.kind.keyed then s.writeKeyed r rg n v
  else s.wr rg (mergeReg rg.kind.fields (laneMask o n) (v <<< (8 * o)) (s.rd rg))

end Sys2Proof.Machine
end

