-- ==== Sys2Proof/Machine/Mail.lean ====
section
/-! DEFINITION. Endpoints, doorbells and mailboxes (14 R375-R386, 15 R407): the doorbell bits, sending and taking, timeouts,
endpoint resets, and the mailbox pool's registers. -/
namespace Sys2Proof.Machine

/-- What a read answers: a value, Firebreak denial, or Absent. -/
inductive RdAns where
  | val (v : W64)
  | denied
  | absent
  /-- The data hold a poisoned word. -/
  | poison
deriving DecidableEq, Repr

/-! ### Endpoints -/

def epTrust : Nat := 0x1000
def epLookout : Nat := 0x1001

/-- Whether an endpoint number can be named in MBCFG. -/
def epOk (e : Nat) : Bool := e == epTrust || (e < 0x1000 && e % 256 != 255)

/-- The PID whose requests an endpoint makes; none for Lookout. -/
def epPid (e : Nat) : Option Nat := if e = epTrust then some 255 else if e = epLookout then none else some (e % 256)

def State.epoch (s : State) (e : Nat) : Nat := KV.get 0 s.lay.epochs e

/-- Set a doorbell bit of an endpoint (14 R376); Lookout has no doorbell. -/
def State.setBell (s : State) (e b : Nat) : State :=
  if e = epTrust then { s with trust := { s.trust with doorbell := s.trust.doorbell ||| (1 <<< b) } }
  else if e < 0x1000 then s.putBit (.dbbits (e / 256) (e % 256)) Fld.dbbitsBits b true
  else s

/-- A write to DBRING sets bits. -/
def State.ring (s : State) (c p : Nat) (v : Nat) : State :=
  s.putFld (.dbbits c p) Fld.dbbitsBits (Nat.lor (s.fld (.dbbits c p) Fld.dbbitsBits) (v % 2 ^ 32))

/-- DBRING: PID 0 and 255 ring (14 R375). The entries answer in every power state of their cluster. -/
def execDbring (r : Req) (c : Fin 16) (p : Fin 255) (set : W32) (s : State) : Result :=
  .next (if isHost r then s.ring c.val p.val set.toNat
    else s.refuse r (0x10F + c.val * 16) (Reg.dbring c.val p.val).addr 0)

/-! ### Mailboxes; mailbox 1,023 is fixed by hardware (15 R407) -/

def State.mbEn (s : State) (m : Nat) : Bool := m == 1023 || s.flag (.mbcfg m) Fld.mbcfgEn
def State.mbSep (s : State) (m : Nat) : Nat := if m = 1023 then epLookout else s.fld (.mbcfg m) Fld.mbcfgSep
def State.mbRep (s : State) (m : Nat) : Nat := if m = 1023 then epTrust else s.fld (.mbcfg m) Fld.mbcfgRep
def State.mbFull (s : State) (m : Nat) : Bool := s.flag (.mbstat m) Fld.mbstatFull
def State.mbLen (s : State) (m : Nat) : Nat := if m = 1023 then 24 else s.fld (.mbsctl m) Fld.mbsctlLen
def State.mbStale (s : State) (m : Nat) : Bool :=
  s.mbFull m && KV.get 0 s.lay.sepoch m != s.epoch (s.mbSep m)

/-- The notice to the sender: its SBIT, unless its epoch has changed since the send. -/
def State.mbNotice (s : State) (m : Nat) : State :=
  if KV.get 0 s.lay.sepoch m == s.epoch (s.mbSep m) then s.setBell (s.mbSep m) (s.fld (.mbbell m) Fld.mbbellSbit) else s

/-- Whether Lookout holds the Trust Core down: its state is RESTARTING or DOWN (15 R408, TSSTAT). -/
def State.trustDown (s : State) : Bool := 2 ≤ s.fld .tsstat Fld.tsstatState

/-- Whether its services answer SERVICE_DOWN: it is down, or a debug port halts it (15 R408, 20 R507). -/
def State.trustAway (s : State) : Bool := s.trustDown || (s.core .trust).halted

/-- The code of a send (14 R381). -/
def State.sendCode (s : State) (m : Nat) : Nat :=
  let rep := s.mbRep m
  if !s.mbEn m then 2
  else if s.mbFull m then 1
  else if rep = epTrust && s.trustAway then 4
  else if rep < 0x1000 && !s.powered (rep / 256) && !s.flag (.dbcfg (rep / 256) (rep % 256)) Fld.dbcfgWake then 3
  else 0

/-- The steps of a send: the state, and the value MBSEND returns. -/
def State.mbSendNow (s : State) (m : Nat) : State × W64 :=
  let code := s.sendCode m
  if code ≠ 0 then (s, BitVec.ofNat 64 code)
  else
    let q := (s.fld (.mbstat m) Fld.mbstatMseq + 1) % 65536
    let limit := if m = 1023 then 0 else s.fld (.mbsctl m) Fld.mbsctlMbto
    let s1 := s.wr (.mbstat m) (BitVec.ofNat 64 (q * 2 ^ 48 + s.mbLen m * 2 ^ 40 + 1))
    let s2 := { s1 with lay := { s1.lay with
      sepoch := KV.set 0 s1.lay.sepoch m (s.epoch (s.mbSep m))
      mbTimer := KV.set none s1.lay.mbTimer m (if limit = 0 then none else some (s.mtime + BitVec.ofNat 64 (limit * 1000))) } }
    (s2.setBell (s.mbRep m) (s.fld (.mbbell m) Fld.mbbellRbit), BitVec.ofNat 64 (q * 2 ^ 48))

/-- A mailbox gives up its message with an OUTCOME; its timer stops. -/
def State.mbEnd (s : State) (m outcome : Nat) : State :=
  let s1 := (s.putFlag (.mbstat m) Fld.mbstatFull false).putFld (.mbstat m) Fld.mbstatOutcome outcome
  { s1 with lay := { s1.lay with mbTimer := KV.set none s1.lay.mbTimer m none } }

/-- Lookout places the oldest notice it holds, while mailbox 1,023 is free and the Trust Core answers (15 R406, R407, 20 R507). -/
def State.nextNotice (s : State) : State :=
  match s.trust.notices with
  | [] => s
  | (kind, mask, t) :: rest =>
    if s.mbFull 1023 || s.trustAway then s
    else
      let bs := toBytes 8 kind ++ toBytes 8 mask ++ toBytes 8 t.toNat
      let s1 := { s with
        trust := { s.trust with notices := rest }
        st := { s.st with mbdata := KV.setAll 0 s.st.mbdata (1023 * 256 + 0x40) bs } }
      (s1.mbSendNow 1023).1

/-- The steps of a take: the state, and the value MBTAKE returns (14 R382). Lookout receives no empty notice. -/
def State.mbTakeNow (s : State) (m : Nat) : State × W64 :=
  if !s.mbFull m then (s, 0)
  else
    let stale := s.mbStale m
    let v := s.fld (.mbstat m) Fld.mbstatMseq * 2 ^ 48 + s.fld (.mbstat m) Fld.mbstatLen * 2 ^ 40 + (if stale then 2 else 0) + 1
    let s1 := s.mbEnd m 1
    (if m = 1023 then s1.nextNotice else s1.mbNotice m, BitVec.ofNat 64 v)

/-- Whether the mailbox pool answers: a fabric plane is in service (01 Table 1). -/
def State.poolAnswers (s : State) : Bool := s.reachable .global

/-- A load from MBSEND by the sender, with its answer. The answer of the last such load stands at the register's address
in the model, so that a command can show it (log entry 44). -/
def State.loadSend (s : State) (r : Req) (m : Nat) : State × RdAns :=
  if epPid (s.mbSep m) != some r.pid.toNat then (s, .denied)
  else
    let a := s.mbSendNow m
    (a.1.wr (.mbsend m) a.2, .val a.2)

/-- A load from MBTAKE by the receiver, with its answer. -/
def State.loadTake (s : State) (r : Req) (m : Nat) : State × RdAns :=
  if epPid (s.mbRep m) != some r.pid.toNat then (s, .denied)
  else
    let a := s.mbTakeNow m
    (a.1.wr (.mbtake m) a.2, .val a.2)

def execMbtake (r : Req) (m : Fin 1024) (s : State) : Result := .next (if s.poolAnswers then (s.loadTake r m.val).1 else s)

/-- MBTO_EXPIRY: the message is aborted with ABORT_TIMEOUT, with the notice to the sender (14 R383). -/
def State.mbExpire (s : State) (m : Nat) : State :=
  match KV.get none s.lay.mbTimer m with
  | some t => if s.mbFull m && t ≤ s.mtime then (s.mbEnd m 3).mbNotice m else s
  | none => s

def execMbtoExpiry (m : Fin 1024) (s : State) : Result := .next (s.mbExpire m.val)

/-- An endpoint reset (14 R385): the epoch, the doorbell bits, the messages held for the endpoint. -/
def State.epReset (s : State) (e : Nat) : State :=
  let s1 := { s with lay := { s.lay with epochs := KV.set 0 s.lay.epochs e (s.epoch e + 1) } }
  let s2 := if e = epTrust then
      { s1 with trust := { s1.trust with doorbell := BitVec.ofNat 64 (bitsOf s1.trust.doorbell 63 32 * 2 ^ 32) } }
    else if e < 0x1000 then s1.putFld (.dbbits (e / 256) (e % 256)) Fld.dbbitsBits 0 else s1
  ((List.range 1024).filter (fun m => s.mbFull m && s.mbRep m == e)).foldl (fun t m => (t.mbEnd m 2).mbNotice m) s2

/-- Standby: every mailbox empties without a notice, every doorbell bit clears, every epoch rises (14 R386). -/
def State.mailStandby (s : State) : State :=
  let eps := epTrust :: epLookout :: (List.range 4096).filter (fun e => e % 256 != 255)
  let s1 := { s with lay := { s.lay with
    epochs := eps.foldl (fun m e => KV.set 0 m e (s.epoch e + 1)) s.lay.epochs
    mbTimer := [] } }
  let s2 := (List.range 1024).foldl (fun t m =>
    if t.mbFull m || t.fld (.mbstat m) Fld.mbstatOutcome ≠ 0 then t.mbEnd m 0 else t) s1
  let s3 := (List.range 16).foldl (fun t c => (List.range 255).foldl (fun u p =>
    if u.fld (.dbbits c p) Fld.dbbitsBits = 0 then u else u.putFld (.dbbits c p) Fld.dbbitsBits 0) t) s2
  { s3 with trust := { s3.trust with doorbell := BitVec.ofNat 64 (bitsOf s3.trust.doorbell 63 32 * 2 ^ 32) } }

/-! ### Ownership checks (14 R373) and the pool's registers (Table 5) -/

/-- Whether MBCFG's endpoints pass R373 against MBPOOL; 255 is the Trust Core endpoint only (14 R379). -/
def State.mbcfgTakes (s : State) (m sep rep : Nat) : Bool :=
  let one := fun (e : Nat) (pf af : Field) => match epPid e with
    | some p => s.poolTakes p (s.fld (.mbpool m) pf) (s.flag (.mbpool m) af)
    | none => false
  epOk sep && epOk rep && one sep Fld.mbpoolSpid Fld.mbpoolAnys && one rep Fld.mbpoolRpid Fld.mbpoolAnyr

/-- A write in the mailbox pool: `o` the offset in the mailbox. -/
def State.mbWrite (s : State) (r : Req) (m o n : Nat) (v : W64) : State :=
  let pid := some r.pid.toNat
  let sender := epPid (s.mbSep m) == pid
  let pa := 0x0C00100000 + m * 256 + o
  let rg : Reg := if o < 8 then .mbcfg m else if o < 0x10 then .mbpool m else if o < 0x18 then .mbbell m else .mbsctl m
  if 0x40 ≤ o then
    if !sender then s.refuse r 0x7F0 pa 0
    else if s.mbFull m then s
    else { s with st := { s.st with mbdata := KV.setAll 0 s.st.mbdata (m * 256 + o) (toBytes (min n (256 - o)) v.toNat) } }
  else if 0x20 ≤ o || m = 1023 then s.refuse r 0x7F0 pa 0
  else if 0x18 ≤ o then
    if sender || isHost r then s.writePlain r rg (o % 8) n v else s.refuse r 0x7F0 pa 0
  else if 8 ≤ o && o < 0x10 then
    if r.pid = 255 then s.writeKeyed r rg n v else s.refuse r 0x7F0 pa 0
  else if !isHost r then s.refuse r 0x7F0 pa 0
  else if 0x10 ≤ o then s.writePlain r rg (o % 8) n v
  else if s.mbFull m || !s.mbcfgTakes m (bitsOf v 12 0) (bitsOf v 28 16) then s.reject r rg
  else s.writeKeyed r rg n v

/-- The 64-bit value of a mailbox register. -/
def State.mbWord (s : State) (m o : Nat) : W64 :=
  if o = 0 then (if m = 1023 then keyedPair (2 ^ 31 + epTrust * 65536 + epLookout) else s.rd (.mbcfg m))
  else if o = 8 then (if m = 1023 then keyedPair (255 * 65536 + 255) else s.rd (.mbpool m))
  else if o = 0x10 then s.rd (.mbbell m)
  else if o = 0x18 then (if m = 1023 then BitVec.ofNat 64 (24 * 2 ^ 32) else s.rd (.mbsctl m))
  else s.rd (.mbstat m) ||| (if s.mbStale m then 0x10000 else 0)

/-- A load in the mailbox pool. -/
def State.mbRead (s : State) (r : Req) (m o n : Nat) : State × RdAns :=
  let pid := some r.pid.toNat
  let sender := epPid (s.mbSep m) == pid
  let recv := epPid (s.mbRep m) == pid
  let w := o / 8 * 8
  if 0x40 ≤ o then
    if sender || recv then (s, .val (BitVec.ofNat 64 (ofBytes (KV.getAll 0 s.st.mbdata (m * 256 + o) (min n (256 - o))))))
    else (s, .denied)
  else if w = 0x28 then s.loadSend r m
  else if w = 0x30 then s.loadTake r m
  else if w = 0x38 then (s, .absent)
  else if isHost r || sender || (recv && w != 0x18) then (s, .val (s.mbWord m w >>> (8 * (o % 8))))
  else (s, .denied)

end Sys2Proof.Machine
end

