-- ==== Sys2Proof/Machine/Queue.lean ====
section
/-! DEFINITION. The instruction commands that wait in the queue: an event between two groups of an engine is none inside a group that the
next of them still joins (05 R145). -/
namespace Sys2Proof.Machine

/-- How a command issues an instruction, when it is one. -/
def issOf : Instr → Option Iss
  | .nop x => some x
  | .isync x => some x
  | .fence x => some x
  | .fenceSl x => some x
  | .fenceIo x => some x
  | .retm x => some x
  | .sc x => some x
  | .brk x => some x
  | .add x _ _ _ _ => some x
  | .sub x _ _ _ _ => some x
  | .and x _ _ _ => some x
  | .or x _ _ _ => some x
  | .xor x _ _ _ => some x
  | .shl x _ _ _ _ => some x
  | .shr x _ _ _ _ => some x
  | .sar x _ _ _ _ => some x
  | .mul x _ _ _ _ => some x
  | .mulh x _ _ _ => some x
  | .div x _ _ _ _ => some x
  | .divu x _ _ _ _ => some x
  | .rem x _ _ _ _ => some x
  | .remu x _ _ _ _ => some x
  | .slt x _ _ _ => some x
  | .sltu x _ _ _ => some x
  | .addi x _ _ _ _ => some x
  | .andi x _ _ _ => some x
  | .ori x _ _ _ => some x
  | .xori x _ _ _ => some x
  | .shli x _ _ _ _ => some x
  | .shri x _ _ _ _ => some x
  | .sari x _ _ _ _ => some x
  | .slti x _ _ _ => some x
  | .sltiu x _ _ _ => some x
  | .li x _ _ => some x
  | .ldB x _ _ => some x
  | .ldBu x _ _ => some x
  | .ldH x _ _ => some x
  | .ldHu x _ _ => some x
  | .ldW x _ _ => some x
  | .ldWu x _ _ => some x
  | .ldD x _ _ => some x
  | .lea x _ _ => some x
  | .stB x _ _ => some x
  | .stH x _ _ => some x
  | .stW x _ _ => some x
  | .stD x _ _ => some x
  | .faddD x _ _ _ => some x
  | .fsubD x _ _ _ => some x
  | .fmulD x _ _ _ => some x
  | .fdivD x _ _ _ => some x
  | .fsqrtD x _ _ => some x
  | .fmaD x _ _ _ => some x
  | .fminD x _ _ _ => some x
  | .fmaxD x _ _ _ => some x
  | .faddS x _ _ _ => some x
  | .fsubS x _ _ _ => some x
  | .fmulS x _ _ _ => some x
  | .fdivS x _ _ _ => some x
  | .fsqrtS x _ _ => some x
  | .fmaS x _ _ _ => some x
  | .fminS x _ _ _ => some x
  | .fmaxS x _ _ _ => some x
  | .fcmpEq x _ _ _ => some x
  | .fcmpLt x _ _ _ => some x
  | .fcmpLe x _ _ _ => some x
  | .fcvtDS x _ _ => some x
  | .fcvtSD x _ _ => some x
  | .fcvtDL x _ _ => some x
  | .fcvtLD x _ _ => some x
  | .fmovG x _ _ => some x
  | .fmovF x _ _ => some x
  | .fnegD x _ _ => some x
  | .fabsD x _ _ => some x
  | .beq x _ _ _ _ => some x
  | .bne x _ _ _ _ => some x
  | .blt x _ _ _ _ => some x
  | .bge x _ _ _ _ => some x
  | .bltu x _ _ _ _ => some x
  | .bgeu x _ _ _ _ => some x
  | .beqi x _ _ _ _ => some x
  | .bnei x _ _ _ _ => some x
  | .blti x _ _ _ _ => some x
  | .bgei x _ _ _ _ => some x
  | .j x _ => some x
  | .jr x _ => some x
  | .callm x _ _ => some x
  | .callmr x _ _ => some x
  | .mfcr x _ _ => some x
  | .mtcr x _ _ => some x
  | .hctxWrite x _ => some x
  | .iclaim x _ => some x
  | .hiclaim x _ => some x
  | .ieoi x _ => some x
  | .hieoi x _ => some x
  | .eret x => some x
  | .wfi x => some x
  | .predclr x => some x
  | .hc x => some x
  | .tlbiAll x => some x
  | .tlbiVa x _ _ => some x
  | .tlbiAsid x _ => some x
  | .fldS x _ _ => some x
  | .fldD x _ _ => some x
  | .fstS x _ _ => some x
  | .fstD x _ _ => some x
  | .pref x _ _ _ => some x
  | .ldrD x _ _ _ => some x
  | .ldrW x _ _ _ => some x
  | .stcD x _ _ _ => some x
  | .stcW x _ _ _ => some x
  | .amoaddD x _ _ _ _ => some x
  | .amoswapD x _ _ _ _ => some x
  | .amoandD x _ _ _ _ => some x
  | .amoorD x _ _ _ _ => some x
  | .amomaxuD x _ _ _ _ => some x
  | .dccl x _ => some x
  | .dcil x _ => some x
  | .dcfl x _ => some x
  | .icil x _ => some x
  | .twait x _ => some x
  | .tnow x _ => some x
  | .prx x _ _ => some x
  | .ptx x _ _ _ => some x
  | .pst x _ _ => some x
  | .pctl x _ _ => some x
  | .pin x _ _ => some x
  | .pout x _ _ => some x
  | .frput x _ _ _ => some x
  | .frget x _ _ => some x
  | .tset x _ _ => some x
  | .tchk x _ _ => some x
  | _ => none

/-- The next instruction that waits for an engine. -/
def State.nextIss (s : State) (e : Engine) : Option Iss :=
  s.pending.findSome? (fun c => (issOf c).bind (fun x => if x.eng = e then some x else none))

/-- Whether the engine's next instruction still joins the group under way, so that no group boundary lies here (05 R145). -/
def State.midGroup (s : State) (e : Engine) : Bool :=
  match s.nextIss e with
  | some x => (s.core e).joins x && (s.core e).group.n != 0 && !(s.core e).group.shut
  | none => false

end Sys2Proof.Machine
end

