-- ==== Sys2Proof/Machine/Irq.lean ====
section
/-! DEFINITION. Interrupts at a logical core or the Trust Core (06 R164, R171, R179-R185): what is pending, what is
deliverable, claims and ends, and taking an interrupt. -/
namespace Sys2Proof.Machine

/-- A pending interrupt: ID, priority, and for a waiting entry its partition. -/
structure Cand where
  id   : Nat
  prio : Nat
  pid  : Nat
deriving DecidableEq, Repr

/-- The IDs of a cluster's route table whose IRSTATE has bit `b` set (0 = PEND, 1 = ACT), ascending. -/
def State.routed (s : State) (c b : Nat) : List Nat :=
  let base := (Reg.irstate c 0).addr
  s.regs.filterMap (fun e =>
    if base + 512 ≤ e.1 && e.1 < base + 65536 && (e.1 - base) % 16 = 0 && bitOf e.2 b then some ((e.1 - base) / 16) else none)

/-- The routed IDs of logical core `l` in a state, with their priority, delivery class and PID. -/
def State.routedTo (s : State) (l b del : Nat) : List Cand :=
  match (s.lc l).place with
  | none => []
  | some p =>
    (s.routed (p / 8) b).filterMap (fun n =>
      let r := Reg.ircfg (p / 8) n
      if s.fld r Fld.ircfgDel == del && s.fld r Fld.ircfgLcore == l
      then some ⟨n, s.fld r Fld.ircfgPrio, s.fld r Fld.ircfgPid⟩ else none)

/-- Whether a timer's condition holds: MTIME has reached its compare value and EN is set (06 R185). -/
def State.timerDue (s : State) (c : Core) (h : Bool) : Bool :=
  bitOf (c.creg (if h then 0x51 else 0x32)) 0 && (c.creg (if h then 0x50 else 0x31)).toNat ≤ s.mtime.toNat

/-- The priority of a doorbell endpoint with an unmasked bit set, when it targets a logical core's place (14 R377). -/
def State.bellPrio (s : State) (place p : Nat) : Option Nat :=
  let v := s.rd (.dbbits (place / 8) p)
  let r := Reg.dbcfg (place / 8) p
  let prio := s.fld r Fld.dbcfgPrio
  if Nat.land (bitsOf v 31 0) (bitsOf (~~~ v) 63 32) != 0 && s.fld r Fld.dbcfgTarget == place % 8 && prio != 0 then some prio else none

/-- The guest-directed entries that wait for another partition than HCTX's (06 R182, 14 R377). -/
def State.waitingFor (s : State) (l : Nat) : List Cand :=
  let c := s.lc l
  let hp := bitsOf (c.creg 0x48) 7 0
  let bells := match c.place with
    | none => []
    | some q => (List.range 254).filterMap (fun i =>
        if i + 1 = hp then none else (s.bellPrio q (i + 1)).map (fun pr => (⟨2, pr, i + 1⟩ : Cand)))
  bells ++ (s.routedTo l 0 2).filter (fun k => k.pid != hp)

/-- The better of two candidates: the higher priority, then the lower ID. -/
def Cand.best : List Cand → Option Cand
  | [] => none
  | k :: ks => match Cand.best ks with
    | none => some k
    | some m => if m.prio > k.prio || (m.prio = k.prio && m.id < k.id) then some m else some k

/-- The priority of core-local ID `n` at a core. -/
def State.privPrio (s : State) (e : Engine) (n : Nat) : Nat :=
  let c := s.core e
  match n with
  | 0 => bitsOf (c.creg 0x32) 13 8
  | 1 => bitsOf (c.creg 0x51) 13 8
  | 2 => (match c.place with
    | some q => s.fld (.dbcfg (q / 8) (bitsOf (c.creg 0x48) 7 0)) Fld.dbcfgPrio
    | none => 0)
  | 3 => if isTrust e then bitsOf s.trust.doorCfg 13 8 else (match c.place with
    | some q => s.fld (.dbcfg (q / 8) 0) Fld.dbcfgPrio
    | none => 0)
  | 4 => Config.tallyPrio.toNat
  | 6 => bitsOf (c.creg 0x58) 13 8
  | _ => 0

/-- Whether core-local ID `n` is pending at an engine. -/
def State.privPending (s : State) (e : Engine) (n : Nat) : Bool :=
  let c := s.core e
  let hp := bitsOf (c.creg 0x48) 7 0
  match n with
  | 0 => c.privPend.getLsbD 0 && s.timerDue c false
  | 1 => c.privPend.getLsbD 1 && s.timerDue c true
  | 2 => hp != 0 && (match c.place with
    | some q => (s.bellPrio q hp).isSome
    | none => false)
  | 3 => if isTrust e then
      Nat.land (bitsOf s.trust.doorbell 31 0) (bitsOf (~~~ s.trust.doorbell) 63 32) != 0 && bitsOf s.trust.doorCfg 13 8 != 0
    else (match c.place with
    | some q => (s.bellPrio q 0).isSome
    | none => false)
  | 4 => c.privPend.getLsbD 4
  | 6 => (match e with
    | .lcore l => !(s.waitingFor l.val).isEmpty
    | _ => false)
  | _ => false

/-- The core-local IDs of a class (06 Table 8). -/
def privOf (h : Bool) : List Nat := if h then [1, 3, 4, 6] else [0, 2]

/-- The interrupts of a class pending at an engine, for HCTX's partition when guest-directed. -/
def State.pendingOf (s : State) (e : Engine) (h : Bool) : List Cand :=
  let hp := bitsOf ((s.core e).creg 0x48) 7 0
  let priv := (privOf h).filterMap (fun n => if s.privPending e n then some (⟨n, s.privPrio e n, 0⟩ : Cand) else none)
  priv ++ match e with
    | .lcore l => (s.routedTo l.val 0 (if h then 1 else 2)).filter (fun k => h || k.pid == hp)
    | _ => []

/-- The highest priority among the interrupts of a class active on an engine. -/
def State.activePrio (s : State) (e : Engine) (h : Bool) : Nat :=
  let c := s.core e
  let priv := (privOf h).map (fun n => if c.privAct.getLsbD n then s.privPrio e n else 0)
  let rout := match e with
    | .lcore l => (s.routedTo l.val 1 (if h then 1 else 2)).map (·.prio)
    | _ => []
  (priv ++ rout).foldl max 0

/-- The threshold of a class: ITHR or HITHR. -/
def Core.thr (c : Core) (h : Bool) : Nat := bitsOf (c.creg (if h then 0x58 else 0x38)) 5 0

/-- The interrupt of a class that the engine would take or claim now (06 R183). -/
def State.deliverable (s : State) (e : Engine) (h : Bool) : Option Cand :=
  match Cand.best (s.pendingOf e h) with
  | some k => if k.prio > (s.core e).thr h && k.prio > s.activePrio e h then some k else none
  | none => none

/-- Claim the deliverable interrupt of a class: the value of ICLAIM or HICLAIM, PEND := 0, ACT := 1 (06 R183). -/
def State.claimIrq (s : State) (e : Engine) (h : Bool) : State × W64 :=
  match s.deliverable e h with
  | none => (s, 0)
  | some k =>
    let c := s.core e
    let wpid := if h && k.id = 6 then (match e with
      | .lcore l => (match Cand.best (s.waitingFor l.val) with
        | some w => w.pid
        | none => 0)
      | _ => 0) else 0
    let v := BitVec.ofNat 64 (2 ^ 63 + wpid * 2 ^ 48 + k.prio * 2 ^ 32 + k.id)
    if k.id < 32 then
      (s.setCore e { c with privPend := c.privPend &&& ~~~ ((1 : BitVec 32) <<< k.id), privAct := c.privAct ||| ((1 : BitVec 32) <<< k.id) }, v)
    else
      let r := Reg.irstate c.cluster k.id
      ((s.putFlag r Fld.irstatePend false).putFlag r Fld.irstateAct true, v)

/-- End of interrupt: ACT of an active ID of the class is cleared; a timer's ID is pending again while its condition holds
(06 R183, R185). -/
def State.endIrq (s : State) (e : Engine) (h : Bool) (id : Nat) : State :=
  let c := s.core e
  if id < 32 then
    if (privOf h).contains id && c.privAct.getLsbD id then
      let again := id < 2 && s.timerDue c h
      s.setCore e { c with privAct := c.privAct &&& ~~~ ((1 : BitVec 32) <<< id), privPend := if again then c.privPend ||| ((1 : BitVec 32) <<< id) else c.privPend }
    else s
  else match e with
    | .lcore l =>
      if (s.routedTo l.val 1 (if h then 1 else 2)).any (fun k => k.id == id) then s.putFlag (.irstate c.cluster id) Fld.irstateAct false
      else s
    | _ => s

/-- A timer's ID becomes pending when its condition holds. -/
def State.timerEvent (s : State) (l : Nat) (h : Bool) : State :=
  if s.timerDue (s.lc l) h then s.raisePriv l (if h then 1 else 0) else s

def execGuestTimer (l : Fin 128) (s : State) : Result := .next (s.timerEvent l.val false)
def execHTimer (l : Fin 128) (s : State) : Result := .next (s.timerEvent l.val true)

/-- A source of the module signals an ID of 32-1,151 to all clusters; other IDs have no such message (06 Table 8). -/
def execIntmsg (id : BitVec 12) (s : State) : Result :=
  .next (if 32 ≤ id.toNat && id.toNat < 1152 then s.raiseId id.toNat else s)

/-- Whether MSGIRQ of a cluster raises an ID for partition `p`. -/
def State.msgTakes (s : State) (p c id : Nat) : Bool :=
  let st := Reg.irstate c id
  let sender := (s.fld st Fld.irstateSendpid == p || s.flag st Fld.irstateAnysend) && !s.flag (.ircfg c id) Fld.ircfgWorld
  1152 ≤ id && (p == 0 || p == 255 || sender)

/-- A write to a cluster's MSGIRQ: raised for PID 0, 255 and the permitted sender of an ID whose entry is not of the trusted
world; otherwise dropped and logged (06 R181). -/
def State.msgIrq (s : State) (r : Req) (c id : Nat) : State :=
  let p := r.pid.toNat
  if s.msgTakes p c id then s.raiseAt c id
  else s.log (0x10F + c * 16) clsContained p r.world (Reg.msgirq c).addr id

def execMsgirq (r : Req) (c : Fin 16) (id : BitVec 12) (s : State) : Result := .next (s.msgIrq r c.val id.toNat)

/-! ### Taking an exception or an interrupt (06 R167-R171) -/

/-- The last cycle in which an earlier instruction writes a result, and not before `t`. -/
def Core.lastWrite (c : Core) (t : Nat) : Nat := c.inflight.foldl (fun u p => max u p.at_) t

/-- The engine with every earlier result written. Entry counts its 7 cycles from the last write of that drain, or from the detection in cycle
`det` when nothing is written after it (05 R146, 06 R169); the cycles without an issue are of class WASTED (21 Table 1). -/
def Core.drained (c : Core) (on : Bool) (det : Nat) : Core :=
  let t := c.lastWrite det
  ({ c.drain with nxt := t }).oweWasted on (t + 7 - c.nxt)

/-- The cycle in which an exception is detected (06 R169): a memory access's at the end of X2, one cycle after its issue; otherwise that of the
instruction, or the one recorded with it. DESIGN CHOICE: Stack limit, which the rule does not list, is detected in X1 (log entry 169). -/
def Core.detection (c : Core) (x : Exc) : Nat :=
  max x.det (c.cyc + (if [3, 5, 6, 7, 8, 9, 0x0F].contains x.cause then 1 else 0))

/-- Whether the enable of a class lets it be taken at the present level (06 R164). -/
def Core.takes (c : Core) (e : Engine) (h : Bool) : Bool :=
  let lv := c.level e
  let m := c.creg 1
  if h then (if 2 ≤ lv then bitOf m 3 else true)
  else lv = 0 || (lv = 1 && bitOf m 2)

/-- Whether an engine is at a group boundary at which an asynchronous event can be taken (05 R145, R155). -/
def Core.boundary (c : Core) : Bool :=
  c.run && !c.halted && !c.pausing && c.frozen.isNone && c.exc.isNone && c.shadow == 0

/-- The asynchronous event taken next: class, ECAUSE and EVAL (06 R171). -/
def State.asyncNext (s : State) (e : Engine) : Option (Bool × W64 × W64) :=
  let c := s.core e
  let word := fun (id prio cause : Nat) => BitVec.ofNat 64 (2 ^ 63 + id * 2 ^ 48 + prio * 2 ^ 32 + cause)
  let hOk := c.takes e true
  if c.recovery && hOk then some (true, word 5 0 0x11, 0)
  else match (if hOk then s.deliverable e true else none) with
    | some k => some (true, word k.id k.prio 0, 0)
    | none =>
      match c.lostStore with
      | some pa =>
        if c.takes e (c.toH 0x0A) then some (c.toH 0x0A, word 0 0 0x0A, BitVec.ofNat 64 pa)
        else if c.takes e false then (s.deliverable e false).map (fun k => (false, word k.id k.prio 0, 0)) else none
      | none => if c.takes e false then (s.deliverable e false).map (fun k => (false, word k.id k.prio 0, 0)) else none

/-- Whether an engine stands between two groups (05 R145). -/
def State.atBoundary (s : State) (e : Engine) : Bool := (s.core e).boundary && !s.midGroup e

/-- Take the asynchronous event that comes next. An older instruction that raises an exception during the drain comes first (05 R150). -/
def State.takeAsync (s : State) (e : Engine) : State :=
  let c := s.core e
  if isJug e || !s.atBoundary e then s
  else if c.doom.isSome then s.setCore e c.fireDoom
  else if c.haltActs e then s.haltNow e
  else match s.asyncNext e with
    | none => s
    | some (h, cause, val) =>
      let on := s.talFor e
      let code := bitsOf cause 7 0
      let d := (c.drained on c.nxt).enterAt h c.pc cause val 0x80
      let d1 := { d with recovery := if code = 0x11 then false else d.recovery, lostStore := (if code = 0x0A then none else d.lostStore),
                         issuedAt := (if c.wait.isSome then s.mtime else c.issuedAt) }
      (s.setCore e (d1.count on (if code = 0 then 0x0E else 0x0D) 1)).traced e 2 code

def execInterruptEntry (eng : Engine) (s : State) : Result := .next (s.takeAsync eng)

/-- Take the synchronous exception raised (06 R167, R168); a Juggler's is taken by `State.jugHalt`. -/
def State.takeExc (s : State) (e : Engine) (x : Exc) : State :=
  let c := s.core e
  let on := s.talFor e
  let h := isTrust e || x.vec || c.toH x.cause
  let same := if h then 2 ≤ c.level e else c.level e == 1
  let d := (c.drained on (c.detection x)).enterAt h x.epc (x.word h) x.eval (if same then 0x40 else 0)
  let d1 := if x.cause = 7 && h then d.setCreg 0x45 x.ipa else d
  (s.setCore e (d1.count on 0x0D 1)).traced e 2 x.cause

end Sys2Proof.Machine
end

