-- ==== Sys2Proof/Machine/Skidder.lean ====
section
/-! DEFINITION. The Skidder of each cluster, cache control, and age-bit parity (07 R198, R202-R214). A Skidder operation acts on
its lines when SKIDDER_DONE comes, which lies within the time the spec gives it (R209). -/
namespace Sys2Proof.Machine

/-- The unit ID of a cluster's L2 and control. -/
def clusterUnit (c : Nat) : Nat := 0x10F + c * 16

/-! ### Operations on one line (07 Table 2) -/

/-- Clean a line of an L2: dirty data, those of the L1Ds included, are in memory, and the line is clean. -/
def State.cleanL2 (s : State) (c line : Nat) : State :=
  let s1 := s.mergeL1 c line
  match s1.findLine (256 + c) line with
  | some l =>
    if l.st = .m then (s1.writeLine line fullMask l.data l.poison).editLine (256 + c) line (fun u => { u with st := .e }) else s1
  | none => s1

/-- Drop a line of an L2 and its L1 copies; its home is told with EvC. -/
def State.dropL2 (s : State) (c line : Nat) : State :=
  let s1 := (s.hosted c).foldl (fun t l => (t.dropL1 l line).dropL1 (128 + l) line) (s.clearResv c line none)
  if (s1.findLine (256 + c) line).isNone then s1
  else (s1.editLine (256 + c) line (fun _ => Line.none)).leave c line false [] 0 0 false

/-- The lock of a line of a cache. -/
def State.lockedIn (s : State) (i line : Nat) : Bool :=
  match s.findLine i line with
  | some l => l.locked
  | none => false

def State.setLock (s : State) (i line : Nat) (b : Bool) : State := s.editLine i line (fun u => { u with locked := b })

/-- The locked ways of a set. -/
def State.lockedWays (s : State) (i set : Nat) : Nat :=
  ((List.range (cacheWays i)).filter (fun w => (s.lineAt i set w).locked)).length

/-- A line brought into an L2 at once, as a shared copy when another agent holds it; false when Firebreak denies it, its home is off or the set
has no candidate. The L2 takes it whether EN is 1 or 0 (DESIGN CHOICE, log entry 170). -/
def State.fillNow (s : State) (c line pid : Nat) : State × Bool :=
  let i := 256 + c
  let world := s.pidWorld pid
  if (s.findWay i line).isSome then (s, true)
  else if !s.copyAllows pid world true false line || !s.inService (homeRouter (homeOf line)) then (s, false)
  else
    let s0 := s.flushLine line false
    let r := s0.dirRoom line
    match r.2 with
    | none => (s, false)
    | some k =>
      let s1 := r.1
      let d := s1.dirAt k
      let hs := if d.used then d.holders else []
      let read := s1.readLine line
      let a := read.1.install i pid world ⟨if hs.isEmpty then .e else .s, line, read.2.1, read.2.2, false, 1, false⟩
      if !a.2 then (s, false)
      else
        let shares := hs.foldl (fun v h => v ||| shareBit h) (shareBit c)
        (a.1.putDir k (if hs.isEmpty then ⟨line, some c, 0, none, 1⟩ else ⟨line, none, shares, none, 0⟩), true)

/-- Whether an L2 line may be locked: at most 8 of the 16 ways of its set, and never the last unlocked way of the PID's mask
(07 R204). -/
def State.mayLockL2 (s : State) (c line pid : Nat) : Bool :=
  let i := 256 + c
  let set := line % 2048
  s.lockedWays i set < 8 &&
  (match s.findWay i line with
   | some w =>
     let open_ := (List.range 16).filter (fun v => s.bitIn (.l2way c pid) Fld.l2wayMask v && !(s.lineAt i set v).locked)
     !(open_ == [w])
   | none => true)

/-- LOCK on one line; false when a limit leaves it unlocked. Where only the limit of the L1D fails, the line stays locked in the L2 (DESIGN
CHOICE, log entry 170). -/
def State.lockLine (s : State) (c line pid : Nat) (l1 : Option Nat) : State × Bool :=
  let a := s.fillNow c line pid
  if !a.2 then (a.1, false)
  else
    let b : State × Bool :=
      if a.1.lockedIn (256 + c) line then (a.1, true)
      else if a.1.mayLockL2 c line pid then (a.1.setLock (256 + c) line true, true)
      else (a.1, false)
    match l1 with
    | none => b
    | some l =>
      if !b.2 then b
      else
        let t := b.1.fillL1 (128 + l) line false false
        if t.lockedIn (128 + l) line then (t, true)
        else if (t.findWay (128 + l) line).isSome && t.lockedWays (128 + l) (line % 64) < 4 then (t.setLock (128 + l) line true, true)
        else (t, false)

/-- Unlock a line in the L1Ds of the target, and in the L2 unless another core's L1D still holds it locked (07 R203). -/
def State.unlockLine (s : State) (c line : Nat) (l1 : Option Nat) : State :=
  let t := (match l1 with
   | some l => [l]
   | none => s.hosted c).foldl (fun t l => t.setLock (128 + l) line false) s
  if (t.hosted c).any (fun l => t.lockedIn (128 + l) line) then t else t.setLock (256 + c) line false

/-- One operation on one line; answers whether the line counts as skipped. Operations: 1 CLEAN, 2 INVAL, 3 FLUSH, 4 LOCK,
5 UNLOCK. -/
def State.skidLine (s : State) (c : Nat) (k : Skid) (line : Nat) : State × Bool :=
  match k.target with
  | .l2 =>
    let lk := s.lockedIn (256 + c) line
    (match k.op with
    | 1 => (s.cleanL2 c line, false)
    | 2 => if lk && !k.incl then (s, true) else (s.dropL2 c line, false)
    | 3 => if lk && !k.incl then (s.cleanL2 c line, true) else ((s.cleanL2 c line).dropL2 c line, false)
    | 4 => let a := s.lockLine c line k.pid none; (a.1, !a.2)
    | _ => (s.unlockLine c line none, false))
  | .l1d j =>
    (match s.coreAt c j.val with
    | none => (s, false)
    | some l =>
      let i := 128 + l
      let lk := s.lockedIn i line
      let dirty : Bool := match s.findLine i line with
        | some d => d.st == .m
        | none => false
      let clean := if dirty then s.cleanL2 c line else s
      match k.op with
      | 1 => (clean, false)
      | 2 => if lk && !k.incl then (s, true) else (s.dropL1 i line, false)
      | 3 => if lk && !k.incl then (clean, true) else (clean.dropL1 i line, false)
      | 4 => let a := s.lockLine c line k.pid (some l); (a.1, !a.2)
      | _ => (s.unlockLine c line (some l), false))
  | .l1i j =>
    (match s.coreAt c j.val with
    | none => (s, false)
    | some l => if k.op = 2 || k.op = 3 then (s.dropL1 l line, false) else (s, false))

/-! ### Commands (07 R207-R211) -/

/-- Whether a disable clean of a cluster is still to end. -/
def State.cleaning (s : State) (c : Nat) : Bool :=
  s.flag (.l2ctl c) Fld.l2ctlBusy || (List.range 8).any (fun j => s.flag (.l1ctl c j) Fld.l1ctlDbusy)

/-- End an operation: BUSY (which a disable clean that now starts keeps), CODE, SKINT (07 R211, R212). -/
def State.skidEnd (s : State) (c code : Nat) : State :=
  let s1 := (s.putFlag (.skstat c) Fld.skstatBusy (s.cleaning c)).putFld (.skstat c) Fld.skstatCode code
  let s2 := if code = 0 then s1 else s1.putFlag (.skint c) Fld.skintErr true
  s2.skint c Fld.skintDone

/-- Whether a range of lines meets the second copy of a twin region. -/
def State.meetsSecond (s : State) (first n : Nat) : Bool :=
  (List.range 16).any (fun t =>
    let r := Reg.mctwin 0 t
    let b := twinOf (s.fld r Fld.mctwinBase * 2 ^ 15)
    let z := s.fld r Fld.mctwinSize * 2 ^ 15
    s.flag r Fld.mctwinEn && first < b + z && b < first + n)

/-- The word of SKCMD. -/
def skWord (op : Nat) (t : SkTarget) (incl : Bool) (pid : Nat) : Nat :=
  let x := match t with
    | .l2 => (0, 0)
    | .l1d j => (1, j.val)
    | .l1i j => (2, j.val)
  op + x.1 * 2 ^ 8 + x.2 * 2 ^ 12 + (if incl then 2 ^ 16 else 0) + pid % 256 * 2 ^ 24

/-- A command of SKCMD that the register accepts (07 R208). One that is both BAD_OP and out of range ends with BAD_OP (DESIGN CHOICE, log
entry 170). -/
def State.skidCommand (s : State) (c op : Nat) (t : SkTarget) (incl : Bool) (pid : Nat) : State :=
  let s0 := s.wr (.skcmd c) (keyedPair (skWord op t incl pid))
  let busy := s.flag (.skstat c) Fld.skstatBusy
  let hosted := match t with
    | .l2 => true
    | .l1d j => (s.coreAt c j.val).isSome
    | .l1i j => (s.coreAt c j.val).isSome
  let isI := match t with
    | .l1i _ => true
    | _ => false
  let first := s.fld (.skaddr c) Fld.skaddrAddr
  let n := s.fld (.sklen c) Fld.sklenLines
  if op = 6 then
    match KV.get none s0.skid c with
    | some k => { s0 with skid := KV.set none s0.skid c (some { k with abort := true }) }
    | none => s0
  else if busy then s0.putFlag (.skstat c) Fld.skstatRefused true
  else
    let s1 := s0.wr (.skcnt c) 0
    if !hosted || (isI && (op = 4 || op = 5)) then s1.skidEnd c 3
    else if n = 0 || 2 ^ 25 < first + n || s.meetsSecond first n then s1.skidEnd c 2
    else { s1.putFlag (.skstat c) Fld.skstatBusy true with skid := KV.set none s1.skid c (some ⟨op, t, incl, pid, first, n, false⟩) }

/-- A register write to SKCMD by a requester (07 R216). -/
def State.skCmd (s : State) (r : Req) (c op : Nat) (t : SkTarget) (incl : Bool) (pid : Nat) : State :=
  if isHost r then s.skidCommand c op t incl pid
  else s.refuse r (clusterUnit c) (Reg.skcmd c).addr 0

def execClean (r : Req) (c : Fin 16) (t : SkTarget) (s : State) : Result := .next (s.skCmd r c.val 1 t false 0)
def execInval (r : Req) (c : Fin 16) (t : SkTarget) (incl : Bool) (s : State) : Result := .next (s.skCmd r c.val 2 t incl 0)
def execFlush (r : Req) (c : Fin 16) (t : SkTarget) (incl : Bool) (s : State) : Result := .next (s.skCmd r c.val 3 t incl 0)
def execLock (r : Req) (c : Fin 16) (t : SkTarget) (pid : BitVec 8) (s : State) : Result :=
  .next (s.skCmd r c.val 4 t false pid.toNat)
def execUnlock (r : Req) (c : Fin 16) (t : SkTarget) (s : State) : Result := .next (s.skCmd r c.val 5 t false 0)
def execAbort (r : Req) (c : Fin 16) (s : State) : Result := .next (s.skCmd r c.val 6 .l2 false 0)

/-- The lines a walk visits: of the range by address, or those of the target found in the range by index (07 R210). -/
def State.walkLines (s : State) (c : Nat) (k : Skid) : List Nat :=
  let i := match k.target with
    | .l2 => 256 + c
    | .l1d j => 128 + (s.coreAt c j.val).getD 0
    | .l1i j => (s.coreAt c j.val).getD 0
  if k.lines ≤ cacheSets i * cacheWays i then (List.range k.lines).map (fun n => k.first + n)
  else (s.lines.filter (fun e => e.1 / 65536 == i && k.first ≤ e.2.line && e.2.line < k.first + k.lines)).map (fun e => e.2.line)

/-- Whether a LOCK still waits: its target is absent from the L2 and its line, or every entry of its directory set, has a transaction. -/
def State.lockWaits (s : State) (c : Nat) (k : Skid) (line : Nat) : Bool :=
  k.op == 4 && (s.findWay (256 + c) line).isNone &&
  (s.lineBusy line || s.wanted c line || (s.dirKeys line).all (fun n => (s.dirAt n).busy.isSome))

/-- SKIDDER_DONE: the operation has visited its lines, or as many as an ABORT left (a free value), and ends. An operation with a line still to
fill has not ended, and the command finds nothing done. -/
def State.skidderDone (s : State) (c : Nat) : State :=
  match KV.get none s.skid c with
  | none => s
  | some k =>
    if (s.walkLines c k).any (s.lockWaits c k) then s else
    let s0 := { s with skid := KV.set none s.skid c none }
    let ls := s0.walkLines c k
    let f := s0.takeFree
    let n := f.1.toNat % (ls.length + 1)
    let s1 := if k.abort then f.2 else s0
    let todo := if k.abort then ls.take n else ls
    let a := todo.foldl (fun (b : State × Nat) line => let r := b.1.skidLine c k line; (r.1, if r.2 then b.2 + 1 else b.2)) (s1, 0)
    let s2 := (a.1.putFld (.skcnt c) Fld.skcntDone todo.length).putFld (.skcnt c) Fld.skcntSkipped a.2
    (s2.blockEvent (clusterUnit c) 5 256 todo.length).skidEnd c (if k.abort then 4 else if k.op = 4 && a.2 != 0 then 5 else 0)

def execSkidderDone (c : Fin 16) (s : State) : Result := .next (s.skidderDone c.val)

/-! ### Cache control (07 R202, R212-R214) -/

/-- The line numbers a cache holds. -/
def State.linesOf (s : State) (i : Nat) : List Nat := (s.lines.filter (fun e => e.1 / 65536 == i)).map (fun e => e.2.line)

/-- Whether a cache holds dirty lines. -/
def State.anyDirty (s : State) (i : Nat) : Bool := s.lines.any (fun e => e.1 / 65536 == i && e.2.st == LineSt.m)

/-- Clean and invalidate an L2, its cluster's L1s with it. -/
def State.emptyL2 (s : State) (c : Nat) : State :=
  (s.linesOf (256 + c)).foldl (fun t n => (t.cleanL2 c n).dropL2 c n) s

/-- Clean and invalidate an L1D. -/
def State.emptyL1D (s : State) (l : Nat) : State :=
  let c := (s.lc l).cluster
  (s.linesOf (128 + l)).foldl (fun t n =>
    (match t.findLine (128 + l) n with
     | some d => if d.st = LineSt.m then t.cleanL2 c n else t
     | none => t).dropL1 (128 + l) n) s

/-- Invalidate an L1I. -/
def State.emptyL1I (s : State) (l : Nat) : State := (s.linesOf l).foldl (fun t n => t.dropL1 l n) s

/-- The entry of a write to EN or REPMODE during a disable clean (07 R214). -/
def State.busyWrite (s : State) (c : Nat) (rg : Reg) : State := s.logEvent (clusterUnit c) clsContained rg.addr 0

/-- Write the lanes `m` of L2CTL. EN and REPMODE lie in its lowest byte, PFEN in the next. -/
def State.writeL2ctl (s : State) (c : Nat) (m v : W64) : State :=
  let rg := Reg.l2ctl c
  let pf := if bitOf m 8 then bitOf v 8 else s.flag rg Fld.l2ctlPfen
  let s1 := s.putFlag rg Fld.l2ctlPfen pf
  let s2 := if pf then s1 else { s1 with l2pf := KV.set [] s1.l2pf c [] }
  if !bitOf m 0 then s2
  else if s.flag rg Fld.l2ctlBusy then s2.busyWrite c rg
  else
    let s3 := if bitsOf v 5 4 ≤ 1 then
        { s2.putFld rg Fld.l2ctlRepmode (bitsOf v 5 4) with lfsr := KV.set 0xACE1 s2.lfsr (256 + c) 0xACE1 } else s2
    if bitOf v 0 then s3.putFlag rg Fld.l2ctlEn true
    else if !s.flag rg Fld.l2ctlEn then s3
    else if s3.anyDirty (256 + c) || (s3.hosted c).any (fun l => s3.anyDirty (128 + l)) then
      (s3.putFlag rg Fld.l2ctlBusy true).putFlag (.skstat c) Fld.skstatBusy true
    else (s3.emptyL2 c).putFlag rg Fld.l2ctlEn false

/-- Write the lanes `m` of L1CTL of a window index the cluster hosts. DBUSY holds DEN and REPMODE, not IEN. -/
def State.writeL1ctl (s : State) (c j : Nat) (m v : W64) : State :=
  match s.coreAt c j with
  | none => s
  | some l =>
    let rg := Reg.l1ctl c j
    let pf := if bitOf m 8 then bitOf v 8 else s.flag rg Fld.l1ctlPfen
    let s1 := s.putFlag rg Fld.l1ctlPfen pf
    let s2 := if pf then s1 else s1.setLc l { s1.lc l with stride := [] }
    let s4 := fun (t : State) => if bitOf v 1 then t.putFlag rg Fld.l1ctlIen true else (t.emptyL1I l).putFlag rg Fld.l1ctlIen false
    if !bitOf m 0 then s2
    else if s.flag rg Fld.l1ctlDbusy then (s4 s2).busyWrite c rg
    else
      let s3 := if bitsOf v 5 4 ≤ 1 then
          { s2.putFld rg Fld.l1ctlRepmode (bitsOf v 5 4) with
            lfsr := KV.set 0xACE1 (KV.set 0xACE1 s2.lfsr l 0xACE1) (128 + l) 0xACE1 } else s2
      let s5 := s4 s3
      if bitOf v 0 then s5.putFlag rg Fld.l1ctlDen true
      else if !s.flag rg Fld.l1ctlDen then s5
      else if s5.anyDirty (128 + l) then
        (s5.putFlag rg Fld.l1ctlDbusy true).putFlag (.skstat c) Fld.skstatBusy true
      else (s5.emptyL1D l).putFlag rg Fld.l1ctlDen false

/-- CACHE_CONTROL_WRITE: only PID 0 and 255 write the register (07 R216). -/
def execCacheControlWrite (r : Req) (c : Fin 16) (which : CacheCtl) (v : W64) (s : State) : Result :=
  .next (match which with
    | .l2 => if isHost r then s.writeL2ctl c.val (BitVec.allOnes 64) v else s.refuse r (clusterUnit c.val) (Reg.l2ctl c.val).addr 0
    | .l1 j => if isHost r then s.writeL1ctl c.val j.val (BitVec.allOnes 64) v else s.refuse r (clusterUnit c.val) (Reg.l1ctl c.val j.val).addr 0)

/-- CACHE_DISABLE_DONE: the clean, which starts after a running operation, has ended: the cache is invalidated and off. -/
def State.disableDone (s : State) (c : Nat) (which : CacheCtl) : State :=
  if (KV.get none s.skid c).isSome then s
  else
    let t := match which with
      | .l2 => if s.flag (.l2ctl c) Fld.l2ctlBusy then
          ((s.emptyL2 c).putFlag (.l2ctl c) Fld.l2ctlBusy false).putFlag (.l2ctl c) Fld.l2ctlEn false else s
      | .l1 j => if s.flag (.l1ctl c j.val) Fld.l1ctlDbusy then
          let e := match s.coreAt c j.val with
            | some l => s.emptyL1D l
            | none => s
          (e.putFlag (.l1ctl c j.val) Fld.l1ctlDbusy false).putFlag (.l1ctl c j.val) Fld.l1ctlDen false else s
    if t.cleaning c then t else t.putFlag (.skstat c) Fld.skstatBusy false

def execCacheDisableDone (c : Fin 16) (which : CacheCtl) (s : State) : Result := .next (s.disableDone c.val which)

/-! ### Age bits (07 R198) -/

/-- AGEERR after the caches that rewrite their ages have changed: set while the cache does, or either L1 of the core whose bit it is; an I/O
cache has none. -/
def State.showAgeErr (s : State) (i : Nat) : State :=
  if i < 256 then
    let l := i % 128
    match (s.lc l).place with
    | some p => s.putFlag (.l1ctl (p / 8) (p % 8)) Fld.l1ctlAgeerr (s.ageErr.contains l || s.ageErr.contains (128 + l))
    | none => s
  else if i < 272 then s.putFlag (.l2ctl (i - 256)) Fld.l2ctlAgeerr (s.ageErr.contains i)
  else s

/-- The unit ID of a cache. -/
def State.cacheUnit (s : State) (i : Nat) : Nat :=
  if i < 256 then s.unitOf (engOf (i % 128)) else if i < 272 then clusterUnit (i - 256) else 0x300 + (i - 272) * 8 + 7

def execAgeParityError (c : CacheId) (s : State) : Result :=
  let i := cacheNo c
  let t := { s with ageErr := if s.ageErr.contains i then s.ageErr else s.ageErr ++ [i] }
  .next ((t.showAgeErr i).logEvent (t.cacheUnit i) clsCorrected 0 0)

/-- AGE_REWRITE_DONE: every age of a cache that rewrites them is 3, and AGEERR is cleared. -/
def execAgeRewriteDone (c : CacheId) (s : State) : Result :=
  let i := cacheNo c
  if !s.ageErr.contains i then .next s
  else
    .next ({ s with
      ageErr := s.ageErr.filter (fun n => n != i)
      lines := KV.remap Line.none s.lines (fun k u => if k / 65536 = i then { u with age := 3 } else u) }.showAgeErr i)

end Sys2Proof.Machine
end

