-- ==== Sys2Proof/Machine/Pairs.lean ====
section
/-! DEFINITION. Recovery of logical cores (16 R410-R418) and array errors (07 R215). A pair's confirmed state is the model's
architectural state at the present group boundary: a rollback re-executes from there and repeats nothing (log entry 50). -/
namespace Sys2Proof.Machine

/-! ### Physical cores -/

/-- Whether a cluster has a spare core for a recovery. -/
def State.hasSpare (s : State) (c : Nat) : Bool := decide (s.spareOf c < 15) && s.scState c != scNoSpare

/-- The run sets (14 PTCORE) hold a logical core. -/
def State.inRunSet (s : State) (p l : Nat) : Bool := bitOf (s.rd (.ptcore p (l / 64))) (l % 64)
def State.inAnyRunSet (s : State) (l : Nat) : Bool := (List.range 256).any (fun p => s.inRunSet p l)

/-- The unit of a physical core. -/
def coreUnit (c slot : Nat) : Nat := 0x100 + c * 16 + slot

/-- The physical slots of a logical core. -/
def Core.slots (k : Core) : List Nat := k.lead :: k.mate.toList

/-- Lookout halts a logical core: its record, interrupt 1,121 and entry; LOOKOUT_OK goes inactive when it was in a run set or
ran for H; its physical cores go to test (16 R418, Table 7). -/
def State.loseCore (s : State) (l kind : Nat) : State :=
  let k := s.lc l
  let c := k.cluster
  let s1 := s.setLc l { k with
    run := false, duty := .lost, frozen := none, wait := none, exc := none, resv := none, pausing := false, sbuf := [], devOut := 0,
    live := [], owed := Live.zero, stash := [] }
  let s2 := ((s1.recover l kind).raiseId 1121).logEvent (coreUnit c k.lead) clsContained 0 kind
  let s3 := { s2 with car := { s2.car with lostTest := s2.car.lostTest ++ (k.slots.map (fun x => 16 * c + x)) } }
  if s.inAnyRunSet l || bitsOf (k.creg 0x48) 7 0 = 0 then s3.lkoCause 6 else s3

/-- A planned step of a cluster, or the test of its spare, is abandoned for a recovery: the spare is a spare again, untested (01 R20). -/
def State.abandonStep (s : State) (c : Nat) : State :=
  let s1 := { s with car := { s.car with swapping := KV.set none s.car.swapping c none, retest := s.car.retest.filter (fun e => e != c) } }
  if s.scState c = scWaiting || s.scState c = scTesting then
    s1.setScState c (if s.car.hold.contains c then scHeld else scReady)
  else s1

/-- The spare is committed, a step that wanted it abandoned: the scope has no spare left. -/
def State.commitSpare (s : State) (c : Nat) : State := (s.abandonStep c).exhaust c

/-- Restart of fetch after a recovery: the access or fetch that held the core is issued again. -/
def Core.refetch (k0 : Core) : Core :=
  let k := match k0.frozen with
    | some (.access a) => (match a.late with
      | some l => k0.undone l.2
      | none => k0)
    | _ => k0.fireDoom
  { k with win := none, frozen := (match k.frozen with
    | some (.access a) => if a.late.isNone && !a.pieces.isEmpty && a.pieces.all (fun x => x.got.isSome) then some (.access a) else none
    | some (.fetch _) => none
    | some (.walk _ _ _) => none
    | f => f), group := Group.fresh, resv := none }

/-! ### Pairs (16 R413-R416) -/

/-- A rollback: the reservation is cleared, both cores fetch again from the confirmed state; Recovery notice, record, entry. -/
def State.rollback (s : State) (l : Nat) : State :=
  let k := s.lc l
  let t := s.mtime.toNat
  let k1 := { k.refetch with recovery := true, rollbacks := t :: k.rollbacks.filter (fun x => t < x + 1000000000) }
  ((s.setLc l k1).recover l 1).logEvent (coreUnit k.cluster k.lead) clsRecovered 0 (k.mate.getD 0)

/-- Whether a mismatch now is a hard fault: within 3 µs after a rollback. -/
def State.hardNow (s : State) (l : Nat) : Bool :=
  match (s.lc l).rollbacks with
  | t :: _ => decide (s.mtime.toNat < t + 3000)
  | [] => false

/-- A pair is held for Lookout's triple vote, which needs the cluster's spare. -/
def State.holdForVote (s : State) (l : Nat) (k : Core) : State :=
  (s.setLc l { k with pausing := true }).abandonStep k.cluster

/-- PAIR_MISMATCH: a rollback; a mismatch within 3 µs after one, or the sixteenth within 1 s, is a hard fault, and the pair
is held for Lookout's triple vote. -/
def State.pairMismatch (s : State) (l : Nat) : State :=
  let k := s.lc l
  if k.duty ≠ .pair || k.place.isNone || s.lko.stopped || k.pausing then s
  else if s.hardNow l then s.holdForVote l k.refetch
  else
    let s1 := s.rollback l
    let k1 := s1.lc l
    if 16 ≤ k1.rollbacks.length then s1.holdForVote l k1 else s1

def execPairMismatch (l : Fin 128) (s : State) : Result := .next (s.pairMismatch l.val)

/-- The logical core resumes after a recovery: interrupt 1,120, record, Recovery notice. The count of R414 starts anew (DESIGN CHOICE:
the spec does not say that earlier rollbacks still count after a vote; log entry 50). -/
def State.recovered (s : State) (l kind : Nat) (notice : Bool) : State :=
  let k := s.lc l
  ((s.setLc l { k with pausing := false, recovery := k.recovery || notice, rollbacks := [], issuedAt := s.mtime }).recover l kind).raiseId 1120

/-- TRIPLE_VOTE: the outcome of Table 3; in a cluster without a spare, where the vote ends before the copy, one original core
that reported an error is retired and the logical core is degraded (16 R416). -/
def State.vote (s : State) (l : Nat) (v : Vote) : State :=
  let k := s.lc l
  let c := k.cluster
  if !k.pausing || k.duty ≠ .pair then s
  else
    let spare := s.spareOf c
    let has := s.hasSpare c
    match v with
    | .oneOriginal leading =>
      let bad := if leading then k.lead else k.mate.getD 0
      let good := if leading then k.mate.getD 0 else k.lead
      if has then
        let s1 := (s.setLc l { k with lead := good, mate := some spare }).recovered l 2 true
        (s1.commitSpare c).retire c bad 0
      else
        let s1 := (s.setLc l { k with lead := good, mate := none, duty := .degraded }).recovered l 4 true
        s1.retire c bad 0
    | .spareAlone =>
      if has then ((s.recovered l 3 true).retire c spare 0).exhaust c else s.loseCore l 5
    | .noMismatch =>
      if has then (s.recovered l 3 true).setScState c scTesting else s.loseCore l 5
    | .allDiffer => s.loseCore l 5

def execTripleVote (l : Fin 128) (v : Vote) (s : State) : Result := .next (s.vote l.val v)

/-! ### Split cores and hung cores (16 R417, R418) -/

/-- SPLIT_HARD_FAULT: the core drains, the spare takes its state and place; without a spare, or with a fault that the drain
cannot pass, the logical core is lost. -/
def State.splitFault (s : State) (l : Nat) (why : SplitFault) : State :=
  let k := s.lc l
  let c := k.cluster
  if (k.duty ≠ .split && k.duty ≠ .degraded) || k.place.isNone then s
  else
    let fatal := why == .registerParity || why == .drainSecondFault
    if fatal || !s.hasSpare c || s.lko.stopped then s.loseCore l 5
    else
      let s1 := s.setLc l { k.drain with lead := s.spareOf c, win := none, group := Group.fresh }
      ((s1.recover l 2).commitSpare c).retire c k.lead 0 |>.raiseId 1120

def execSplitHardFault (l : Fin 128) (why : SplitFault) (s : State) : Result := .next (s.splitFault l.val why)

/-- HUNG_LOGICAL_CORE: no group has issued for LKOCFG.HANG µs outside WFI; it includes a core stopped by the fetch of an H
vector (06 R170). -/
def execHungLogicalCore (l : Fin 128) (s : State) : Result :=
  let k := s.lc l.val
  .next (if k.place.isNone || k.duty == .lost || k.wait.isSome || k.halted || k.pausing || !s.alive k.cluster || s.lko.stopped || k.issuedAt.toNat + s.fld .lkocfg Fld.lkocfgHang * 1000 > s.mtime.toNat then s
    else s.loseCore l.val 6)

/-- LKOCMD: RESTART of a lost logical core on a physical core of its that has passed test; it starts from the reset state, at
PWRRES, as a degraded core (16 R418). -/
def State.restart (s : State) (l : Nat) : State :=
  let k := s.lc l
  let c := k.cluster
  let fit := k.slots.find? (fun x => !s.car.lostTest.contains (16 * c + x) && !s.isRetired c x)
  match fit with
  | none => s
  | some x =>
    if k.duty ≠ .lost || !s.alive c then s
    else
      let k1 := { Core.reset with
        place := k.place, duty := .degraded, lead := x, mate := none, run := true, issuedAt := s.mtime
        pc := BitVec.ofNat 64 (s.fld .pwrres Fld.pwrresAddr) }
      let s1 := s.setLc l k1
      if lcores.any (fun n => (s1.lc n).duty == .lost) then s1 else s1.lkoClear 6

def execRestart (r : Req) (l : Fin 128) (s : State) : Result :=
  .next (if isHost r then (s.wr .lkocmd (keyedPair (3 + l.val * 256))).restart l.val
    else s.refuse r 0x710 Reg.lkocmd.addr 3)

/-! ### Array errors (07 Table 3) -/

/-- A line that an array error takes: invalidated where clean, marked poison where dirty. -/
def State.badLine (s : State) (i line unit : Nat) : State :=
  match s.findLine i line with
  | none => s
  | some d =>
    if d.st = .m then
      (s.editLine i line (fun u => { u with poison := 255 })).logEvent unit clsDeferred (line * 64) 0
    else if i < 256 then (s.dropL1 i line).logEvent unit clsCorrected (line * 64) 0
    else (s.dropL2 (i - 256) line).logEvent unit clsCorrected (line * 64) 0

/-- An error in the L2 tags: the line is invalidated, and an owner's line is lost (08 R234). -/
def State.badTag (s : State) (c line : Nat) : State :=
  if (s.findLine (256 + c) line).isNone then s
  else
    let s1 := ((s.hosted c).foldl (fun t l => (t.dropL1 l line).dropL1 (128 + l) line) (s.clearResv c line none)).editLine
      (256 + c) line (fun _ => Line.none)
    let s2 := match s1.findDir line with
      | some k => s1.reclaimAt k c
      | none => s1
    s2.logEvent (clusterUnit c) clsContained (line * 64) 0

/-- The LMEM word at a window address of a logical core. -/
def lmemWord (l pa : Nat) : Nat := (l * 65536 + pa % 65536) / 8

/-- ARRAY_ERROR: correctable errors are corrected with an entry; an uncorrectable one follows Table 3, in a pair's L1 or LMEM
as a mismatch. -/
def State.arrayError (s : State) (a : ErrArray) (pa : Nat) (ok : Bool) : State :=
  let line := pa / 64
  let unit := fun (l : Nat) => s.unitOf (engOf l)
  let pair := fun (l : Nat) => (s.lc l).duty == .pair
  match a with
  | .l1i l => if pair l.val then s.pairMismatch l.val else (s.dropL1 l.val line).logEvent (unit l.val) clsCorrected pa 0
  | .l1d l =>
    if ok then s.logEvent (unit l.val) clsCorrected pa 0
    else if pair l.val then s.pairMismatch l.val
    else s.badLine (128 + l.val) line (unit l.val)
  | .l2 c => if ok then s.logEvent (clusterUnit c.val) clsCorrected pa 0 else s.badLine (256 + c.val) line (clusterUnit c.val)
  | .l2tag c => if ok then s.logEvent (clusterUnit c.val) clsCorrected pa 0 else s.badTag c.val line
  | .lmem l =>
    let w := lmemWord l.val pa
    if ok then
      ({ s with st := { s.st with lmemSyn := KV.set 0 s.st.lmemSyn w 0 } }).logEvent (unit l.val) clsCorrected pa 0
    else if pair l.val then s.pairMismatch l.val
    else ({ s with st := { s.st with lmemSyn := KV.set 0 s.st.lmemSyn w 0x7F } }).logEvent (unit l.val) clsDeferred pa 0

def execArrayError (a : ErrArray) (pa : PAddr) (correctable : Bool) (s : State) : Result :=
  .next (s.arrayError a pa.toNat correctable)

/-- ARRAY_PATROL_READ: the hourly read of the L2 and the LMEMs writes correctable errors back; an error it finds is an
ARRAY_ERROR of its own. -/
def State.patrolRead (s : State) (a : ErrArray) (pa : Nat) : State :=
  match a with
  | .lmem l =>
    let w := lmemWord l.val pa
    let v := (KV.get 0 s.st.lmemSyn w).toNat
    (match syndOf v with
    | .bit i =>
      let b := KV.getAll 0 s.st.lmem (w * 8) 8
      let d := BitVec.ofNat 64 (ofBytes b) ^^^ (1 <<< i)
      { s with st := { s.st with lmem := KV.setAll 0 s.st.lmem (w * 8) (toBytes 8 d.toNat), lmemSyn := KV.set 0 s.st.lmemSyn w 0 } }.logEvent
        (s.unitOf (engOf l.val)) clsCorrected pa 0
    | .check => { s with st := { s.st with lmemSyn := KV.set 0 s.st.lmemSyn w 0 } }.logEvent (s.unitOf (engOf l.val)) clsCorrected pa 0
    | _ => s)
  | _ => s

def execArrayPatrolRead (a : ErrArray) (pa : PAddr) (s : State) : Result := .next (s.patrolRead a pa.toNat)

end Sys2Proof.Machine
end

