-- ==== Sys2Proof/Machine/Qp.lean ====
section
/-! DEFINITION. Queue pairs (11 R306-R310): registers, delivery of a frame to a receive ring, transmit descriptors. -/
namespace Sys2Proof.Machine

/-- The unit ID of group control with its DMA engine. -/
def gcUnit (g : Nat) : Nat := 0x300 + g * 8 + 7

def State.qpEn (s : State) (g q : Nat) : Bool := s.flag (.qpcfg g q) Fld.qpcfgEn
def State.qpPid (s : State) (g q : Nat) : Nat := s.fld (.qpcfg g q) Fld.qpcfgPid

/-- HEAD and TAIL of the receive (`tx = false`) or transmit ring. -/
def qpIdx (g q : Nat) (tx : Bool) : Reg := if tx then .qptxt g q else .qprxt g q
def State.qpHead (s : State) (g q : Nat) (tx : Bool) : Nat := s.fld (qpIdx g q tx) Fld.qprxtHead
def State.qpTail (s : State) (g q : Nat) (tx : Bool) : Nat := s.fld (qpIdx g q tx) Fld.qprxtTail
def State.qpLog (s : State) (g q : Nat) (tx : Bool) : Nat :=
  s.fld (.qpcfg g q) (if tx then Fld.qpcfgTxlog2 else Fld.qpcfgRxlog2)
def State.qpBase (s : State) (g q : Nat) (tx : Bool) : Nat :=
  s.fld (if tx then .qptxr g q else .qprxr g q) Fld.qprxrBase * 32
/-- The physical address of the descriptor at HEAD. -/
def State.descAt (s : State) (g q : Nat) (tx : Bool) : Nat :=
  s.qpBase g q tx + s.qpHead g q tx % 2 ^ s.qpLog g q tx * 32

/-- The window of a queue pair: base and size in bytes. -/
def State.qpWin (s : State) (g q : Nat) : Nat × Nat :=
  (s.fld (.qpwin g q) Fld.qpwinBase * 4096, s.fld (.qpwin g q) Fld.qpwinSize * 4096)

/-! ### Registers -/

/-- A transmit descriptor without OWN no longer holds the ring: it has been written again (11 R308). -/
def State.txResume (s : State) (g q : Nat) : State :=
  let x := s.group g
  if x.txHeld.contains q then s.setGroup g { x with txHeld := x.txHeld.filter (fun e => e != q) } else s

/-- A queue pair is disabled: the frame whose descriptor is in progress, the oldest, is still written, the others are dropped and counted
(11 R309). -/
def State.qpStop (s : State) (g q : Nat) : State :=
  let x := s.group g
  let fs := KV.get [] x.rxJob q
  if fs.length ≤ 1 then s
  else (s.setGroup g { x with rxJob := KV.set [] x.rxJob q (fs.take 1) }).rtCount g Fld.rtcntQdrop (fs.length - 1)

/-- A write of QPCFG: PID 0 or 255 (11 R314); a change of any other field than EN while EN is 1, a reserved ring size with EN = 1,
PID 255, a reserved bit or a partition that the pool entry does not accept rejects it (R6, R309, 14 R373). EN 0 to 1 clears HEAD and TAIL of both rings. -/
def State.writeQpcfg (s : State) (r : Req) (g q : Nat) (v : W64) : State :=
  let reg := Reg.qpcfg g q
  let lo := bitsOf v 31 0
  let old := bitsOf (s.rd reg) 31 0
  let en := lo / 2 ^ 23 % 2 == 1
  let size := fun (n : Nat) => 4 ≤ n && n ≤ 12
  let okSize := size (lo / 2 ^ 12 % 16) && size (lo / 2 ^ 8 % 16)
  let other := fun (n : Nat) => (n / 2 ^ 24, n % 2 ^ 23)
  let sameOther := decide (other lo = other old)
  if !s.groupAlive g then s.loseStore r reg.addr
  else if r.pid.toNat ≠ 0 && r.pid.toNat ≠ 255 then s.refuse r (gcUnit g) reg.addr 0
  else if !pairOk v || lo / 2 ^ 24 = 255 || lo / 2 ^ 16 % 128 ≠ 0 || lo % 256 ≠ 0 || (en && !okSize)
      || (old / 2 ^ 23 % 2 = 1 && !sameOther)
      || !s.poolTakes (lo / 2 ^ 24) (s.fld (.gcpoolq g q) Fld.gcpoolqPid) (s.flag (.gcpoolq g q) Fld.gcpoolqAny) then s.refuse r (gcUnit g) reg.addr 0
  else
    let s1 := s.wr reg v
    if en && old / 2 ^ 23 % 2 = 0 then (((s1.wr (.qprxt g q) 0).wr (.qptxt g q) 0)).txResume g q
    else if !en && old / 2 ^ 23 % 2 = 1 then s1.qpStop g q
    else s1

def execQpcfgWrite (r : Req) (g : Fin 32) (q : Fin 128) (v : W64) (s : State) : Result :=
  .next (s.gated r (Reg.qpcfg g.val q.val).addr (fun s => s.writeQpcfg r g.val q.val v))

/-- A write of TAIL: by PID 0, 255 or the queue pair's PID; ignored and logged when TAIL - HEAD would exceed the ring (11 R309). A write of the transmit
TAIL resumes a ring whose descriptor at HEAD had OWN = 0 (R308). -/
def State.writeTail (s : State) (r : Req) (g q : Nat) (tx : Bool) (v : W64) : State :=
  let reg := qpIdx g q tx
  let tail := bitsOf v 15 0
  let used := (tail + 65536 - s.qpHead g q tx) % 65536
  if !s.groupAlive g then s.loseStore r reg.addr
  else if r.pid.toNat ≠ 0 && r.pid.toNat ≠ 255 && r.pid.toNat ≠ s.qpPid g q then s.refuse r (gcUnit g) reg.addr 0
  else if 2 ^ s.qpLog g q tx < used then s.refuse r (gcUnit g) reg.addr 0
  else if tx then (s.putFld reg Fld.qprxtTail tail).txResume g q
  else s.putFld reg Fld.qprxtTail tail

def execQpTailWrite (r : Req) (g : Fin 32) (q : Fin 128) (tx : Bool) (v : W64) (s : State) : Result :=
  .next (s.gated r (qpIdx g.val q.val tx).addr (fun s => s.writeTail r g.val q.val tx v))

/-! ### Events of a queue pair -/

/-- Set RXPEND or TXPEND; with its enable bit the group's interrupt 16 + q / 8 (11 Table 9). -/
def State.qpPend (s : State) (g q : Nat) (tx : Bool) : State :=
  let r := Reg.qpictl g q
  let s1 := s.putFlag r (if tx then Fld.qpictlTxpend else Fld.qpictlRxpend) true
  if s1.flag r (if tx then Fld.qpictlTxie else Fld.qpictlRxie) then s1.groupEvent g (16 + q / 8) else s1

/-- Advance HEAD. -/
def State.qpAdvance (s : State) (g q : Nat) (tx : Bool) : State :=
  (s.putFld (qpIdx g q tx) Fld.qprxtHead ((s.qpHead g q tx + 1) % 65536)).blockEvent (gcUnit g) 3 (s.qpPid g q) 1

/-- Record a failed line: the first since VALID was cleared, an entry of class contained, group event 6 (11 R310). -/
def State.dmaError (s : State) (g q done pa : Nat) : State :=
  let s1 := if s.flag (.gcdmae g) Fld.gcdmaeValid then s
    else s.wr (.gcdmae g) (BitVec.ofNat 64 (2 ^ 63 + q % 128 * 2 ^ 56 + done % 4096 * 2 ^ 44 + pa % 2 ^ 40))
  (s1.log (gcUnit g) clsContained (s.qpPid g q) (s.pidWorld (s.qpPid g q)) pa q).groupEvent g 6

/-! ### Receive (11 R307) -/

/-- A frame waits for the queue pair; the group writes its buffer and descriptor at RX_DESCRIPTOR_WRITE. Deliveries to a disabled
queue pair are dropped and counted by the router (13 R349). -/
def State.deliver (s : State) (g q : Nat) (f : Frame) : State :=
  if s.qpEn g q then
    let t := s.blockEvent (0x300 + g * 8 + 5) 3 256 1
    let gr := t.group g
    t.setGroup g { gr with rxJob := KV.set [] gr.rxJob q (KV.get [] gr.rxJob q ++ [f]) }
  else s.rtCount g Fld.rtcntQdrop 1

/-- The 32 bytes of a completed descriptor (11 Table 7). -/
def descBytes (off len port status id entry kind : Nat) (t : W64) : List Byte :=
  toBytes 8 off ++ toBytes 2 len ++ toBytes 2 0 ++ toBytes 2 port ++ toBytes 2 status ++ toBytes 4 id ++ toBytes 2 entry
    ++ toBytes 2 kind ++ toBytes 8 t.toNat

/-- The oldest frame of a queue pair is written: buffer lines, then the descriptor with OWN = 0; HEAD advances, RXPEND is set.
With HEAD = TAIL, or a descriptor not owned by the group, the frame is dropped and counted in DROP. -/
def State.rxWrite (s : State) (g q : Nat) : State :=
  let gr := s.group g
  match KV.get [] gr.rxJob q with
  | [] => s
  | f :: rest =>
    let s0 := s.setGroup g { gr with rxJob := KV.set [] gr.rxJob q rest }
    let drop := fun (s : State) => s.bump (.qpictl g q) Fld.qpictlDrop 1
    let pid := s.qpPid g q
    let w := s.pidWorld pid
    if s.qpHead g q false = s.qpTail g q false then drop s0
    else
      let at_ := s.descAt g q false
      let r := s0.ioDescriptor (gcUnit g) pid w at_ 32
      match r.2.2 with
      | some (pa, _) => drop (r.1.dmaError g q 0 pa)
      | none =>
        let d := r.2.1
        let off := ofBytes (d.take 8)
        let room := ofBytes ((d.drop 8).take 2)
        if (d.getD 10 0).toNat % 2 = 0 then drop r.1
        else
          let n := min room f.data.length
          let win := s.qpWin g q
          let done := fun (s : State) (len status : Nat) =>
            let b := s.ioWriteN (gcUnit g) pid w at_ (descBytes off len f.port status f.id f.entry f.kind f.time)
            let s1 := match b.2 with
              | some (pa, k, _) => b.1.dmaError g q k pa
              | none => b.1
            (s1.qpAdvance g q false).qpPend g q false
          if win.2 < off + room then done r.1 0 7
          else
            let b := r.1.ioWriteN (gcUnit g) pid w (win.1 + off) (f.data.take n)
            match b.2 with
            | some (pa, k, _) => done (b.1.dmaError g q k pa) k 3
            | none => done b.1 n (if room < f.data.length then 1 else f.status)

def execRxDescriptorWrite (g : Fin 32) (q : Fin 128) (s : State) : Result := .next (s.rxWrite g.val q.val)

/-! ### Transmit (11 R308) -/

/-- Write a transmit descriptor back: OWN = 0 and STATUS, for a direct port the transmit stamp over 0x18 (12 R332); HEAD advances,
TXPEND is set. -/
def State.txBack (s : State) (g q status : Nat) (stamp : Option W64) : State :=
  let pid := s.qpPid g q
  let w := s.pidWorld pid
  let at_ := s.descAt g q true
  let gr := s.group g
  let s0 := s.setGroup g { gr with txJob := KV.set none gr.txJob q none }
  let late := match stamp with
    | some t => toBytes 8 t.toNat
    | none => []
  let b := s0.ioWriteMask (gcUnit g) pid w at_ (maskAt 10 2 + maskAt 14 2 + maskAt 24 late.length)
    (List.replicate 14 0 ++ toBytes 2 status ++ List.replicate 8 0 ++ late)
  let s1 := match b.2 with
    | some (pa, k, _) => b.1.dmaError g q k pa
    | none => b.1
  (s1.qpAdvance g q true).qpPend g q true

/-- The descriptor at HEAD is read with its payload, while HEAD differs from TAIL; one that the group does not own is left until the next
write of TAIL. OFFSET + LEN beyond
the window ends it with RANGE_ERR, a failed read with READ_ERR. -/
def State.txFetch (s : State) (g q : Nat) : State :=
  let gr := s.group g
  if !s.qpEn g q || gr.txHeld.contains q || (KV.get none gr.txJob q).isSome || s.qpHead g q true = s.qpTail g q true then s
  else
    let pid := s.qpPid g q
    let w := s.pidWorld pid
    let r := s.ioDescriptor (gcUnit g) pid w (s.descAt g q true) 32
    match r.2.2 with
    | some (pa, _) => r.1.dmaError g q 0 pa
    | none =>
      let d := r.2.1
      let n16 := fun (o : Nat) => ofBytes ((d.drop o).take 2)
      if n16 10 % 2 = 0 then
        let x := r.1.group g
        r.1.setGroup g { x with txHeld := x.txHeld ++ [q] }
      else
        let off := ofBytes (d.take 8)
        let len := n16 8
        let win := s.qpWin g q
        let f : Frame := { port := n16 12, kind := n16 22, id := ofBytes ((d.drop 16).take 4), time := 0, entry := 0xFFFF,
                           status := 0, data := [] }
        let put := fun (s : State) (x : TxDesc) =>
          let gr := s.group g
          s.setGroup g { gr with txJob := KV.set none gr.txJob q (some x) }
        let launch := BitVec.ofNat 64 (ofBytes (d.drop 24))
        if win.2 < off + len then put r.1 ⟨f, 0, 7⟩
        else
          let p := r.1.ioReadN (gcUnit g) pid w (win.1 + off) len
          match p.2.2 with
          | some (pa, _) => put (p.1.dmaError g q p.2.1.length pa) ⟨f, 0, 4⟩
          | none => put p.1 ⟨{ f with data := p.2.1 }, launch, 0⟩

def execTxDescriptorFetch (g : Fin 32) (q : Fin 128) (s : State) : Result := .next (s.txFetch g.val q.val)

end Sys2Proof.Machine
end

