-- ==== Sys2Proof/Machine/Router.lean ====
section
/-! DEFINITION. The frame router (13): table entries, the match, its actions, forwards across groups, end-to-end protection,
updates, bank swaps, integrity. -/
namespace Sys2Proof.Machine

/-! ### Table entries (13 R347, R348) -/

/-- The address of word `w` of entry `e` of a bank. -/
def rtAddr (g : Nat) (second : Bool) (e w : Nat) : Nat :=
  0x0800000000 + g * 0x1000000 + (if second then 0x140000 else 0x100000) + e * 0x40 + w * 8

/-- A word of an entry; after reset the value 0 with its complement. -/
def State.rtWord (s : State) (g : Nat) (second : Bool) (e w : Nat) : W64 :=
  KV.get 0 s.regs (rtAddr g second e w) ^^^ 0xFFFFFFFF00000000

def State.putRtWord (s : State) (g : Nat) (second : Bool) (e w : Nat) (v : W64) : State :=
  { s with regs := KV.set 0 s.regs (rtAddr g second e w) (v ^^^ 0xFFFFFFFF00000000) }

/-- A field of an entry. -/
def State.rtf (s : State) (g : Nat) (second : Bool) (e w hi lo : Nat) : Nat := bitsOf (s.rtWord g second e w) hi lo

/-- Whether every pair of an entry holds. -/
def State.rtPairs (s : State) (g : Nat) (second : Bool) (e : Nat) : Bool :=
  (List.range 8).all (fun w => pairOk (s.rtWord g second e w))

/-- The entries of a bank that hold anything but reset words, ascending. -/
def State.rtEntries (s : State) (g : Nat) (second : Bool) : List Nat :=
  let b := rtAddr g second 0 0
  ((s.regs.filterMap (fun e => if b ≤ e.1 && e.1 < b + 0x40000 then some ((e.1 - b) / 0x40) else none))).eraseDups

/-- The active bank: false = bank 0. -/
def State.rtBank (s : State) (g : Nat) : Bool := s.flag (.rtstat g) Fld.rtstatBank

/-- Whether an entry with these words' values would be invalid (13 R348). -/
def State.rtInvalid (s : State) (w : Nat → Nat) : Bool :=
  let f := fun (i hi lo : Nat) => bitsOf (BitVec.ofNat 32 (w i)) hi lo
  let src := f 0 26 17
  let badPort := fun (n : Nat) => s.ifc n == 0xA || s.ifc n == 0xB
  f 4 13 0 != 0 || f 5 13 0 != 0 || f 7 9 0 != 0
    || !(src < 16 || (0x100 ≤ src && src < 0x180) || src == 0x3FF)
    || (f 4 30 30 == 1 && badPort (f 5 31 23)) || (f 4 29 29 == 1 && badPort (f 5 22 14))
    || f 6 31 30 == 3 || (f 6 31 30 != 0 && f 6 29 26 == 0)

/-! ### The match (13 R344, R345) -/

/-- The key ID of a frame (13 Table 1). -/
def Frame.key (f : Frame) : Nat :=
  if f.kind ≤ 3 then f.id % 2 ^ 30 else if f.kind = 4 then f.id % 64 else if f.kind = 5 then
    let w := fun (i : Nat) => (f.data.getD i 0).toNat * 256 + (f.data.getD (i + 1) 0).toNat
    if w 12 = 0x8100 then w 16 * 65536 + 2 ^ 15 + w 14 % 65536 / 8192 * 4096 + w 14 % 4096 else w 12 * 65536
  else f.id

/-- The source code of a frame: pp of a port, 0x100 + q of a queue pair. -/
def Frame.source (f : Frame) : Nat := if f.port < 512 then f.port % 16 else 0x100 + (f.port - 0x200)

/-- Whether an entry matches a frame. -/
def State.rtMatches (s : State) (g : Nat) (b : Bool) (e : Nat) (f : Frame) : Bool :=
  let x := s.rtf g b e
  let dmac := x 0 15 0 * 2 ^ 32 + x 1 31 0
  x 0 31 31 == 1 && (x 0 30 27 == 0 || x 0 30 27 == f.kind) && (x 0 26 17 == 0x3FF || x 0 26 17 == f.source)
    && Nat.land (Nat.xor f.key (x 2 31 0)) (x 3 31 0) == 0
    && (x 0 16 16 == 0 || (f.kind == 5 && ofBytes (f.data.take 6) == dmac))

/-- An entry whose pairs do not hold: INTEG, the first such index, an entry of class contained, group event 11 (13 R365). -/
def State.rtBad (s : State) (g e : Nat) : State :=
  let r := Reg.rtstat g
  if s.flag r Fld.rtstatInteg && s.fld r Fld.rtstatBadidx == e then s
  else
    let s1 := if s.flag r Fld.rtstatInteg then s else (s.putFlag r Fld.rtstatInteg true).putFld r Fld.rtstatBadidx e
    (s1.logEvent (0x300 + g * 8 + 5) clsContained (rtAddr g (s.rtBank g) e 0) e).groupEvent g 11

/-- The frame's entry: the lowest that matches and whose pairs hold; those that fail on the way are noted. -/
def State.rtFind (s : State) (g : Nat) (f : Frame) : List Nat → State × Option Nat
  | [] => (s, none)
  | e :: es =>
    let b := s.rtBank g
    if !s.rtPairs g b e then (s.rtBad g e).rtFind g f es
    else if s.rtMatches g b e f then (s, some e) else s.rtFind g f es

/-! ### End-to-end protection (13 R356, R357) -/

/-- CRC-8 SAE J1850 and CRC-16-CCITT. -/
def crcP8 (bs : List Byte) : Nat := Nat.xor (crcMsb 8 0x1D 0xFF bs) 0xFF
def crcP16 (bs : List Byte) : Nat := crcMsb 16 0x1021 0xFFFF bs

/-- The result codes: 0 OK, 1 CRC, 2 REPEATED, 3 WRONG_SEQ, 4 LENGTH. -/
def State.e2eResult (s : State) (g : Nat) (b : Bool) (e : Nat) (f : Frame) : Nat :=
  let x := s.rtf g b e
  let p16 := x 6 31 30 == 2
  let co := x 7 31 21
  let no := x 7 20 10
  let n := f.data.length
  let id := x 6 15 0
  let at_ := fun (i : Nat) => (f.data.getD i 0).toNat
  let body := f.data.take co ++ f.data.drop (co + if p16 then 2 else 1)
  let want := if p16 then crcP16 (body ++ [BitVec.ofNat 8 (id / 256), BitVec.ofNat 8 id])
              else crcP8 ([BitVec.ofNat 8 id, BitVec.ofNat 8 (id / 256)] ++ body)
  let have_ := if p16 then at_ co * 256 + at_ (co + 1) else at_ co
  let m := if p16 then 256 else 16
  let cnt := at_ no % m
  let q := Reg.rteseq g e
  let d := (cnt + m - s.fld q Fld.rteseqLastcnt % m) % m
  if n ≤ (if p16 then co + 1 else co) || n ≤ no then 4
  else if want ≠ have_ then 1
  else if s.fld q Fld.rteseqEstate ≠ 1 then 0
  else if d = 0 then 2 else if d ≤ x 6 29 26 then 0 else 3

/-- The check of a protected entry with its state (13 R357): the state after it and the result. -/
def State.e2eCheck (s : State) (g : Nat) (e : Nat) (f : Frame) : State × Nat :=
  let b := s.rtBank g
  let x := s.rtf g b e
  if x 6 31 30 = 0 then (s, 0)
  else
    let res := s.e2eResult g b e f
    let q := Reg.rteseq g e
    let cnt := (f.data.getD (x 7 20 10) 0).toNat % (if x 6 31 30 = 2 then 256 else 16)
    let s1 := s.putFld q Fld.rteseqResult res
    let s2 := if res = 0 || res = 3 then (s1.putFld q Fld.rteseqLastcnt cnt).putFld q Fld.rteseqEstate 1 else s1
    let s3 := if res = 0 then s2.putFld q Fld.rteseqLast (f.time.toNat % 2 ^ 48) else s2
    let s4 := if res ≠ 0 then (s3.bump (.rtehit g e) Fld.rtehitFails 1).blockEvent (0x300 + g * 8 + 5) 4 256 1 else s3
    (if res ≠ 0 && x 6 25 24 % 2 = 1 then s4.groupEvent g 8 else s4, res)

/-! ### Forwards (13 R350, R354) -/

/-- The number of 64-byte messages of a frame. -/
def Frame.fragments (f : Frame) : Nat := (f.size + 63) / 64

/-- Whether a forward of the frame of queue pair `q` of group `g` is still under way. -/
def State.fwdPending (s : State) (g q : Nat) : Bool :=
  s.groups.any (fun e => e.2.forwards.any (fun w => w.src == g && w.frame.port == 0x200 + q))

/-- The transmit descriptor of a queue pair whose frame was handed on is written back once no forward of it is under way. -/
def State.txFinish (s : State) (g q : Nat) : State :=
  match KV.get none (s.group g).txJob q with
  | some d => if 0x100 ≤ d.status && !s.fwdPending g q then s.txBack g q (d.status % 256) none else s
  | none => s

/-- Note PORT_DOWN for the frame of a queue pair. -/
def State.txDown (s : State) (g : Nat) (f : Frame) : State :=
  if f.port < 512 then s
  else
    let gr := s.group g
    match KV.get none gr.txJob (f.port - 0x200) with
    | some d => s.setGroup g { gr with txJob := KV.set none gr.txJob (f.port - 0x200) (some { d with status := 0x106 }) }
    | none => s

/-- Send a frame to a port: directly in its own group, otherwise over the fabric; Absent is counted (13 R350, R354). -/
def State.forward (s : State) (g : Nat) (f : Frame) (port : Nat) : State :=
  let dg := port / 16
  if dg = g then s.toPort port f
  else if !s.groupAlive dg then (s.rtCount g Fld.rtcntAbsent 1).txDown g f
  else
    let t := (s.blockEvent (0x300 + g * 8 + 5) 2 256 1).countFlits (groupRouter g) (groupRouter dg) 256 (3 * f.fragments)
    let gr := t.group dg
    t.setGroup dg { gr with forwards := gr.forwards ++ [⟨g, dg, port, f, 0, 0⟩] }

/-- Take a forward out of its destination group; the source's descriptor may then be written back. -/
def State.endForward (s : State) (w : Forward) : State :=
  let gr := s.group w.dst
  let s1 := s.setGroup w.dst { gr with forwards := gr.forwards.erase w }
  if w.frame.port < 512 then s1 else s1.txFinish w.src (w.frame.port - 0x200)

/-- The next fragment of the oldest forward between two groups arrives: refused by RTACCEPT at the first, placed at the last. -/
def State.frFwd (s : State) (src dst : Nat) : State :=
  match (s.group dst).forwards.find? (fun w => w.src == src) with
  | none => s
  | some w =>
    if !s.groupAlive dst then ((s.rtCount src Fld.rtcntAbsent 1).txDown src w.frame).endForward w
    else if w.got = 0 && !s.bitIn (.rtaccept dst) Fld.rtacceptAccept src then (s.rtCount dst Fld.rtcntDenied 1).endForward w
    else if w.got + 1 < w.frame.fragments then
      let gr := s.group dst
      let w' := { w with got := w.got + 1, at_ := if w.got = 0 then s.mtime else w.at_ }
      s.setGroup dst { gr with forwards := gr.forwards.map (fun v => if v == w then w' else v) }
    else (s.toPort w.port w.frame).endForward w

def execFrfwd (src dst : Fin 32) (s : State) : Result := .next (s.frFwd src.val dst.val)

/-- A frame whose last fragment has not arrived 10 µs after its first is discarded and counted in QDROP. -/
def execForwardReassemblyTimeout (src dst : Fin 32) (s : State) : Result :=
  .next (match (s.group dst.val).forwards.find? (fun w => w.src == src.val && w.got != 0) with
    | some w => if w.at_.toNat + 10000 ≤ s.mtime.toNat then (s.rtCount dst.val Fld.rtcntQdrop 1).endForward w else s
    | none => s)

/-! ### Actions (13 R345-R352, R358) -/

/-- The actions of an entry on a frame it matched, by the result of its check. -/
def State.rtActions (s : State) (g e : Nat) (f : Frame) (res : Nat) : State :=
  let b := s.rtBank g
  let x := s.rtf g b e
  let h := { f with id := f.key, entry := e, status := if res = 0 then 0 else 2 }
  let s1 := if x 4 31 31 = 1 && (res = 0 || x 6 25 25 = 0) then s.deliver g (x 4 27 21) h else s
  let s2 := if x 4 30 30 = 1 && res = 0 then s1.forward g f (x 5 31 23) else s1
  let s3 := if x 4 29 29 = 1 && res = 0 then s2.forward g f (x 5 22 14) else s2
  if x 4 28 28 = 1 then s3.deliver g (x 4 20 14) h else s3

/-- The oldest accepted frame is matched; a frame no entry matches is a miss; with EN = 0 every frame is discarded as a miss. -/
def State.frameMatch (s : State) (g : Nat) : State :=
  let gr := s.group g
  match gr.accept with
  | [] => s
  | f :: rest =>
    let s0 := s.setGroup g { gr with accept := rest }
    let s1 :=
      if !s.flag (.rtcfg g) Fld.rtcfgEn then s0.rtCount g Fld.rtcntMiss 1
      else
        let r := s0.rtFind g f (s0.rtEntries g (s0.rtBank g))
        match r.2 with
        | none =>
          let s2 := r.1.rtCount g Fld.rtcntMiss 1
          if s2.flag (.rtcfg g) Fld.rtcfgMissdel then
            s2.deliver g (s2.fld (.rtcfg g) Fld.rtcfgMissqp) { f with id := f.key, entry := 0xFFFF }
          else s2
        | some e =>
          let s2 := (r.1.bump (.rtehit g e) Fld.rtehitHits 1).blockEvent (0x300 + g * 8 + 5) 1 256 1
          let c := s2.e2eCheck g e f
          c.1.rtActions g e f c.2
    if f.port < 512 then s1 else s1.txFinish g (f.port - 0x200)

def execFrameMatch (g : Fin 32) (s : State) : Result := .next (s.frameMatch g.val)

/-! ### Transmit hand-on (11 R308, 13 R351) -/

/-- At LAUNCH the frame of a queue pair is handed on: to the router with PORT 0xFFFF, else to a port whose land its partition
owns. -/
def State.txLaunch (s : State) (g q : Nat) : State :=
  let gr := s.group g
  match KV.get none gr.txJob q with
  | none => s
  | some d =>
    let f := { d.frame with port := 0x200 + q, time := s.mtime }
    let port := d.frame.port
    let own := Reg.rtown g port
    let handed := fun (s : State) =>
      let gr := s.group g
      s.setGroup g { gr with txJob := KV.set none gr.txJob q (some { d with status := 0x100 }) }
    if 0x100 ≤ d.status then s
    else if d.status ≠ 0 then s.txBack g q d.status none
    else if s.mtime.toNat < d.launch.toNat then s
    else if port = 0xFFFF then
      let s1 := handed s
      let gr1 := s1.group g
      s1.setGroup g { gr1 with accept := gr1.accept ++ [f] }
    else if !s.flag (.rtcfg g) Fld.rtcfgEn then (s.rtCount g Fld.rtcntMiss 1).txBack g q 0 none
    else if 512 ≤ port || !s.flag own Fld.rtownValid || s.fld own Fld.rtownPid ≠ s.qpPid g q then
      (s.rtCount g Fld.rtcntDenied 1).txBack g q 5 none
    else if port / 16 = g then
      let c := s.ifc port
      let down := wordIfc c && !s.posRuns port
      (s.toPort port f).txBack g q (if down then 6 else 0) (if directIfc c then some s.mtime else none)
    else ((handed s).forward g f port).txFinish g q

def execTxLaunch (g : Fin 32) (q : Fin 128) (s : State) : Result := .next (s.txLaunch g.val q.val)

/-! ### Scans and updates (13 R359, R363-R365) -/

/-- The timeout of one protected entry. -/
def State.e2eTimeout (s : State) (g e : Nat) : State :=
  let x := s.rtf g (s.rtBank g) e
  let q := Reg.rteseq g e
  let age := (s.mtime.toNat % 2 ^ 48 + 2 ^ 48 - s.fld q Fld.rteseqLast) % 2 ^ 48
  if x 0 31 31 = 1 && x 6 31 30 ≠ 0 && x 6 23 16 ≠ 0 && s.fld q Fld.rteseqEstate = 1 && x 6 23 16 * 1000000 ≤ age then
    let s1 := (s.putFld q Fld.rteseqEstate 2).putFld q Fld.rteseqResult 5
    let s2 := (s1.bump (.rtehit g e) Fld.rtehitFails 1).blockEvent (0x300 + g * 8 + 5) 4 256 1
    if x 6 24 24 = 1 then s2.groupEvent g 9 else s2
  else s

def execE2eTimeoutScan (g : Fin 32) (s : State) : Result :=
  .next ((s.rtEntries g.val (s.rtBank g.val)).foldl (fun s e => s.e2eTimeout g.val e) s)

def execRouterIntegrityScan (g : Fin 32) (s : State) : Result :=
  .next ([false, true].foldl (fun s b =>
    (s.rtEntries g.val b).foldl (fun s e => if s.rtPairs g.val b e then s else s.rtBad g.val e) s) s)

/-- Clear ESTATE, LASTCNT and the counts of an entry (13 R364). -/
def State.rtFresh (s : State) (g e : Nat) : State :=
  ((s.wr (.rtehit g e) 0).putFld (.rteseq g e) Fld.rteseqEstate 0).putFld (.rteseq g e) Fld.rteseqLastcnt 0

/-- A command in RTUPDCMD by PID 0 or 255: BUSY while an update runs or a delta carries ROUTER, BAD_ENTRY for an invalid entry,
otherwise the entry of the active bank is replaced or invalidated; group event 11 (13 R364). -/
def State.rtUpdate (s : State) (r : Req) (g e cmd : Nat) : State :=
  let reg := Reg.rtupdcmd g
  let unit := 0x300 + g * 8 + 5
  if !s.groupAlive g then s.loseStore r reg.addr
  else if r.pid.toNat ≠ 0 && r.pid.toNat ≠ 255 then s.refuse r unit reg.addr 0
  else
    let s1 := s.wr reg (keyedPair (e * 65536 + cmd))
    let code := fun (s : State) (c : Nat) => s.putFld (.rtstat g) Fld.rtstatUcode c
    let w := fun (i : Nat) => s.fld (.rtupdw g i) Fld.rtupdwValue
    let b := s.rtBank g
    if s.layCarries 5 0 || s.flag (.rtstat g) Fld.rtstatUbusy then code s1 1
    else if cmd = 1 && s.rtInvalid w then code s1 2
    else
      let s2 := if cmd = 1 then (List.range 8).foldl (fun s i => s.putRtWord g b e i (keyedPair (w i))) s1
                else s1.putRtWord g b e 0 (keyedPair (s.rtf g b e 0 30 0))
      (code (s2.rtFresh g e) 0).groupEvent g 11

def execRouterEntryWrite (r : Req) (g : Fin 32) (e : BitVec 12) (s : State) : Result :=
  .next (s.gated r (Reg.rtupdcmd g.val).addr (fun s => s.rtUpdate r g.val e.toNat 1))
def execRouterEntryInvalidate (r : Req) (g : Fin 32) (e : BitVec 12) (s : State) : Result :=
  .next (s.gated r (Reg.rtupdcmd g.val).addr (fun s => s.rtUpdate r g.val e.toNat 2))

/-- A group swaps its banks at or after the time of the delta; the end-to-end state of every entry becomes initial (13 R363). -/
def State.bankSwap (s : State) (g : Nat) : State :=
  let gr := s.group g
  match gr.swapAt with
  | none => s
  | some t =>
    if s.mtime.toNat < t.toNat then s
    else
      let s1 := (s.setGroup g { gr with swapAt := none }).putFlag (.rtstat g) Fld.rtstatBank (!s.rtBank g)
      let b := (Reg.rteseq g 0).addr
      let s2 := { s1 with regs := s1.regs.filter (fun e => !(b ≤ e.1 && e.1 < b + 0x10000 && (e.1 - b) % 16 == 0)) }
      if s2.groups.any (fun e => e.2.swapAt.isSome) then s2 else s2.switched 5 0

def execRouterBankSwap (g : Fin 32) (s : State) : Result := .next (s.bankSwap g.val)

end Sys2Proof.Machine
end

