-- ==== Sys2Proof/Machine/Reset.lean ====
section
/-! DEFINITION. What the loss of power or a reset does to a domain (07 R194, 11 R287, 17 R453, 18 R468-R470): a cluster, a port
group, a memory channel, a fabric plane, the Trust Core; and the start of a cluster's logical cores. -/
namespace Sys2Proof.Machine

/-- Set whether a domain is powered, and whether it is held in reset. -/
def State.setPower (s : State) (d : Nat) (b : Bool) : State := s.putBit .pwrdom Fld.pwrdomOn d b
def State.setHeld (s : State) (d : Nat) (b : Bool) : State := if d < 48 then s.putBit .rstdom Fld.rstdomHeld d b else s

/-- Registers of an address range come back at their reset values, but those that pass. -/
def State.resetRange (s : State) (lo hi : Nat) (keep : Nat → Bool) : State :=
  { s with regs := KV.keep (fun a => a < lo || hi ≤ a || keep a) s.regs }

/-- The entries of a store outside a range of keys. -/
def outside {α : Type} (m : KV α) (lo n : Nat) : KV α := KV.keep (fun a => a < lo || lo + n ≤ a) m

/-- Absent for a Device or Remote access under way to a target that is gone, or whose answer it has not sent (08 R246). -/
def absentFor (r : Nat) (m : Msg) : Option Msg :=
  if (m.kind = .drd || m.kind = .dwr) && m.dst = r && m.src ≠ r then some { m with kind := .absent, dst := m.src }
  else if m.kind = .drsp && m.src = r && m.dst ≠ r then some { m with kind := .absent, src := m.dst, data := [] }
  else none

/-- An attachment's queues empty: nothing is in flight from it or to it, and its pairs start afresh (18 R464); accesses to it receive
Absent (08 R246). -/
def State.dropRouter (s : State) (r : Nat) : State :=
  { s with
    net := s.net.filterMap (fun m => if m.src ≠ r && m.dst ≠ r then some m else absentFor r m)
    fab := { s.fab with pairs := KV.keep (fun k => k / 64 != r && k % 64 != r) s.fab.pairs } }

/-- What a caching agent holds and asks for is gone. -/
def State.dropAgent (s : State) (a : Nat) (caches : List Nat) : State :=
  { s with
    lines := KV.keep (fun k => !caches.contains (k / 65536)) s.lines
    leaving := s.leaving.filter (fun e => e.agent != a)
    wants := s.wants.filter (fun w => w.agent != a) }

/-- A logical core of a cluster without power or in reset: its place and how it is served stay. -/
def Core.off (k : Core) : Core := { Core.reset with place := k.place, duty := k.duty, lead := k.lead, mate := k.mate }

/-- The caches of a cluster by number. -/
def State.clusterCaches (s : State) (c : Nat) : List Nat :=
  (256 + c) :: ((s.hosted c).map (fun l => l) ++ (s.hosted c).map (fun l => 128 + l))

/-- Cluster `c` loses its state; its doorbell entries stay (14 R375). -/
def State.dropCluster (s : State) (c : Nat) : State :=
  let base := 0x0900000000 + c * 0x100000
  let s1 := (s.hosted c).foldl (fun t l => t.setLc l (t.lc l).off) s
  let s2 := ((s1.dropAgent c (s.clusterCaches c)).dropRouter (clusterRouter c)).resetRange base (base + 0x100000)
    (fun a => a % 0x100000 / 0x10000 = 0xA)
  { s2 with
    skid := KV.set none s2.skid c none
    l2pf := KV.set [] s2.l2pf c []
    ageErr := s2.ageErr.filter (fun k => k != 256 + c && !((s.hosted c).contains (k % 128) && k < 256))
    lfsr := KV.keep (fun k => k != 256 + c && !((s.hosted c).contains (k % 128) && k < 256)) s2.lfsr }

/-- Frames on their way to a group that is gone receive Absent (13 R354); a switch of a delta that waited in it is made, because the group
comes back with the sections in force (11 R287, 02 R45). -/
def State.groupGone (s : State) (g : Nat) : State :=
  let x := s.group g
  let s1 := x.forwards.foldl (fun t w => ((t.rtCount w.src Fld.rtcntAbsent 1).txDown w.src w.frame).endForward w) s
  let s2 := s1.setGroup g Group2.reset
  let s3 := if x.pos.any (fun e => e.2.joinAlt.isSome) then s2.switched 4 g else s2
  if x.swapAt.isSome && !s3.groups.any (fun e => e.2.swapAt.isSome) then s3.switched 5 0 else s3

/-- Port group `g` loses its state. The tables of its Firebreak unit, which the Trust Core restores before the group answers again,
stand (11 R287). -/
def State.dropGroup (s : State) (g : Nat) : State :=
  let base := 0x0800000000 + g * 0x1000000
  let s1 := (List.range 5).foldl (fun t k => t.setCore (jugEng g k) Core.reset) s
  let s2 := (List.range 16).foldl (fun t p => t.setPort (g * 16 + p) Port.reset) s1
  let s3 := ((s2.groupGone g).dropAgent (16 + g) [272 + g]).dropRouter (groupRouter g)
  let s4 := s3.resetRange base (base + 0x1000000) (fun a => base + 0x8000 ≤ a && a < base + 0xA000)
  { s4 with st := { s4.st with
    jcode := outside s4.st.jcode (5 * g * 65536) (5 * 65536)
    jdata := outside s4.st.jdata (5 * g * 65536) (5 * 65536)
    jsyn := outside (outside s4.st.jsyn (5 * g * 8192) (5 * 8192)) (2 ^ 24 + 5 * g * 8192) (5 * 8192)
    jstore := outside s4.st.jstore (storeAddr g 0 false false 0) (16 * 65536)
    jstoreSyn := outside s4.st.jstoreSyn (storeAddr g 0 false false 0 / 8) (2 * 65536) } }

/-- Every request that a home which is gone has not answered receives Absent, in flight, queued or in its transaction (08 R246). -/
def State.absentHome (s : State) (h : Nat) : State :=
  { s with net := s.net ++ (s.wants.filter (fun w => homeOf w.line == h)).map (fun w =>
      let x := agentRouter w.agent
      { Msg.of .absent x x w.agent (w.line * 64) with tag := w.tag, pid := w.pid, world := w.world })
    ++ (s.leaving.filter (fun e => homeOf e.line == h && e.sent)).map (fun e =>
      let x := agentRouter e.agent
      { Msg.of .absent x x e.agent (e.line * 64) with pid := e.pid, world := e.world }) }

/-- Channel `h` loses its state: its directory, its queue and its lines in the dies, the twin copies among them. -/
def State.dropHome (s : State) (h : Nat) : State :=
  let base := 0x0A00000000 + h * 0x100000
  let s1 := ((({ s with
    dir := KV.keep (fun k => k / 131072 != h) s.dir
    homes := KV.set Home.reset s.homes h Home.reset }).dropRouter (homeRouter h)).absentHome h).resetRange base (base + 0x100000) (fun _ => false)
  { s1 with st := { s1.st with
    main := KV.keep (fun a => homeOf (a / 64) != h) s1.st.main
    syn := KV.keep (fun w => homeOf (w / 8) != h) s1.st.syn } }

/-- The Trust Core's attachment and own SRAM. -/
def State.dropTrust (s : State) : State :=
  let s1 := ((s.setCore .trust Core.reset).dropRouter trustRouter).dropAgent 48 []
  { s1 with st := { s1.st with sram := [] } }

/-- A switched domain loses power or is reset. -/
def State.dropDomain (s0 : State) (d : Nat) : State :=
  let s := s0.domainScopeDown d
  if d < 16 then s.dropCluster d
  else if d < 48 then s.dropGroup (d - 16)
  else if d < 56 then s.dropHome (d - 48)
  else if d = 60 then s.dropTrust
  else s

/-! ### Orderly cuts (17 R453) -/

/-- Clean and invalidate the I/O cache of a group. -/
def State.emptyIo (s : State) (g : Nat) : State :=
  let s1 := (s.lines.filter (fun e => e.1 / 65536 == 272 + g && e.2.st == .m)).foldl
    (fun t e => t.writeLine e.2.line fullMask e.2.data e.2.poison) s
  { s1 with lines := KV.keep (fun k => k / 65536 != 272 + g) s1.lines }

/-- One directory entry no longer names an agent whose caches have been cleaned. -/
def State.dirForget (s : State) (key a : Nat) : State :=
  let d := s.dirAt key
  if !d.used then s
  else match d.busy with
    | none => s.putDir key (let e := d.without a; if e.used then e else DirEnt.none)
    | some t =>
      let t' := { t with waits := t.waits.erase a, evicted := t.evicted.erase a }
      let s1 := s.putDir key { d.without a with busy := some t' }
      if t.waits.contains a then s1.settle key else s1

/-- Dirty lines that are leaving an agent reach memory, and no directory entry names the agent. -/
def State.forgetAgent (s : State) (a : Nat) : State :=
  let s1 := (s.leaving.filter (fun e => e.agent == a && e.dirty)).foldl (fun t e => t.writeLine e.line fullMask e.data e.poison) s
  (s1.dir.map (·.1)).foldl (fun t k => t.dirForget k a) { s1 with leaving := s1.leaving.filter (fun e => e.agent != a) }

/-- The caches of a domain are cleaned, and its logical cores flush their counts (21 R517), before it is cut or reset. -/
def State.cleanDomain (s : State) (d : Nat) : State :=
  if d < 16 then ((s.emptyL2 d).forgetAgent d).flushWhere (fun l => s.hosts d l)
  else if d < 48 then (s.emptyIo (d - 16)).forgetAgent d
  else s

/-- An orderly cut of a domain. -/
def State.cutDomain (s : State) (d : Nat) : State := ((s.cleanDomain d).setPower d false).setHeld d false |>.dropDomain d

/-! ### Release of a cluster (17 R453, 18 R470) -/

/-- A logical core that its cluster's release starts: at H at PWRRES, from the reset state of R163. -/
def Core.started (k : Core) (at_ : W64) : Core :=
  { k.off with
    run := true, pc := at_
    duty := if k.duty = .lost then (if k.mate.isSome then .pair else .split) else k.duty }

/-- Cluster `c` leaves reset: LMEM is zeroed (07 R194) and its logical cores start. -/
def State.startCluster (s : State) (c : Nat) : State :=
  let ls := s.hosted c
  let s1 := { s with st := { s.st with
    lmem := KV.keep (fun a => !ls.contains (a / 65536)) s.st.lmem
    lmemSyn := KV.keep (fun w => !ls.contains (w / 8192)) s.st.lmemSyn } }
  let s2 := ls.foldl (fun t l => t.setLc l { (t.lc l).started (BitVec.ofNat 64 (t.fld .pwrres Fld.pwrresAddr)) with issuedAt := t.mtime }) s1
  if lcores.any (fun n => (s2.lc n).duty == .lost) then s2 else s2.lkoClear 6

/-- The endpoints of a cluster are reset (14 R384). -/
def State.resetEndpoints (s : State) (c : Nat) : State := (List.range 255).foldl (fun t p => t.epReset (c * 256 + p)) s

/-! ### Doze and Standby (12 R326, R328, 17 R449) -/

/-- Whether an address lies in the block of port `pp` of group `g`. -/
def inPortBlock (g pp a : Nat) : Bool :=
  let b := 0x0800200000 + g * 0x1000000 + pp * 0x10000
  b ≤ a && a < b + 0x10000

/-- A group leaves service for Doze or Standby: the registers of its ports with WAKEEN stand in the always-on wake detectors; its CAN
ports stand by and its LIN ports sleep. -/
def State.keepWake (s : State) (g : Nat) (cut : State → State) : State :=
  let ps := (List.range 16).filter (fun p => s.flag (.pctrl g p) Fld.pctrlWakeen)
  let kept := KV.keep (fun a => ps.any (fun p => inPortBlock g p a)) s.regs
  let s1 := cut s
  let s2 := { s1 with regs := kept.foldl (fun m (e : Nat × W64) => KV.set 0 m e.1 e.2) s1.regs }
  ps.foldl (fun t p => t.setPort (g * 16 + p) { Port.reset with standby := t.ifc (g * 16 + p) == 1, asleep := t.ifc (g * 16 + p) == 2 }) s2

/-- A domain is cut on the way to Doze or Standby. -/
def State.cutQuiet (s : State) (d : Nat) : State := if 16 ≤ d && d < 48 then s.keepWake (d - 16) (fun t => t.cutDomain d) else s.cutDomain d

/-- ALIGNED goes from 1 to 0: interrupt 1,128 and an entry (18 R467). -/
def State.unalign (s : State) : State :=
  if s.flag .mtstat Fld.mtstatAligned then ((s.putFlag .mtstat Fld.mtstatAligned false).raiseId 1128).logEvent 0x7F0 clsContained 0 0
  else s

/-- The reference is lost: the internal oscillator takes over; HOLD, interrupt 1,128, an entry; ALIGNED is cleared (18 R459). -/
def State.refLost (s : State) : State :=
  if s.clk.internal then s
  else
    let s1 := { s with clk := { s.clk with internal := true } }.putFlag .mtstat Fld.mtstatHold true
    ((s1.raiseId 1128).logEvent 0x7F0 clsContained 0 0).unalign

/-- Standby: mailboxes and doorbells end (14 R386), every domain is cut, main memory is lost; XO_VCC goes off, with the effects of a lost
reference (23 R546). -/
def State.standbyNow (s : State) : State :=
  let s1 := (((List.range 61).filter s.powered).foldl State.cutQuiet s.mailStandby).refLost
  { s1 with
    st := { s1.st with main := [], syn := [], spare := [], spareSyn := [] }
    pwr := { s1.pwr with standby := true, dozing := false, falling := false } }

end Sys2Proof.Machine
end

