-- ==== Sys2Proof/Machine/Lookout.lean ====
section
/-! DEFINITION. Lookout (16 R426-R429, 15 R406): dead agents, emergencies, heartbeats, LOOKOUT_OK. -/
namespace Sys2Proof.Machine

/-! ### Dead agents (16 R426) -/

/-- The messages of a dead agent that are still on their way to a home are dropped and logged (08 R234). -/
def State.logDead (s : State) (d : Nat) : State :=
  (s.net.filter (fun m => m.src == agentRouter d && (List.range 8).any (fun h => homeRouter h == m.dst) && m.kind != .drd && m.kind != .dwr)).foldl (fun t m =>
    t.logEvent (0x500 + homeOf m.addr) clsContained (m.addr * 64) 0) s

/-- A domain is declared dead: interrupt 1,127 and an entry; the domain stays in reset; a dead cluster loses its logical
cores (16 R418), and homes reclaim the lines of a caching agent (08 R234). After Lookout has stopped nothing is declared. -/
def State.declareDead (s : State) (d : Nat) : State :=
  if s.lko.stopped || s.lko.dead.contains d then s
  else
    let s1 := { s with lko := { s.lko with dead := s.lko.dead ++ [d] } }.setHeld d true
    let s2 := (s1.raiseId 1127).logEvent 0x710 clsContained 0 d
    let s3 := if d < 16 then (s2.hosted d).foldl (fun t l => if (t.lc l).duty = .lost then t else t.loseCore l 5) s2 else s2
    if d < 48 then ((s3.logDead d).reclaim d).dropDomain d else s3

/-- LOOKOUT_DECISION on a report of R233: an agent whose alive signal has not toggled, that reports an uncorrectable error, or
that is reported for the third time in the transaction is dead; otherwise the home keeps waiting. -/
def State.lkoDecide (s : State) (agent line : Nat) (v : AgentView) : State :=
  match s.awaiting agent line with
  | none => s
  | some (_, _, t) =>
    match t.reports.find? (fun e => e.1 == agent) with
    | none => s
    | some e => if !v.aliveToggled || v.uncorrectable || 3 ≤ e.2 then s.declareDead agent else s

def execLookoutDecision (agent : Fin 48) (line : BitVec 34) (v : AgentView) (s : State) : Result :=
  .next (s.lkoDecide agent.val line.toNat v)

/-! ### Emergencies (15 R406, 17 R454) -/

/-- The domains of a mask. -/
def domainsOf (mask : Nat) : List Nat := (List.range 61).filter (fun d => mask / 2 ^ d % 2 == 1)

/-- PWR starts a CLEAN of the L2s inside the mask; how many lines of each are written back before the cut is open. -/
def State.cleanSome (s : State) (c : Nat) : State :=
  let a := s.takeFree
  ((s.linesOf (256 + c)).take a.1.toNat).foldl (fun t n => t.cleanL2 c n) a.2

/-- As much of an I/O cache's CLEAN as has come to its end before the cut (17 R454). -/
def State.cleanSomeIo (s : State) (g : Nat) : State :=
  let a := s.takeFree
  ((a.2.lines.filter (fun e => e.1 / 65536 == 272 + g && e.2.st == .m)).take a.1.toNat).foldl
    (fun t e => (t.writeLine e.2.line fullMask e.2.data e.2.poison).editLine (272 + g) e.2.line (fun u => { u with st := .e })) a.2

/-- The notice of an emergency: mailbox 1,023, interrupt 1,145, the CLEAN, and the cut 100 µs later. -/
def State.notice (s : State) (thermal : Bool) (mask : Nat) : State :=
  let at_ := s.mtime + 100000
  let kind := if thermal then 1 else 2
  let s1 := { s with
    trust := { s.trust with notices := if s.trustAway then s.trust.notices else s.trust.notices ++ [(kind, mask, at_)] }
    lko := { s.lko with emergencies := s.lko.emergencies ++ [(kind, mask, at_)] } }
  let s2 := s1.nextNotice.raiseId 1145
  (domainsOf mask).foldl (fun t d => if d < 16 then t.cleanSome d else if d < 48 then t.cleanSomeIo (d - 16) else t) s2

def execEmergencyNotice (thermal : Bool) (mask : BitVec 61) (s : State) : Result := .next (s.notice thermal mask.toNat)

/-- The cut of one domain: its caching agent is declared dead, it loses power, and it will stay in reset when powered again. -/
def State.cutHard (s : State) (d : Nat) : State :=
  if !s.powered d then s
  else
    let s1 := (s.declareDead d).setPower d false
    let s2 := if s.pwr.falling && 16 ≤ d && d < 48 then s1.keepWake (d - 16) (fun t => t.dropDomain d) else s1.dropDomain d
    { s2 with lko := { s2.lko with cutDomains := Nat.lor s2.lko.cutDomains (2 ^ d) } }

/-- EMERGENCY_CUT: the oldest emergency whose time has come. LOOKOUT_OK goes inactive with cause 0x08.
Standby follows when the emergency was on the way to it (17 R444, Table 1). -/
def State.emergencyCut (s : State) : State :=
  match s.lko.emergencies with
  | [] => s
  | (_, mask, t) :: rest =>
    if s.mtime < t then s
    else
      let s1 := { s with lko := { s.lko with emergencies := rest } }
      let s2 := ((domainsOf mask).foldl State.cutHard s1).lkoCause 8
      if s.pwr.falling && rest.isEmpty then s2.standbyNow else s2


/-- A domain has power again: cause 0x08 clears once every domain that a cut took has it. -/
def State.repowered (s : State) (d : Nat) : State :=
  let m := s.lko.cutDomains
  let m' := if m / 2 ^ d % 2 = 1 then m - 2 ^ d else m
  let s1 := { s with lko := { s.lko with cutDomains := m' } }
  if m' = 0 then s1.lkoClear 8 else s1

/-! ### Heartbeats (15 R408, 16 R427) -/

/-- LKOBEAT: from PID 255 the Trust Core's, from PID 0 H's, which clears cause 0x05. -/
def State.beat (s : State) (r : Req) : State :=
  if r.pid = 255 then { s with lko := { s.lko with trustBeat := s.mtime } }
  else if r.pid = 0 then { s with lko := { s.lko with hBeat := s.lko.hBeat.map (fun _ => s.mtime) } }.lkoClear 5
  else s.refuse r 0x710 Reg.lkobeat.addr 0

def execLkobeat (r : Req) (_v : W64) (s : State) : Result := .next (s.beat r)

/-- A write of LKOCFG: the interval of the H heartbeat runs from the write that gives HBTO its value. -/
def State.writeLkocfg (s : State) (r : Req) (n : Nat) (v : W64) : State :=
  let old := s.fld .lkocfg Fld.lkocfgHbto
  let s1 := s.writeKeyed r .lkocfg n v
  let new := s1.fld .lkocfg Fld.lkocfgHbto
  if new = old then s1
  else { s1 with lko := { s1.lko with hBeat := if new = 0 then none else some s.mtime } }

/-- H_HEARTBEAT_MISSED: more than HBTO ms without a write. -/
def execHHeartbeatMissed (s : State) : Result :=
  .next (match s.lko.hBeat with
    | some t => if t.toNat + s.fld .lkocfg Fld.lkocfgHbto * 1000000 < s.mtime.toNat then s.lkoCause 5 else s
    | none => s)

/-! ### LOOKOUT_OK (16 R428, R429) -/

/-- LOOKOUT_LOCKSTEP_MISMATCH: both processors stop. -/
def execLookoutLockstepMismatch (s : State) : Result :=
  .next (({ s with lko := { s.lko with stopped := true } }.lkoCause 3).putFlag .lkostat Fld.lkostatLkerr true)

def execRearm (r : Req) (s : State) : Result :=
  .next (if r.pid = 255 then (s.wr .lkocmd (keyedPair 1)).lkoRearm else s.refuse r 0x710 Reg.lkocmd.addr 1)

def execForceOff (r : Req) (s : State) : Result :=
  .next (if isHost r then (s.wr .lkocmd (keyedPair 2)).lkoCause 7 else s.refuse r 0x710 Reg.lkocmd.addr 2)

/-- A write of LKOCMD. -/
def State.writeLkocmd (s : State) (r : Req) (n : Nat) (v : W64) : State :=
  if !keyedOk .lkocmd n v then s.reject r .lkocmd
  else
    let op := bitsOf v 7 0
    if op = 1 && r.pid ≠ 255 then s.refuse r 0x710 Reg.lkocmd.addr 1
    else
      let s1 := s.wr .lkocmd v
      if op = 1 then s1.lkoRearm else if op = 2 then s1.lkoCause 7 else s1.restart (bitsOf v 14 8)

end Sys2Proof.Machine
end

