-- ==== Sys2Proof/Machine/Clock.lean ====
section
/-! DEFINITION. Clocks and module time (18 R459-R467). -/
namespace Sys2Proof.Machine

/-! ### MTIME (18 R465, R466) -/

/-- The advance of MTIME at a reference edge, in units of 2^-24 ns: 40 × (1 + MTRATE) ns. -/
def State.edgeStep (s : State) : Int :=
  40 * 2 ^ 24 + (40 * toSigned 32 (s.fld .mtrate Fld.mtrateRate) * 2 ^ 24) / 1000000000

/-- One edge of the reference: MTIME advances, and a step that waits is applied with it. -/
def State.tick (s : State) : State :=
  let t : Int := (s.mtime.toNat * 2 ^ 24 + s.mtFrac.toNat : Nat) + s.edgeStep + s.clk.mtAdd * 2 ^ 24
  { s with mtime := BitVec.ofInt 64 (t / 2 ^ 24), mtFrac := BitVec.ofInt 24 t, clk := { s.clk with mtAdd := 0 } }

/-- Whether every cluster is in reset or powered off. -/
def State.clustersDown (s : State) : Bool := (List.range 16).all (fun c => !s.powered c || s.inReset c)

/-- A keyed write of CLK, which PID 255 makes (18 R474). -/
def State.writeClk (s : State) (r : Req) (rg : Reg) (n : Nat) (v : W64) : State :=
  if r.pid ≠ 255 then s.refuse r 0x7F0 rg.addr 0 else s.writeKeyed r rg n v

/-- MTRATE: the rate from the next reference edge on. -/
def execMtrateWrite (r : Req) (v : W64) (s : State) : Result := .next (s.writeClk r .mtrate 8 v)

/-- MTSTEP: a step at the next edge; a backward step is rejected while a cluster runs. -/
def State.writeMtstep (s : State) (r : Req) (n : Nat) (v : W64) : State :=
  let d := toSigned 32 (bitsOf v 31 0)
  if r.pid ≠ 255 then s.refuse r 0x7F0 Reg.mtstep.addr 0
  else if !keyedOk .mtstep n v || (d < 0 && !s.clustersDown) then s.reject r .mtstep
  else { s.wr .mtstep v with clk := { s.clk with mtAdd := s.clk.mtAdd + d } }

def execMtstepWrite (r : Req) (v : W64) (s : State) : Result := .next (s.writeMtstep r 8 v)

/-- MTSTAT, which PID 255 writes. -/
def State.writeMtstat (s : State) (r : Req) (o n : Nat) (v : W64) : State :=
  if r.pid ≠ 255 then s.refuse r 0x7F0 Reg.mtstat.addr 0
  else
    let w := mergeReg (RegKind.fields .mtstat) (laneMask o n) (v <<< (8 * o)) (s.rd .mtstat)
    if bitOf w 0 then s.wr .mtstat w else s.unalign

/-! ### The reference (18 R459) -/

/-- REFERENCE_LOST. -/
def execReferenceLost (s : State) : Result := .next s.refLost

/-- The Ringmaster sets ALIGNED, except in holdover (22 R532). -/
def State.ringAligned (s : State) : State :=
  if s.fld .vnstat Fld.vnstatRole = 2 && !s.flag .mtstat Fld.mtstatHold then s.putFlag .mtstat Fld.mtstatAligned true else s

/-- REFERENCE_RESTORED: XIN has stayed good for 10 ms; in Standby XO_VCC is off (23 R546). -/
def execReferenceRestored (s : State) : Result :=
  .next (if s.clk.internal && !s.pwr.standby then { s with clk := { s.clk with internal := false } }.putFlag .mtstat Fld.mtstatHold false |>.ringAligned else s)

/-! ### PLLs (18 R460-R463) -/

/-- The backup of a PLL (18 Table 1). -/
def pllBackup (n : Nat) : Nat := if n % 2 = 0 then n + 1 else n - 1

/-- The power domains a PLL feeds; the fabric's are its planes. -/
def pllDomains (n : Nat) : List Nat :=
  if n < 16 then [n]
  else if n < 18 then [56, 57]
  else if n < 20 then (List.range 4).map (fun i => 48 + (n - 18) * 4 + i)
  else (List.range 8).map (fun i => 16 + (n - 20) * 8 + i) ++ (if n = 20 then [60] else [])

def State.pllState (s : State) (n : Nat) : Nat := s.fld (.clkpll n) Fld.clkpllState
def State.setPll (s : State) (n v : Nat) : State := s.putFld (.clkpll n) Fld.clkpllState v

/-- Domains without a clock: Lookout declares their agents dead; without a fabric clock no plane is in service (16 R425, R426). -/
def State.unclocked (s : State) (n : Nat) : State :=
  if n = 16 || n = 17 then ((s.setPlane false 3).setPlane true 3).lkoCause 4
  else if s.lko.stopped then s
  else (pllDomains n).foldl (fun t d => if t.powered d && !t.lko.dead.contains d then t.declareDead d else t) s

/-- PLL_FAILURE: the PLL is retired, with an entry; the domains it feeds run from its backup, or, when that is gone or this PLL
carried the backup's domains, have no clock. -/
def State.pllFails (s : State) (n : Nat) : State :=
  let st := s.pllState n
  let b := pllBackup n
  if st ≠ 1 && st ≠ 2 && st ≠ 3 then s
  else
    let s1 := (s.setPll n 5).logEvent (0x740 + n) clsRecovered 0 0
    let carried := s.flag (.clkpll b) Fld.clkpllBackup
    if s.pllState b = 2 || s.pllState b = 3 then
      if st = 3 then s1 else (s1.putFlag (.clkpll n) Fld.clkpllBackup true).setPll b 2
    else
      let s2 := if st = 3 then s1 else s1.unclocked n
      if carried && n ≠ 16 && n ≠ 17 then s2.unclocked b else s2

def execPllFailure (n : Fin 24) (s : State) : Result := .next (s.pllFails n.val)

/-- Whether a fed domain is in a reset or a recovery, which defers a visit; a swap pause is one step of the model (log entry 121). -/
def State.visitWaits (s : State) (n : Nat) : Bool :=
  (pllDomains n).any (fun d => s.inReset d || (d < 16 && (s.hosted d).any (fun l => (s.lc l).pausing)))

/-- PLL_CROSS_CHECK: an in-service PLL is compared with its backup's output; the output that is wrong counts as failed. -/
def execPllCrossCheck (n : Fin 24) (v : XCheck) (s : State) : Result :=
  .next (if s.pllState n.val ≠ 2 || s.visitWaits n.val || (s.pllState (pllBackup n.val) ≠ 2 && s.pllState (pllBackup n.val) ≠ 3) then s
    else match v with
      | .agree => s
      | .pllWrong => s.pllFails n.val
      | .backupWrong => s.pllFails (pllBackup n.val))

/-- SPREAD_CHANGE: what CLKSS holds takes effect at the start of the next modulation period. -/
def execSpreadChange (n : Fin 17) (s : State) : Result :=
  .next { s with clk := { s.clk with spread := KV.set 0 s.clk.spread n.val (BitVec.ofNat 64 (bitsOf (s.rd (.clkss n.val)) 31 0)) } }

end Sys2Proof.Machine
end

