-- ==== Sys2Proof/Machine/Firebreak.lean ====
section
/-! DEFINITION. Firebreak units (15 R396-R400): staged tables, APPLY, DISCARD, the switch at a frame start, verdict copies. Unit u: 0-7 the
memory units, 8 + gg the group units. -/
namespace Sys2Proof.Machine

/-- The registers of a unit's tables, in ascending address. -/
def fwTable (u : Nat) : List Reg :=
  (List.range 64).foldr (fun r l => Reg.fwrlo u r :: Reg.fwrhi u r :: Reg.fwratt u r :: l)
    ((List.range 256).foldr (fun p l => Reg.fwclo u p :: Reg.fwchi u p :: l) [])

/-- Whether an address lies in a unit's tables. -/
def inFwTable (u a : Nat) : Bool :=
  let b := (Reg.fwrlo u 0).addr
  b ≤ a && a < b + 0x2000

/-- The staged value of a table register: what is written, else the active value. -/
def State.stagedAt (s : State) (r : Reg) : W64 :=
  match s.fw.staged.find? (fun e => e.1 == r.addr) with
  | some e => e.2
  | none => s.rd r

/-- CRC-32C of the staged and of the active tables: the value words of the regions, then of the rows, each as 4 bytes (15 R399). -/
def State.stagedCrc (s : State) (u : Nat) : Nat := crc32c ((fwTable u).foldr (fun r l => toBytes 4 (bitsOf (s.stagedAt r) 31 0) ++ l) [])
def State.activeCrc (s : State) (u : Nat) : Nat := crc32c ((fwTable u).foldr (fun r l => toBytes 4 (bitsOf (s.rd r) 31 0) ++ l) [])

/-- DISCARD: a unit's staged tables equal its active ones again. -/
def State.discardFw (s : State) (u : Nat) : State :=
  { s with fw := { s.fw with staged := KV.keep (fun a => !inFwTable u a) s.fw.staged } }

/-- End a command of a unit with a code. -/
def State.fwCode (s : State) (u code : Nat) : State := s.putFld (.fwstat u) Fld.fwstatCode code

/-- The pending APPLY of a unit. -/
def State.setApply (s : State) (u : Nat) (t : Option W64) : State :=
  { s with fw := { s.fw with applyAt := KV.set none s.fw.applyAt u t } }.putFlag (.fwstat u) Fld.fwstatPend t.isSome

/-- A staged table register that differs from the active one takes its place; the old value is kept for the 2 µs after. -/
def State.switchUnit (s : State) (u : Nat) : State :=
  let mine := (fwTable u).filter (fun r => s.stagedAt r != s.rd r)
  let old := mine.map (fun r => (r.addr, s.rd r))
  let s1 := mine.foldl (fun t r => t.wr r (s.stagedAt r)) s
  { s1 with fw := { s1.fw with staged := KV.keep (fun a => !inFwTable u a) s1.fw.staged, old := KV.set ([], 0) s1.fw.old u (old, s.mtime) } }

/-- The twin regions as ranges of pages (09 MCTWIN). -/
def State.twinRanges (s : State) : List (Nat × Nat) :=
  (List.range 16).filterMap (fun i =>
    let r := Reg.mctwin 0 i
    let b := s.fld r Fld.mctwinBase * 512
    if s.flag r Fld.mctwinEn then some (b, b + s.fld r Fld.mctwinSize * 512) else none)

/-- Pages of the twin regions at which the region that decides can change: each page of a twin region is decided as the greatest of these
at or below it. -/
def State.twinPages (s : State) : List Nat :=
  s.twinRanges.flatMap (fun t =>
    t.1 :: ((List.range 64).flatMap (fun r => [s.fld (.fwrlo 0 r) Fld.fwrloLo, s.fld (.fwrhi 0 r) Fld.fwrhiHi + 1])).filter
      (fun (p : Nat) => t.1 ≤ p && p < t.2))

/-- LCDSAFE: the Trust Core sets the bit of each partition that the memory tables give W on a page of a twin region (20 R506). -/
def State.syncSafe (s : State) : State :=
  let ps := s.twinPages
  let safe := fun (p : Nat) => 1 ≤ p && p ≤ 254 && ps.any (fun x => s.tablesAllow [] 0 p (s.pidWorld p) false true (x * 4096))
  (List.range 8).foldl (fun t w =>
    t.wr (.lcdsafe w) (keyedPair (((List.range 32).filter (fun b => safe (32 * w + b))).foldl (fun m b => m + 2 ^ b) 0))) s

/-- FIREBREAK_SWITCH: the frame start at least 1 µs after the APPLY; the 8 memory units switch together when their staged CRCs
agree, and none does otherwise (15 R399). -/
def State.firebreakSwitch (s : State) (u : Nat) : State :=
  match KV.get none s.fw.applyAt u with
  | none => s
  | some t =>
    if s.mtime.toNat < t.toNat + 1000 then s
    else
      let s1 := s.setApply u none
      if u = 0 then
        if (List.range 8).all (fun h => s.stagedCrc h == s.stagedCrc 0) then
          let s2 := (List.range 8).foldl State.switchUnit (s1.fwCode 0 0)
          if s2.trustUp then s2.syncSafe else s2
        else s1.fwCode 0 1
      else (s1.fwCode u 0).switchUnit u

def execFirebreakSwitch (u : Fin 40) (s : State) : Result := .next (s.firebreakSwitch u.val)

/-- FIREBREAK_GRACE_END: 2 µs after a switch only the new tables decide. -/
def execFirebreakGraceEnd (u : Fin 40) (s : State) : Result :=
  .next (match KV.get ([], 0) s.fw.old u.val with
    | (_, t) => if s.mtime.toNat < t.toNat + 2000 then s
      else { s with fw := { s.fw with old := KV.set ([], 0) s.fw.old u.val ([], 0) } })

/-- A write of FWCMD by a request with PID 255 and WORLD 1 (15 R400). -/
def State.writeFwcmd (s : State) (r : Req) (u n : Nat) (v : W64) : State :=
  let rg := Reg.fwcmd u
  let apply := bitsOf v 7 0 == 1
  let all := bitOf v 8
  if !(r.pid == 255 && r.world) then s.refuse r (fwUnitId u) rg.addr 0
  else if !keyedOk rg n v || (all && u ≠ 0) || (apply && u < 8 && !all) then s.reject r rg
  else
    let s1 := s.wr rg v
    if apply then
      if s.trustDown then s1.fwCode u 2
      else if s.flag (.fwstat u) Fld.fwstatPend then s1.fwCode u 3
      else s1.setApply u (some s.mtime)
    else if all then (List.range 8).foldl State.discardFw (s1.fwCode u 0)
    else (s1.fwCode u 0).discardFw u

def execApply (r : Req) (u : Fin 40) (all : Bool) (s : State) : Result :=
  .next (s.writeFwcmd r u.val 8 (keyedPair (1 + if all then 256 else 0)))
def execDiscard (r : Req) (u : Fin 40) (all : Bool) (s : State) : Result :=
  .next (s.writeFwcmd r u.val 8 (keyedPair (2 + if all then 256 else 0)))

/-- A write of a table register: it goes to the staged table; while Lookout holds the Trust Core down it is discarded and logged. -/
def State.writeFwTable (s : State) (r : Req) (rg : Reg) (u n : Nat) (v : W64) : State :=
  if !(r.pid == 255 && r.world) || s.trustDown then s.refuse r (fwUnitId u) rg.addr 0
  else if !keyedOk rg n v then s.reject r rg
  else
    let rest := KV.keep (fun a => a != rg.addr) s.fw.staged
    { s with fw := { s.fw with staged := if v = s.rd rg then rest else KV.insert rg.addr v rest } }

/-- While Lookout holds the Trust Core down, the staged tables are discarded and a pending APPLY ends with FROZEN (15 R400). -/
def State.freezeFw (s : State) : State :=
  (List.range 40).foldl (fun t u => if (KV.get none t.fw.applyAt u).isSome then (t.setApply u none).fwCode u 2 else t)
    { s with fw := { s.fw with staged := [] } }

/-! ### Verdict copies (15 R396, R397) -/

/-- A verdict copy is reloaded: its cluster's or group's main-memory requests wait. -/
def State.reloadCopy (s : State) (a : Nat) : State :=
  if s.fw.reload.contains a then s else { s with fw := { s.fw with reload := s.fw.reload ++ [a] } }

/-- VERDICT_COPY_CHECK: the copy's CRC against the active one, each millisecond. -/
def execVerdictCopyCheck (a : Fin 48) (damaged : Bool) (s : State) : Result :=
  .next (if damaged && s.alive a.val then s.reloadCopy a.val else s)

def execVerdictCopyReloadDone (a : Fin 48) (s : State) : Result :=
  .next { s with fw := { s.fw with reload := s.fw.reload.filter (fun x => x != a.val) } }

end Sys2Proof.Machine
end

