-- ==== Sys2Proof/Machine/Pcie.lean ====
section
/-! DEFINITION. PCIe host ports (12 R341, R342): transfers, inbound requests, interrupts. What the module sends into PCIe space
leaves by `vn.outbox`. -/
namespace Sys2Proof.Machine

/-- A host port: interface code 0x0A. -/
def State.isPcie (s : State) (n : Nat) : Bool := s.ifc n == 10

/-- The owner's PID of a port's land; PID 0 where no claim holds it. -/
def State.landPid (s : State) (n : Nat) : Nat := (s.claimOwner 1 n).getD 0 % 256

/-- Whether a host port's link carries requests: enabled and up. -/
def State.pcieUp (s : State) (n : Nat) : Bool := s.portEn n && (s.port n).up && s.alive (16 + n / 16)

/-- What a port sends into PCIe space. -/
def State.pcieOut (s : State) (n : Nat) (bs : List Byte) : State := { s with vn := { s.vn with outbox := s.vn.outbox ++ [.pcie n bs] } }

/-- End of a transfer: CODE, BUSY clear, PIRQ.EVT. -/
def State.pxEnd (s : State) (n code : Nat) : State :=
  let r := Reg.pxcmd (n / 16) (n % 16)
  (((s.putFlag r Fld.pxcmdBusy false).putFld r Fld.pxcmdCode code).setPort n { s.port n with syncs := [] }).portEvent n 3

/-- A write of PXCMD with the lanes `m`: ignored and logged while BUSY; GO starts the transfer, which ends at once with LINK while the
link is down. CFG in the endpoint role is a reserved value. -/
def State.writePxcmd (s : State) (r : Req) (n : Nat) (m v : W64) : State :=
  let rg := Reg.pxcmd (n / 16) (n % 16)
  if s.flag rg Fld.pxcmdBusy then s.refuse r (phyUnit (n / 16)) rg.addr 0
  else
    let root := s.flag (.pcicfg (n / 16) (n % 16)) Fld.pcicfgRole
    let w := mergeReg rg.kind.fields m v (s.rd rg)
    let bad := bitOf w 29 && !root
    let s1 := if bad then s.refuse r (phyUnit (n / 16)) rg.addr 0 else s
    let s2 := (s1.wr rg (if bad then withBits w 29 29 (bitsOf (s.rd rg) 29 29) else w)).putFlag rg Fld.pxcmdGo false
    if !bitOf (m &&& v) 31 then s2
    else
      let s3 := (s2.putFlag rg Fld.pxcmdBusy true).putFld rg Fld.pxcmdCode 0
      if s.pcieUp n then s3.setPort n { s3.port n with syncs := [s.mtime] } else s3.pxEnd n 4

/-- PCIE_TRANSFER: a write of PXCMD by a requester that reaches the port's block (12 R316). -/
def execPcieTransfer (r : Req) (p : PortId) (v : W64) (s : State) : Result :=
  .next (if !s.isPcie p.code then s
    else s.gated r (Reg.pxcmd p.gg.val p.pp.val).addr (fun s =>
      s.portWrite r p.code (Reg.pxcmd p.gg.val p.pp.val).addr (fun s => s.writePxcmd r p.code 0xFFFFFFFFFFFFFFFF v)))

/-- PCIE_TRANSFER_END: the bytes moved between main memory and PCIe space, with the owner's PID; a line that fails ends it with
LOCAL (08 R250). -/
def State.pxFinish (s : State) (n code : Nat) (data : List Byte) : State :=
  let r := Reg.pxcmd (n / 16) (n % 16)
  if !s.flag r Fld.pxcmdBusy then s
  else if code ≠ 0 then s.pxEnd n code
  else
    let pid := s.landPid n
    let w := s.pidWorld pid
    let pa := (s.rd (.pxlocal (n / 16) (n % 16))).toNat
    let len := if s.flag r Fld.pxcmdCfg then 4 else s.fld r Fld.pxcmdLen
    if s.flag r Fld.pxcmdDir then
      let x := s.ioReadN (gcUnit (n / 16)) pid w pa len
      match x.2.2 with
      | some _ => x.1.pxEnd n 3
      | none => (x.1.pcieOut n x.2.1).pxEnd n 0
    else
      let x := s.ioWriteN (gcUnit (n / 16)) pid w pa (padTo len 0 data)
      match x.2 with
      | some _ => x.1.pxEnd n 3
      | none => x.1.pxEnd n 0

def execPcieTransferEnd (p : PortId) (code : BitVec 8) (data : List Byte) (s : State) : Result :=
  .next (s.pxFinish p.code code.toNat data)

/-- PCIE_COMPLETION_TIMEOUT: a completion is missing for 10 ms. -/
def execPcieCompletionTimeout (p : PortId) (s : State) : Result :=
  let late : Bool := match (s.port p.code).syncs with
    | t :: _ => t.toNat + 10000000 ≤ s.mtime.toNat
    | [] => false
  .next (if s.flag (.pxcmd p.gg.val p.pp.val) Fld.pxcmdBusy && late then s.pxEnd p.code 2 else s)

/-- PCIMSI: an endpoint raises an MSI-X vector towards its host; the root role has none. -/
def State.pcieMsi (s : State) (r : Req) (n vec : Nat) : State :=
  if !s.isPcie n then s
  else s.portWrite r n (Reg.pcimsi (n / 16) (n % 16)).addr (fun s =>
    if s.pcieUp n && !s.flag (.pcicfg (n / 16) (n % 16)) Fld.pcicfgRole then s.pcieOut n [BitVec.ofNat 8 vec] else s)

def execPcimsi (r : Req) (p : PortId) (vec : BitVec 6) (s : State) : Result :=
  .next (s.gated r (Reg.pcimsi p.gg.val p.pp.val).addr (fun s => s.pcieMsi r p.code vec.toNat))

/-- PCIE_INBOUND_REQUEST: a memory request inside the window reaches main memory with the owner's PID; the data of a read go out. A
request outside the window, or of another kind, is answered with Unsupported Request and does nothing here. -/
def State.inbound (s : State) (n : Nat) (mem write : Bool) (off : Nat) (data : List Byte) : State :=
  let r := Reg.pciwin (n / 16) (n % 16)
  let size := 4096 * 2 ^ s.fld r Fld.pciwinSize
  let base := s.fld r Fld.pciwinBase * 4096
  if !s.isPcie n || !s.pcieUp n || !mem || size < off + data.length || 0x80000000 < base + size then s
  else
    let pid := s.landPid n
    let w := s.pidWorld pid
    if write then (s.ioWriteN (gcUnit (n / 16)) pid w (base + off) data).1
    else
      let x := s.ioReadN (gcUnit (n / 16)) pid w (base + off) data.length
      if x.2.2.isSome then x.1 else x.1.pcieOut n x.2.1

def execPcieInboundRequest (p : PortId) (memReq write : Bool) (off : BitVec 40) (data : List Byte) (s : State) : Result :=
  .next (s.inbound p.code memReq write off.toNat data)

/-- PCIE_DEVICE_INTERRUPT: a device of a root port writes to 0x00F0_0000_0000: MSGIRQ of cluster ICL with the owner's PID (06 R181). -/
def State.deviceIrq (s : State) (n : Nat) (addr : Nat) (data : Nat) : State :=
  let c := s.fld (.pcicfg (n / 16) (n % 16)) Fld.pcicfgIcl
  let pid := s.landPid n
  if !s.isPcie n || !s.pcieUp n || !s.flag (.pcicfg (n / 16) (n % 16)) Fld.pcicfgRole || addr ≠ 0xF000000000 || !s.alive c then s
  else s.msgIrq ⟨BitVec.ofNat 8 pid, s.pidWorld pid, BitVec.ofNat 12 (gcUnit (n / 16)), none⟩ c (data % 4096)

def execPcieDeviceInterrupt (p : PortId) (addr : BitVec 64) (data : BitVec 32) (s : State) : Result :=
  .next (s.deviceIrq p.code addr.toNat data.toNat)

end Sys2Proof.Machine
end

