-- ==== Sys2Proof/Machine/JugglerIsa.lean ====
section
/-! DEFINITION. The port instructions of a Juggler (04 R124, R125, Table 8; 11 R290, R300-R302), and the same control bits as
single commands. -/
namespace Sys2Proof.Machine

/-- The port of local number `l` at the position a Juggler serves. -/
def State.localPort (s : State) (e : Engine) (l : Nat) : Option Nat :=
  match e, s.served e with
  | .juggler g _, some p => some (g.val * 16 + 4 * p + l % 4)
  | _, _ => none

/-- The owner field of the position a Juggler serves. -/
def State.jugOwner (s : State) (e : Engine) : Nat :=
  match e, s.served e with
  | .juggler g _, some p => s.fld (.jctl g.val p) Fld.jctlOwner
  | _, _ => 0

/-- The port an instruction may act on: its land is claimed by the owner of the position (11 R290). -/
def State.ownPort (s : State) (e : Engine) (l : Nat) : Option Nat :=
  match s.localPort e l with
  | some n => if s.claimOwner 1 n == some (s.jugOwner e) then some n else none
  | none => none

/-- A port instruction that R290 refuses: at most one entry of class contained per slot. -/
def State.refusePort (s : State) (e : Engine) : State :=
  match e, s.served e with
  | .juggler g _, some p =>
    let x := s.pos g.val p
    if x.refused then s else (s.setPos g.val p { x with refused := true }).logEvent (s.unitOf e) clsContained 0 0
  | _, _ => s

/-- A port instruction: the port's effect with the value for DST, or nothing with `other` where R290 refuses it. -/
def State.portInst (s : State) (x : Iss) (dst : Option (Fin 32)) (l : Fin 32) (lat : Nat) (other : W64)
    (f : Core → State → Nat → State × W64) : State :=
  s.issue x .m .jug false none (fun s =>
    let c := s.core x.eng
    let r := match s.ownPort x.eng (c.greg l.val).toNat with
      | some n => f c s n
      | none => (s.refusePort x.eng, other)
    let d := s.entered x .m
    r.1.setCore x.eng (match dst with
      | some d' => d.put false d'.val r.2 lat
      | none => d))

/-! ### Waiting and time -/

/-- TWAIT: one cycle when MTIME has reached SRC1, otherwise the Juggler waits (TWAIT_END). -/
def execTwait (x : Iss) (src1 : Fin 32) (s : State) : Result :=
  .next (s.issue x .s .jug false none (fun s =>
    let t := (s.core x.eng).greg src1.val
    let d := s.entered x .s
    s.setCore x.eng { d with wait := if t.toNat ≤ s.mtime.toNat then none else some (.until t s.mtime) }))

/-- The Juggler cycles of 1.25 ns, at least one, after which a time of `n` nanoseconds has passed (18 Table 1). -/
def jugCycles (n : Nat) : Nat := max 1 ((4 * n + 4) / 5)

/-- TWAIT ends in the first cycle at which MTIME ≥ SRC1; results in flight are written by then. -/
def execTwaitEnd (g : Fin 32) (k : Fin 5) (s : State) : Result :=
  .next (let e := Engine.juggler g k
    let c := s.core e
    match c.wait with
    | some (.until t since) =>
      if t.toNat ≤ s.mtime.toNat then s.setCore e { c with wait := none, nxt := c.cyc + jugCycles (t.toNat - since.toNat) } else s
    | _ => s)

def execTnow (x : Iss) (dst : Fin 32) (s : State) : Result :=
  .next (s.issue x .m .jug false none (fun s => s.setCore x.eng ((s.entered x .m).put false dst.val s.mtime 1)))

/-! ### Words -/

/-- PRX: the next receive word, 0 when none waits. -/
def execPrx (x : Iss) (dst src1 : Fin 32) (s : State) : Result :=
  .next (s.portInst x (some dst) src1 2 0 (fun _ s n =>
    let p := s.port n
    match p.rx with
    | [] => (s, 0)
    | w :: ws => (s.setPort n { p with rx := ws }, w ||| 0x8000000000000000)))

/-- A transmit word a port discards: a reserved KIND or LEN above 7 (11 R300). -/
def badTxWord (w : W64) : Bool := 4 < bitsOf w 62 60 || 7 < bitsOf w 59 56

/-- Queue a transmit word: 0 when it is accepted or discarded as bad, 1 when the FIFO is full. A port without words has no
FIFO and takes none (log entry 42). -/
def State.putTx (s : State) (n : Nat) (w : W64) : State × W64 :=
  let p := s.port n
  if !wordIfc (s.ifc n) then (s, 1)
  else if badTxWord w then ((s.setPort n { p with errF := true }).txErr n 1, 0)
  else if 32 ≤ p.tx.length then (s, 1)
  else (s.setPort n { p with tx := p.tx ++ [w] }, 0)

def execPtx (x : Iss) (dst src1 src2 : Fin 32) (s : State) : Result :=
  .next (s.portInst x (some dst) src1 2 1 (fun c t n => t.putTx n (c.greg src2.val)))

def execPst (x : Iss) (dst src1 : Fin 32) (s : State) : Result :=
  .next (s.portInst x (some dst) src1 2 0 (fun _ s n => (s, s.statusWord n)))

/-- PCTL: the whole control word of the local port. -/
def execPctl (x : Iss) (src1 src2 : Fin 32) (s : State) : Result :=
  .next (s.portInst x none src1 2 0 (fun c t n => (t.control n (c.greg src2.val), 0)))

/-- The lands PIN lists for an interface (12 Table 3). -/
def landCount (c : Nat) : Nat :=
  if c = 1 || c = 2 then 2 else if 3 ≤ c && c ≤ 7 then 1 else if c = 8 then 4 else if c = 9 then 2 else 0

/-- PIN: the sampled levels. A field pin's follow FIELD_EDGE; the levels of other lands, which no command gives, are free. -/
def execPin (x : Iss) (dst src1 : Fin 32) (s : State) : Result :=
  .next (s.portInst x (some dst) src1 1 0 (fun _ s n =>
    let c := s.ifc n
    if c = 9 then (s, BitVec.ofNat 64 (s.port n).lands.toNat)
    else if landCount c = 0 then (s, 0)
    else
      let r := s.takeFree
      (r.2, r.1 &&& BitVec.ofNat 64 (2 ^ landCount c - 1))))

/-- POUT: the output level in digital-output mode, the duty in PWM mode (11 R300); a pin with an output fault stays at high impedance
(12 R339). -/
def State.drive (s : State) (n : Nat) (v : W64) : State :=
  let m := s.fld (.fldcfg (n / 16) (n % 16)) Fld.fldcfgMode
  let p := s.port n
  if s.ifc n ≠ 9 then s
  else if m = 2 || m = 3 then s.setPort n { p with out := BitVec.ofNat 64 (v.toNat % 2), hiz := p.faulted || s.unsupplied n }
  else if m = 4 || m = 5 then s.setPort n { p with pwm := BitVec.ofNat 64 (v.toNat % 65536), hiz := p.faulted || s.unsupplied n }
  else s

def execPout (x : Iss) (src1 src2 : Fin 32) (s : State) : Result :=
  .next (s.portInst x none src1 1 0 (fun c t n => (t.drive n (c.greg src2.val), 0)))

/-! ### Frames (11 R301, R302) -/

/-- The bytes the frames of a group's router wait in (group buffer, 64 KiB; log entry 43). -/
def State.routerUsed (s : State) (g : Nat) : Nat := ((s.group g).accept.map Frame.size).foldl (· + ·) 0

/-- FRPUT of `len` bytes at data LMEM address `a` by a Juggler: the value for DST and the frame accepted, or discarded by the
router and counted when its header does not hold (R301). -/
def State.framePut (s : State) (e : Engine) (g p : Nat) (a len : Nat) : State × W64 :=
  let h := (s.jugRead e false a 16).1
  let kind := (h.getD 1 0).toNat
  let n := ofBytes ((h.drop 2).take 2)
  let lp := (h.getD 0 0).toNat
  let bad := 0x10000 < a + len || len != 16 + n || 2048 < n || kind = 0 || 9 < kind || lp / 4 != p
  if 65536 < s.routerUsed g + len && !bad then (s, 1)
  else if bad then (s.rtCount g Fld.rtcntMiss 1, 0)
  else if s.claimOwner 1 (g * 16 + lp) != some (s.jugOwner e) then (s.refusePort e, 0)
  else
    let t := ofBytes (h.drop 8)
    let f : Frame := { port := g * 16 + lp, kind := kind, id := ofBytes ((h.drop 4).take 4),
                       time := if t = 0 then s.mtime else BitVec.ofNat 64 t, entry := 0xFFFF, status := 0,
                       data := (s.jugRead e false (a + 16) n).1 }
    let gr := s.group g
    (s.setGroup g { gr with accept := gr.accept ++ [f] }, 0)

/-- FRPUT; all blocks of the frame are read in this step (log entry 176). -/
def execFrput (x : Iss) (dst src1 src2 : Fin 32) (s : State) : Result :=
  .next (s.issue x .m .jug false none (fun s =>
    let c := s.core x.eng
    let r := match x.eng, s.served x.eng with
      | .juggler g _, some p => s.framePut x.eng g.val p (c.greg src1.val).toNat (c.greg src2.val).toNat
      | _, _ => (s, 0)
    r.1.setCore x.eng ((s.entered x .m).put false dst.val r.2 4)))

/-- FRGET: frees the slot it returned before, and returns the oldest frame not yet returned: slot address and total length. -/
def State.frameGet (s : State) (n : Nat) : State × W64 :=
  let p := s.port n
  let l := p.landing
  let r := landReg n
  let res : Landing × W64 := match l.full with
    | [] => ({ l with held := none }, 0)
    | (i, len) :: rest =>
      ({ l with full := rest, held := some i },
       BitVec.ofNat 64 ((s.fld r Fld.jlandBase + i * s.fld r Fld.jlandSize) % 65536 + len * 2 ^ 32))
  ((s.setPort n { p with landing := res.1 }).landFrames 17 n, res.2)

def execFrget (x : Iss) (dst src1 : Fin 32) (s : State) : Result :=
  .next (s.portInst x (some dst) src1 4 0 (fun _ s n => s.frameGet n))

/-! ### Timers -/

/-- The timer an instruction names, when a claim of class 0x02 gives it to the owner of the position (04 R125). -/
def State.ownTimer (s : State) (e : Engine) (v : W64) : Option (Nat × Nat) :=
  match e with
  | .juggler g _ =>
    let t := v.toNat % 64
    if s.claimOwner 2 (g.val * 64 + t) == some (s.jugOwner e) then some (g.val, t) else none
  | _ => none

/-- TSET: arms the timer to fire at MTIME SRC2; an unclaimed timer changes nothing but ELOG. A fired flag that is set stays (DESIGN CHOICE, log
entry 171). -/
def execTset (x : Iss) (src1 src2 : Fin 32) (s : State) : Result :=
  .next (s.issue x .m .jug false none (fun s =>
    let c := s.core x.eng
    let s1 := match s.ownTimer x.eng (c.greg src1.val) with
      | some (g, t) =>
        let gr := s.group g
        s.setGroup g { gr with timers := KV.set none gr.timers t (some (c.greg src2.val)) }
      | none => s.logEvent (s.unitOf x.eng) clsContained 0 0
    s1.setCore x.eng (s.entered x .m)))

/-- TCHK: the fired flag of the timer, which is then cleared. -/
def execTchk (x : Iss) (dst src1 : Fin 32) (s : State) : Result :=
  .next (s.issue x .m .jug false none (fun s =>
    let c := s.core x.eng
    let r : State × W64 := match s.ownTimer x.eng (c.greg src1.val) with
      | some (g, t) =>
        let gr := s.group g
        (s.setGroup g { gr with fired := KV.set false gr.fired t false }, if KV.get false gr.fired t then 1 else 0)
      | none => (s, 0)
    r.1.setCore x.eng ((s.entered x .m).put false dst.val r.2 1)))

/-- An armed timer fires when MTIME reaches its time. -/
def execGroupTimerFire (g : Fin 32) (t : Fin 64) (s : State) : Result :=
  .next (let gr := s.group g.val
    match KV.get none gr.timers t.val with
    | some at_ =>
      if at_.toNat ≤ s.mtime.toNat then
        s.setGroup g.val { gr with timers := KV.set none gr.timers t.val none, fired := KV.set false gr.fired t.val true }
      else s
    | none => s)

/-! ### The control bits as commands of their own (11 Table 4, 12 Table 3) -/

/-- One control action of a Juggler on its local port, under R290. -/
def State.ctlAct (s : State) (g : Fin 32) (k : Fin 5) (l : Fin 4) (f : State → Nat → State) : State :=
  let e := Engine.juggler g k
  match s.ownPort e l.val with
  | some n => f s n
  | none => s.refusePort e

/-- Keep a bit of the stored control word. -/
def State.ctlBit (s : State) (n b : Nat) (on : Bool) : State :=
  s.setPort n { s.port n with ctl := withBits (s.port n).ctl b b (if on then 1 else 0) }

def execTxflush (g : Fin 32) (k : Fin 5) (l : Fin 4) (s : State) : Result := .next (s.ctlAct g k l State.flushTx)
def execRxflush (g : Fin 32) (k : Fin 5) (l : Fin 4) (s : State) : Result := .next (s.ctlAct g k l State.flushRx)
def execRecover (g : Fin 32) (k : Fin 5) (l : Fin 4) (s : State) : Result := .next (s.ctlAct g k l State.recoverPort)
def execStandbyTransceiver (g : Fin 32) (k : Fin 5) (l : Fin 4) (s : State) : Result :=
  .next (s.ctlAct g k l (fun s n => if s.ifc n = 1 then (s.standbyPort n true).ctlBit n 34 true else s))
def execSleep (g : Fin 32) (k : Fin 5) (l : Fin 4) (s : State) : Result := .next (s.ctlAct g k l State.sleepPort)
def execWakePulse (g : Fin 32) (k : Fin 5) (l : Fin 4) (s : State) : Result := .next (s.ctlAct g k l State.wakePort)
def execGate (g : Fin 32) (k : Fin 5) (l : Fin 4) (m : BitVec 8) (s : State) : Result :=
  .next (s.ctlAct g k l (fun s n => s.gatePort n m))
def execSupply (g : Fin 32) (k : Fin 5) (l : Fin 4) (on : Bool) (s : State) : Result :=
  .next (s.ctlAct g k l (fun s n =>
    if s.ifc n = 6 || s.ifc n = 7 then (s.supplyPort n (bitOf (s.port n).ctl 32) on).ctlBit n 32 on else s))
def execSync (g : Fin 32) (k : Fin 5) (l : Fin 4) (on : Bool) (s : State) : Result :=
  .next (s.ctlAct g k l (fun s n => if s.ifc n = 7 then (s.syncPort n on).ctlBit n 33 on else s))
def execAdcRequest (g : Fin 32) (k : Fin 5) (l : Fin 4) (s : State) : Result := .next (s.ctlAct g k l State.adcPort)

end Sys2Proof.Machine
end

