-- ==== Sys2Proof/Machine/Position.lean ====
section
/-! DEFINITION. Service positions (11): running and halting, schedules and slot starts, the position store, hard faults, joins and
takeovers, and the entry of exceptions. -/
namespace Sys2Proof.Machine

/-- JSTAT.STATE values. -/
def jsHalted : Nat := 0
def jsLoading : Nat := 1
def jsWaiting : Nat := 2
def jsInSlot : Nat := 3
def jsExcept : Nat := 4
def jsRejected : Nat := 5
def jsJoining : Nat := 6
def jsNone : Nat := 7

def State.jState (s : State) (g p : Nat) : Nat := s.fld (.jstat g p) Fld.jstatState
def State.setJState (s : State) (g p v : Nat) : State := s.putFld (.jstat g p) Fld.jstatState v
def State.setServer (s : State) (g p k : Nat) : State := s.putFld (.jpos g) (jposFld p) k
def State.spareJug (s : State) (g : Nat) : Nat := s.fld (.jpos g) Fld.jposSpare
def State.sstate (s : State) (g : Nat) : Nat := s.fld (.jpos g) Fld.jposSstate
/-- Set the spare, its state and the position being joined. -/
def State.putSpareJug (s : State) (g k st join : Nat) : State :=
  ((s.putFld (.jpos g) Fld.jposSpare k).putFld (.jpos g) Fld.jposSstate st).putFld (.jpos g) Fld.jposJoin join

/-! ### Schedules (11 R294-R298) -/

/-- Little-endian fields of the schedule table in the code half of a bank. -/
def State.sched (s : State) (g p : Nat) (second : Bool) (a n : Nat) : Nat :=
  ofBytes (KV.getAll 0 s.st.jstore (storeAddr g p second false a) n)

def State.schEpoch (s : State) (g p : Nat) (b : Bool) : Nat := s.sched g p b 0xF800 8
def State.schPeriod (s : State) (g p : Nat) (b : Bool) : Nat := s.sched g p b 0xF808 4
def State.schCount (s : State) (g p : Nat) (b : Bool) : Nat := s.sched g p b 0xF80C 2
def State.schOffset (s : State) (g p : Nat) (b : Bool) (i : Nat) : Nat := s.sched g p b (0xF810 + i * 8) 4
def State.schEntry (s : State) (g p : Nat) (b : Bool) (i : Nat) : Nat := s.sched g p b (0xF814 + i * 8) 2

/-- The rules of Table 1 (11 R295). -/
def State.schedOk (s : State) (g p : Nat) (b : Bool) : Bool :=
  let per := s.schPeriod g p b
  let cnt := s.schCount g p b
  1000 ≤ per && per ≤ 1000000000 && 1 ≤ cnt && cnt ≤ 254 && s.sched g p b 0xF80E 2 == 0 &&
  (List.range cnt).all (fun i =>
    s.schOffset g p b i < per && (i == 0 || s.schOffset g p b (i - 1) < s.schOffset g p b i)
      && s.schEntry g p b i < 0xF800 && s.sched g p b (0xF816 + i * 8) 2 == 0)

/-- S(n, i): the start of slot i of cycle n (11 R294). -/
def State.startTime (s : State) (g p : Nat) (b : Bool) (n i : Nat) : Nat :=
  s.schEpoch g p b + n * s.schPeriod g p b + s.schOffset g p b i

/-- The first start at or after a time. -/
def State.firstStart (s : State) (g p : Nat) (b : Bool) (t : Nat) : Nat × Nat :=
  let e := s.schEpoch g p b
  let per := s.schPeriod g p b
  let n := if t ≤ e then 0 else (t - e) / per
  match (List.range (s.schCount g p b)).find? (fun i => t ≤ s.startTime g p b n i) with
  | some i => (n, i)
  | none => (n + 1, 0)

/-- The latest start at or before a time that is not before `c`; `c` itself is one. -/
def State.latestStart (s : State) (g p : Nat) (b : Bool) (t : Nat) (c : Nat × Nat) : Nat × Nat :=
  let n := (t - s.schEpoch g p b) / s.schPeriod g p b
  match (List.range (s.schCount g p b)).reverse.find? (fun i => s.startTime g p b n i ≤ t) with
  | some i => (n, i)
  | none => if c.1 < n then (n - 1, s.schCount g p b - 1) else c

/-- The start the dispatcher takes next (11 R298). -/
def State.nextStart (s : State) (g p : Nat) : Nat × Nat :=
  let x := s.pos g p
  if !x.started then (x.n, x.i)
  else if x.i + 1 < s.schCount g p x.bank then (x.n, x.i + 1) else (x.n + 1, 0)

/-- The number of starts before `b` from `a` on. -/
def State.startsBetween (s : State) (g p : Nat) (bank : Bool) (a b : Nat × Nat) : Nat :=
  let c := s.schCount g p bank
  (b.1 * c + b.2) - (a.1 * c + a.2)

/-- Count skipped starts, with group event 5 when there are any. -/
def State.skipStarts (s : State) (g p k : Nat) : State :=
  if k = 0 then s else (s.bump (.jstat g p) Fld.jstatSkip k).groupEvent g 5

/-- The registers of a slot's first instruction, which issues 3 cycles later (11 R296). DESIGN CHOICE: 03 R60 does not list a slot start
among the control transfers; a first instruction that carries GROUP starts a new group, as after reset (log entry 163). -/
def Core.slotRegs (c : Core) (n i t entry : Nat) : Core :=
  let g1 := KV.set 0 ([] : KV W64) 1 (BitVec.ofNat 64 i)
  let g2 := KV.set 0 (KV.set 0 g1 2 (BitVec.ofNat 64 t)) 3 (BitVec.ofNat 64 n)
  { c with g := KV.set 0 g2 31 0x10000, inflight := [], group := Group.fresh, wait := none, exc := none, win := none
           pc := BitVec.ofNat 64 entry, nxt := c.nxt + 3, run := true, repOn := false, repHit := false }

/-- The dispatcher starts slot (n, i) on the Juggler that serves the position; its ports leave their idle state (11 R305). -/
def State.dispatch (s : State) (g p : Nat) (st : Nat × Nat) : State :=
  let k := s.server g p
  let x := s.pos g p
  let e := jugEng g k
  let c := (s.core e).slotRegs st.1 st.2 (s.startTime g p x.bank st.1 st.2) (s.schEntry g p x.bank st.2)
  let s0 := if x.idle then (List.range 4).foldl (fun t l => t.leaveIdle (g * 16 + 4 * p + l)) s else s
  let s1 := (s0.setCore e c).setPos g p { x with n := st.1, i := st.2, started := true, idle := false, refused := false, running := true }
  (s1.setJState g p jsInSlot).putFld (.jstat g p) Fld.jstatSlot st.2

/-- Whether the Juggler that serves a position waits for its next slot start. -/
def State.slotWaits (s : State) (g p : Nat) : Bool :=
  let c := s.core (jugEng g (s.server g p))
  s.server g p < 5 && c.run && c.wait == some .wfi && c.exc.isNone

/-! ### Idle ports, halting -/

/-- The ports of a position take their idle states (11 R305, Table 6). -/
def State.idlePorts (s : State) (g p : Nat) : State :=
  let s1 := (List.range 4).foldl (fun s l => s.idlePort (g * 16 + 4 * p + l)) s
  s1.setPos g p { s1.pos g p with idle := true }

/-- The Juggler of a position stops. -/
def State.stopJug (s : State) (g k : Nat) : State :=
  let e := jugEng g k
  let c := s.core e
  s.setCore e { c.drain with run := false, wait := none, exc := none }

/-- A Juggler's exception halts it: an entry of class contained with its unit and the cause, STATE, CAUSE and FPC, group event
k = p, idle ports (04 R123, 11 R305). -/
def State.jugHalt (s : State) (e : Engine) (x : Exc) : State :=
  match e with
  | .juggler g k =>
    let s1 := (s.stopJug g.val k.val).logEvent (s.unitOf e) clsContained 0 x.cause
    match s.served e with
    | none => s1
    | some p =>
      let s2 := (s1.setJState g.val p jsExcept).putFld (.jstat g.val p) Fld.jstatCause x.cause
      let s3 := s2.putFld (.jstat g.val p) Fld.jstatFpc (x.epc.toNat % 65536)
      let s4 := s3.setPos g.val p { s3.pos g.val p with running := false }
      (s4.groupEvent g.val p).idlePorts g.val p
  | _ => s

/-- A synchronous exception raised is entered once nothing holds the engine: at a core or the Trust Core by 06 R167-R173, at a
Juggler it halts the engine. -/
def execExceptionEntry (eng : Engine) (s : State) : Result :=
  .next (let s := if (s.core eng).exc.isNone && (s.core eng).frozen.isNone then s.setCore eng (s.core eng).fireDoom else s
    let c := s.core eng
    match c.exc with
    | none => s
    | some x => if c.frozen.isSome || c.halted then s else if isJug eng then s.jugHalt eng x else s.takeExc eng x)

/-! ### JCTL (11 R292, R295, R305, R314) -/

/-- The hourly read of a word of the store: good as it is; a single wrong bit corrected and written back; any other poisoned,
with an entry of class deferred and group event 7 (11 R292). -/
def State.patrolStore (s : State) (g p : Nat) (alt data : Bool) (w : Nat) : State :=
  let a := storeAddr g p ((s.pos g p).bank != alt) data (w * 8)
  let y := (KV.get 0 s.st.jstoreSyn (a / 8)).toNat
  match syndOf y with
  | .good => s
  | .poison => s
  | .bit i =>
    let v := BitVec.ofNat 64 (ofBytes (KV.getAll 0 s.st.jstore a 8)) ^^^ BitVec.ofNat 64 (2 ^ i)
    s.putStore a (toBytes 8 v.toNat)
  | .check => { s with st := { s.st with jstoreSyn := KV.set 0 s.st.jstoreSyn (a / 8) 0 } }
  | .bad =>
    let s1 := { s with st := { s.st with jstoreSyn := KV.set 0 s.st.jstoreSyn (a / 8) 0x7F } }
    (s1.logEvent (0x300 + g * 8 + 7) clsDeferred 0 y).groupEvent g 7

/-- The words of a bank whose check fails are corrected or poisoned as the copy reads them (11 R292). -/
def State.checkBank (s : State) (g p : Nat) (second : Bool) : State :=
  let alt := (s.pos g p).bank != second
  s.st.jstoreSyn.foldl (fun t e =>
    [false, true].foldl (fun u data =>
      let b := storeAddr g p second data 0 / 8
      if b ≤ e.1 && e.1 < b + 8192 then u.patrolStore g p alt data (e.1 - b) else u) t) s

/-- Copy both halves of a bank into a Juggler's LMEMs, poisoned words with their code (11 R292). -/
def State.copyBank (s0 : State) (g p : Nat) (second : Bool) (k : Nat) : State :=
  let s := s0.checkBank g p second
  let n := 5 * g + k
  let half := fun (data : Bool) => storeAddr g p second data 0
  let part := fun (m : Mem) (a : Nat) => m.filterMap (fun e => if a ≤ e.1 && e.1 < a + 65536 then some (n * 65536 + (e.1 - a), e.2) else none)
  let out := fun (m : Mem) => m.filter (fun e => !(n * 65536 ≤ e.1 && e.1 < (n + 1) * 65536))
  let merge := fun (m : Mem) (b : Mem) => b.foldl (fun m e => KV.set 0 m e.1 e.2) (out m)
  let w := fun (a : Nat) (base : Nat) => s.st.jstoreSyn.filterMap (fun e =>
    if a / 8 ≤ e.1 && e.1 < a / 8 + 8192 then some (base + (e.1 - a / 8), e.2) else none)
  let keepSyn := s.st.jsyn.filter (fun e =>
    !(n * 8192 ≤ e.1 && e.1 < (n + 1) * 8192) && !(2 ^ 24 + n * 8192 ≤ e.1 && e.1 < 2 ^ 24 + (n + 1) * 8192))
  let syn := (w (half true) (n * 8192) ++ w (half false) (2 ^ 24 + n * 8192)).foldl (fun m e => KV.set 0 m e.1 e.2) keepSyn
  { s with st := { s.st with
      jcode := merge s.st.jcode (part s.st.jstore (half false))
      jdata := merge s.st.jdata (part s.st.jstore (half true))
      jsyn := syn } }

/-- RUN 0 to 1, or 1 again after a halt: SLIM := 0, the active bank is copied, the position loads (11 R292, R305, 04 R120). A position without
service loads on the spare that joins it (DESIGN CHOICE, log entry 175). -/
def State.runPosition (s : State) (g p : Nat) : State :=
  let k := s.server g p
  if 5 ≤ k then s.setPos g p { s.pos g p with haltedAs := some jsLoading, slim := 0 }
  else
    let e := jugEng g k
    let c := s.core e
    let s1 := s.setCore e { c.setCreg 2 0 with run := false, wait := none, exc := none, inflight := [] }
    let s2 := s1.setPos g p { s1.pos g p with loadAt := some s.mtime }
    (s2.copyBank g p (s2.pos g p).bank k).setJState g p jsLoading

/-- RUN 1 to 0: the position stops at once (11 R305). One without service stays so in STATE, and a spare that joins it finds it halted. -/
def State.haltPosition (s : State) (g p : Nat) : State :=
  let k := s.server g p
  if k < 5 then
    let s1 := s.stopJug g k
    ((s1.setPos g p { s1.pos g p with running := false, loadAt := none }).setJState g p jsHalted).idlePorts g p
  else
    (s.setPos g p { s.pos g p with running := false, faultAt := none, haltedAs := some jsHalted }).idlePorts g p

/-- Whether the position has stopped by itself, so that RUN = 1 loads it again. -/
def State.stoppedSelf (s : State) (g p : Nat) : Bool :=
  let st := if s.server g p < 5 then some (s.jState g p) else (s.pos g p).haltedAs
  st == some jsExcept || st == some jsRejected

/-- A write of OWNER and RUN to JCTL: PID 0 or 255, OWNER changed only by 255 (11 R314). -/
def State.writeJctl (s : State) (r : Req) (g p owner : Nat) (run : Bool) : State :=
  let reg := Reg.jctl g p
  if !s.groupAlive g then s.loseStore r reg.addr
  else if (r.pid.toNat ≠ 0 && r.pid.toNat ≠ 255) || (r.pid.toNat ≠ 255 && owner != s.fld reg Fld.jctlOwner) then
    s.refuse r (0x300 + g * 8 + 7) reg.addr 0
  else
    let was := s.flag reg Fld.jctlRun
    let s1 := s.wr reg (keyedPair (owner * 65536 + if run then 1 else 0))
    if run && (!was || s.stoppedSelf g p) then s1.runPosition g p
    else if !run && was then s1.haltPosition g p
    else s1

def execPositionRun (r : Req) (g : Fin 32) (p : Fin 4) (owner : BitVec 16) (s : State) : Result :=
  .next (s.gated r (Reg.jctl g.val p.val).addr (fun s => s.writeJctl r g.val p.val owner.toNat true))
def execPositionHalt (r : Req) (g : Fin 32) (p : Fin 4) (owner : BitVec 16) (s : State) : Result :=
  .next (s.gated r (Reg.jctl g.val p.val).addr (fun s => s.writeJctl r g.val p.val owner.toNat false))

/-- Whether the copy into the LMEMs has ended: 8,192 Juggler clocks, 10.24 µs (11 R292). -/
def Pos.loaded (x : Pos) (now : W64) : Bool := (x.loadAt.map (fun t => t.toNat + 10240)).getD 0 ≤ now.toNat

/-- The copy ends: the schedule is checked, the dispatcher starts with the first start from now on, or the position is
rejected (11 R295). -/
def execPositionLoadDone (g : Fin 32) (p : Fin 4) (s : State) : Result :=
  .next (let x := s.pos g.val p.val
    let k := s.server g.val p.val
    if s.jState g.val p.val ≠ jsLoading || 5 ≤ k || !x.loaded s.mtime then s
    else if !s.schedOk g.val p.val x.bank then s.setJState g.val p.val jsRejected
    else
      let f := s.firstStart g.val p.val x.bank s.mtime.toNat
      let e := jugEng g.val k
      let c := s.core e
      let s1 := s.setCore e { c with run := true, wait := some .wfi, exc := none }
      (s1.setPos g.val p.val { x with n := f.1, i := f.2, started := false, running := true }).setJState g.val p.val jsWaiting)

/-! ### The position store (11 R292, R293) -/

/-- A write at offset `off` of the window: only PID 255; a write to the active bank of a position that runs is dropped. -/
def State.writeWindow (s : State) (r : Req) (g off n v : Nat) : State :=
  let pa := 0x0800018000 + g * 0x1000000 + off
  let b := Reg.jwbank g
  let p := s.fld b Fld.jwbankPos
  let alt := s.flag b Fld.jwbankAlt
  let act := (s.pos g p).bank
  if !s.groupAlive g then s.loseStore r pa
  else if r.pid.toNat ≠ 255 then s.refuse r (0x300 + g * 8 + 7) pa 0
  else if !alt && s.flag (.jctl g p) Fld.jctlRun then s.refuse r (0x300 + g * 8 + 7) pa 0
  else
    let at_ := storeAddr g p (act != alt) (s.flag b Fld.jwbankHalf) (s.fld b Fld.jwbankPart * 0x8000 + off)
    s.putStore at_ (toBytes n v)

/-- The bytes the window shows. -/
def State.readWindow (s : State) (g off n : Nat) : List Byte :=
  let b := Reg.jwbank g
  let p := s.fld b Fld.jwbankPos
  KV.getAll 0 s.st.jstore (storeAddr g p ((s.pos g p).bank != s.flag b Fld.jwbankAlt) (s.flag b Fld.jwbankHalf)
    (s.fld b Fld.jwbankPart * 0x8000 + off)) n

def execPositionStoreWrite (r : Req) (g : Fin 32) (off : BitVec 15) (sz : ASize) (v : W64) (s : State) : Result :=
  .next (s.gated r (0x0800018000 + g.val * 0x1000000 + off.toNat) (fun s =>
    s.writeWindow r g.val off.toNat (match sz with | .b => 1 | .h => 2 | .w => 4 | .d => 8) v.toNat))

def execPositionStorePatrol (g : Fin 32) (p : Fin 4) (alt data : Bool) (w : BitVec 13) (s : State) : Result :=
  .next (s.patrolStore g.val p.val alt data w.toNat)

end Sys2Proof.Machine
end

