-- ==== Sys2Proof/Machine/Join.lean ====
section
/-! DEFINITION. The spare Juggler of a port group (11 R288, R303, R304): joins, takeovers, hard faults. JPOS.SSTATE: 0 under test,
1 ready, 2 joining, 3 absent. -/
namespace Sys2Proof.Machine

/-- Start a join of position `p` by the spare at a time: a bank is copied into its LMEMs (11 R303). -/
def State.startJoin (s : State) (g p : Nat) (second : Bool) (at_ : W64) : State :=
  let k := s.spareJug g
  let s1 := (s.copyBank g p second k).putSpareJug g k 2 p
  let s2 := (s1.setPos g p { s1.pos g p with joinAt := some at_ }).setSpare (16 + g) k
  s2.setScState (16 + g) scJoining

/-- A delta waits to switch position `p` of a group: its alternate bank is joined, at or after the time `joinAlt`. -/
def State.deltaWaits (s : State) (g p : Nat) : Bool := (s.pos g p).joinAlt.isSome

/-- The ready spare starts to join a position in service: its alternate bank for a delta switch, else the active one. -/
def execSpareJoin (g : Fin 32) (p : Fin 4) (s : State) : Result :=
  .next (let x := s.pos g.val p.val
    if s.sstate g.val ≠ 1 || 5 ≤ s.spareJug g.val || 5 ≤ s.server g.val p.val || s.lko.stopped then s
    else s.startJoin g.val p.val (x.bank != s.deltaWaits g.val p.val) s.mtime)

/-- Whether the join of a position has ended: 8,192 Juggler clocks, 10.24 µs (11 R303). -/
def State.joinEnded (s : State) (g p : Nat) : Bool :=
  match (s.pos g p).joinAt with
  | some t => s.sstate g == 2 && s.fld (.jpos g) Fld.jposJoin == p && t.toNat + 10240 ≤ s.mtime.toNat
  | none => false

/-- The next position of a group that a delta still has to switch, when none is left the section's switch is made (02 R45). -/
def State.groupSwitched (s : State) (g : Nat) : State :=
  if (List.range 4).any (fun p => s.deltaWaits g p) then s else s.switched 4 g

/-- The port settings of a delta take effect with the position's Juggler: EN last. -/
def State.applySettings (s : State) (g p : Nat) : State :=
  let x := s.pos g p
  x.settings.foldl (fun t e =>
    if e.1.kind = .pctrl then (t.wr e.1 (withBits e.2 0 0 (bitsOf (t.rd e.1) 0 0))).setEn (e.1.i * 16 + e.1.j) (bitOf e.2 0)
    else t.wr e.1 e.2) (s.setPos g p { x with settings := [] })

/-- A takeover in service: the old Juggler leaves and becomes the spare, after a rotation under test, after a delta switch ready
for the next program (02 Table 7); the slot starts on the new one. After a delta switch the alternate bank is the active one, and the dispatcher follows its table from this start on (11 R303). -/
def State.takeOver (s : State) (g p : Nat) : State :=
  let old := s.server g p
  let new := s.spareJug g
  let x := s.pos g p
  let t := s.mtime.toNat
  let c := s.nextStart g p
  let l := s.latestStart g p x.bank t c
  let delta := x.joinAlt.isSome
  let slim := (s.core (jugEng g old)).creg 2
  let s1 := s.stopJug g old
  let s2 := s1.setCore (jugEng g new) { (s1.core (jugEng g new)).setCreg 2 slim with run := true, wait := some .wfi, exc := none }
  let s3 := (s2.setServer g p new).putSpareJug g old (if delta then 1 else 0) 0
  let s4 := (s3.setSpare (16 + g) old).setScState (16 + g) (if delta then scReady else scTesting)
  let s5 := if delta then s4 else
    { s4.bump (.carscope (16 + g)) Fld.carscopeSteps 1 with car := { s4.car with swapAt := KV.set 0 s4.car.swapAt (16 + g) s.mtime } }
  if delta then
    let from_ := s.startTime g p x.bank l.1 l.2
    let y := s5.pos g p
    let s6 := s5.setPos g p { y with bank := !x.bank, joinAlt := none, joinAt := none }
    let f := s6.firstStart g p (!x.bank) from_
    let s7 := ((s6.applySettings g p).setPos g p { (s6.applySettings g p).pos g p with n := f.1, i := f.2, started := false }).setJState g p jsWaiting
    let s8 := if s6.startTime g p (!x.bank) f.1 f.2 ≤ t then s7.dispatch g p f else s7
    s8.groupSwitched g
  else
    let y := s5.pos g p
    ((s5.setPos g p { y with joinAt := none }).skipStarts g p (s.startsBetween g p x.bank c l)).dispatch g p l

/-- A group without a spare keeps its old programs: its section stays PARTIAL (02 R45). -/
def State.dropSwitches (s : State) (g : Nat) : State :=
  if (List.range 4).any (fun q => s.deltaWaits g q) then
    ((List.range 4).foldl (fun s q => s.setPos g q { s.pos g q with joinAlt := none }) s).switchPartial 4 g
  else s

/-- The spare takes over a position left without service; no spare is left. SLIM keeps its value (04 R120). A position that was in service goes on
at the next slot, the starts passed since the fault are skipped (11 R304); one that was not is found as it was left, and loads where RUN has
been written 1 meanwhile (DESIGN CHOICE, log entry 175). -/
def State.takeLost (s : State) (g p : Nat) : State :=
  let new := s.spareJug g
  let x := s.pos g p
  let c := s.nextStart g p
  let l := s.latestStart g p x.bank s.mtime.toNat c
  let s1 := (s.setServer g p new).putSpareJug g 7 3 0
  let e := jugEng g new
  let s2 := (s1.setPos g p { s1.pos g p with joinAt := none, faultAt := none, haltedAs := none, running := x.haltedAs.isNone }).setCore e
    ((s1.core e).setCreg 2 x.slim)
  let s3 := s2.exhaust (16 + g)
  match x.haltedAs with
  | none => ((s3.skipStarts g p (s.startsBetween g p x.bank c l)).dispatch g p l).dropSwitches g
  | some st => (if st = jsLoading then s3.runPosition g p else s3.setJState g p st).dropSwitches g

/-- Whether the spare takes a position over now: its join has ended and a slot start is due at which the serving Juggler waits; for a delta not
before its time, for a Carousel step only while Lookout runs (16 R429); after a hard fault, a start later than 12.5 µs from its detection (11 R303, R304). -/
def State.takeoverDue (s : State) (g p : Nat) : Bool :=
  let x := s.pos g p
  let c := s.nextStart g p
  let t := s.mtime.toNat
  let l := s.latestStart g p x.bank t c
  let st := s.startTime g p x.bank l.1 l.2
  let due := s.startTime g p x.bank c.1 c.2 ≤ t
  s.joinEnded g p &&
  (if s.server g p < 5 then
     due && x.running && s.slotWaits g p && (match x.joinAlt with
       | some a => a.toNat ≤ st
       | none => !s.lko.stopped)
   else x.haltedAs.isSome || (due && (match x.faultAt with
       | some f => f.toNat + 12500 < st
       | none => true)))

/-- The spare takes a position over when it can. -/
def State.takeover (s : State) (g p : Nat) : State :=
  if !s.takeoverDue g p then s else if s.server g p < 5 then s.takeOver g p else s.takeLost g p

/-- JUGGLER_TAKEOVER: the spare takes over at the first slot start after its join at which it can. -/
def execJugglerTakeover (g : Fin 32) (p : Fin 4) (s : State) : Result := .next (s.takeover g.val p.val)

/-! ### Slot starts -/

/-- SLOT_START: the start that is due is dispatched, the ones it passes are skipped; while the previous slot runs it is dropped
and counted in OVR with group event 4 (11 R296-R298). -/
def State.slotStart (s : State) (g p : Nat) : State :=
  let x := s.pos g p
  let c := s.nextStart g p
  let t := s.mtime.toNat
  if !x.running || 5 ≤ s.server g p || t < s.startTime g p x.bank c.1 c.2 then s
  else if s.slotWaits g p then
    let l := s.latestStart g p x.bank t c
    (s.skipStarts g p (s.startsBetween g p x.bank c l)).dispatch g p l
  else
    let s1 := s.setPos g p { x with n := c.1, i := c.2, started := true }
    (s1.bump (.jstat g p) Fld.jstatOvr 1).groupEvent g 4

/-- A slot start at which the spare takes over starts on it (11 R303). -/
def execSlotStart (g : Fin 32) (p : Fin 4) (s : State) : Result :=
  .next (if s.takeoverDue g.val p.val then s.takeover g.val p.val else s.slotStart g.val p.val)

/-- The time from which a spare can join: at once when ready, 2 µs after a test in progress is abandoned (11 R304). -/
def State.spareReadyAt (s : State) (g : Nat) : W64 := if s.sstate g = 0 then s.mtime + 2000 else s.mtime

/-- A hard fault of a Juggler: it stops and is retired, an entry of class recovered. The spare joins its position at once; with
no spare the ports idle and group event p is raised; a fault of the spare itself abandons its join (11 R304, 02 R45). -/
def State.jugFault (s : State) (g k : Nat) (why : Nat) : State :=
  let u := 0x300 + g * 8 + k
  let s1 := ((s.stopJug g k).logEvent u clsRecovered 0 why)
  let s2 := s1.retire (16 + g) k 6
  match (List.range 4).find? (fun p => s.server g p == k) with
  | some p =>
    let s3 := s2.setServer g p 7
    let run := (s.pos g p).running
    let s4 := s3.setPos g p { s3.pos g p with running := false, faultAt := if run then some s.mtime else none, loadAt := none
                                              haltedAs := if run then none else some (s.jState g p), slim := (s.core (jugEng g k)).creg 2 }
    if s.spareJug g < 5 && s.sstate g ≤ 2 then
      let again := s.sstate g == 2 && s.fld (.jpos g) Fld.jposJoin == p && !s.deltaWaits g p
      let s5 := s4.setJState g p jsJoining
      if again then s5
      else
        let old := s.fld (.jpos g) Fld.jposJoin
        let s6 := if s.sstate g = 2 then s5.setPos g old { s5.pos g old with joinAt := none } else s5
        s6.startJoin g p (s6.pos g p).bank (s.spareReadyAt g)
    else
      let s5 := ((s4.setJState g p jsNone).groupEvent g p).idlePorts g p
      s5.dropSwitches g
  | none =>
    if s.spareJug g = k then
      let j := s.fld (.jpos g) Fld.jposJoin
      let s3 := if s.sstate g = 2 then s2.setPos g j { s2.pos g j with joinAt := none } else s2
      ((s3.putSpareJug g 7 3 0).exhaust (16 + g)).dropSwitches g
    else s2

/-- JUGGLER_HARD_FAULT of a Juggler in service or spare. -/
def execJugglerHardFault (g : Fin 32) (k : Fin 5) (why : JugFault) (s : State) : Result :=
  .next (if s.isRetired (16 + g.val) k.val then s
    else s.jugFault g.val k.val (match why with | .latchParity => 1 | .lmemUncorrectable => 2 | .storeCheck => 3))

end Sys2Proof.Machine
end

