-- ==== Sys2Proof/Machine/MainMem.lean ====
section
/-! DEFINITION. Die failure, migration to the spare, steering and scrubbing (09 R261-R266). -/
namespace Sys2Proof.Machine

/-- Set a field of SPSTEER of a die group. -/
def State.putSteer (s : State) (grp : Nat) (f : Field) (v : Nat) : State := s.putFld (.spsteer grp) f v

/-- Whether an address of the stores lies on a die. -/
def onDie (d line : Nat) : Bool := dieOf line == d

/-- Discard what the spare of a group holds. -/
def State.dropSpare (s : State) (grp : Nat) : State :=
  { s with st := { s.st with
    spare := s.st.spare.filter (fun e => groupOfDie (dieOf (e.1 / 64)) != grp)
    spareSyn := s.st.spareSyn.filter (fun e => groupOfDie (dieOf (e.1 / 8)) != grp) } }

/-- Start a migration of a die: planned (1) or after a failure (2). -/
def State.migrate (s : State) (d kind : Nat) : State :=
  let g := groupOfDie d
  ((((s.dropSpare g).putSteer g Fld.spsteerDone 0).putSteer g Fld.spsteerDie (d % 8)).putSteer g Fld.spsteerState kind)

/-- Whether some class A line of a channel has one copy: a die is failed and a twin region is in force. -/
def State.singleNow (s : State) (h : Nat) : Bool :=
  (s.dieState (2 * h) == 2 || s.dieState (2 * h + 1) == 2) &&
    (List.range 16).any (fun n => s.flag (.mctwin h n) Fld.mctwinEn)

def State.putSingle (s : State) (h : Nat) : State := s.putFlag (.mcstat h) Fld.mcstatSingle (s.singleNow h)

/-- A migration under way in a group is abandoned; the place that a planned rotation was leaving stays as it was served (09 R264). -/
def State.abandon (s : State) (g : Nat) : State :=
  let st := s.steer g Fld.spsteerState
  let src := g * 8 + s.steer g Fld.spsteerDie
  let t := (s.dropSpare g).putSteer g Fld.spsteerState 0
  if st = 1 then t.setDieState src (if t.dieElem src = src % 8 then 0 else 3) else t

/-- The die that is its group's spare fails: a migration to it ends, and the group has no spare. -/
def State.spareFailure (s : State) (g d : Nat) : State :=
  if s.steer g Fld.spsteerState = 3 then s
  else
    let t := (s.logEvent (0x520 + d) clsRecovered 0 0).abandon g
    if t.scState (48 + g) = scNoSpare then t else t.exhaust (48 + g)

/-- The die that serves place `x` fails: the place is marked failed, with its interrupt and entry; a free spare starts the failure migration, a
planned rotation of another place is abandoned, one of this place goes on (09 R261, R264). -/
def State.placeFailure (s : State) (x d : Nat) : State :=
  if s.dieState x = 2 then s
  else
    let h := x / 2
    let g := groupOfDie x
    let st := s.steer g Fld.spsteerState
    let src := g * 8 + s.steer g Fld.spsteerDie
    let s1 := ((s.setDieState x 2).putSingle h).homeEvent h (some 2) (0x520 + d) clsRecovered 0 0
    if st = 1 && src = x then s1.putSteer g Fld.spsteerState 2
    else if st = 1 then (s1.abandon g).migrate x 2
    else if st = 0 && s1.scState (48 + g) ≠ scNoSpare then s1.migrate x 2
    else s1

/-- DIE_FAILURE of die 0-15, or of the spare dies 16 and 17: it serves a place, or it is its group's spare. -/
def State.dieFailure (s : State) (d : Nat) : State :=
  let g := if 16 ≤ d then d - 16 else groupOfDie d
  match s.placeOfElem g (if 16 ≤ d then 8 else d % 8) with
  | some x => s.placeFailure x d
  | none => s.spareFailure g d

def execDieFailure (d : Fin 18) (s : State) : Result := .next (s.dieFailure d.val)

/-- The line of a die at a row. -/
def lineOfRow (d row : Nat) : Nat := (d % 2) * 2 ^ 24 + row * 8 + d / 2

/-- What the migration of a line writes to the spare, word by word (09 R262). -/
def State.migrateWord (s : State) (line w : Nat) : State :=
  if !s.dieFailed line then
    let r := s.readCopy w
    match r.2 with
    | some v => r.1.putSpare w v 0
    | none => r.1.putSpare w (r.1.wordRaw w) (r.1.wordSyn w)
  else if (s.classA line || s.isSecond line) && !s.dieFailed (twinOf line) then
    let r := s.readCopy (twinWord w)
    match r.2 with
    | some v => r.1.putSpare w v 0
    | none => r.1.putSpare w (r.1.wordRaw (twinWord w)) (r.1.wordSyn (twinWord w))
  else s.putSpare w (s.wordRaw w) 0x7F

/-- MIGRATION_LINE_COPY: the next row of the group's migration. -/
def State.lineCopy (s : State) (g : Nat) : State :=
  let st := s.steer g Fld.spsteerState
  let row := s.steer g Fld.spsteerDone
  if (st ≠ 1 && st ≠ 2) || 2 ^ 21 ≤ row then s
  else
    let line := lineOfRow (g * 8 + s.steer g Fld.spsteerDie) row
    if s.lineBusy line then s
    else
      let s1 := (List.range 8).foldl (fun t i => t.migrateWord line (line * 8 + i)) s
      s1.putSteer g Fld.spsteerDone (row + 1)

def execMigrationLineCopy (second : Bool) (s : State) : Result := .next (s.lineCopy (if second then 1 else 0))

/-- The spare's contents take the place of a die's. -/
def State.adoptSpare (s : State) (d : Nat) : State :=
  { s with st := { s.st with
    main := (s.st.spare.filter (fun e => onDie d (e.1 / 64))).foldl (fun m e => KV.set 0 m e.1 e.2)
      (s.st.main.filter (fun e => !onDie d (e.1 / 64)))
    syn := (s.st.spareSyn.filter (fun e => onDie d (e.1 / 8))).foldl (fun m e => KV.set 0 m e.1 e.2)
      (s.st.syn.filter (fun e => !onDie d (e.1 / 8))) } }

/-- SPARE_STEER: every row is copied; the spare takes the die's place. After a planned rotation the die taken out is the
group's spare and goes to test; after a failure the group has no spare left (09 R263-R265). -/
def State.spareSteer (s : State) (g : Nat) : State :=
  let st := s.steer g Fld.spsteerState
  let d := g * 8 + s.steer g Fld.spsteerDie
  if (st ≠ 1 && st ≠ 2) || (st = 1 && s.lko.stopped) || s.steer g Fld.spsteerDone ≠ 2 ^ 21 then s
  else
    let out := s.dieElem d
    let s1 := (((s.adoptSpare d).dropSpare g).serveBy d (s.idleElem g)).putSingle (d / 2)
    if st = 1 then
      let n := 48 + g
      let s2 := ((s1.putSteer g Fld.spsteerState 0).setSpare n out).setScState n scTesting
      (s2.bump (.carscope n) Fld.carscopeSteps 1).putCarSwap n
    else (s1.putSteer g Fld.spsteerState 3).exhaust (48 + g)

def execSpareSteer (second : Bool) (s : State) : Result := .next (s.spareSteer (if second then 1 else 0))

/-- Scrub one word of a class A line: both copies are read; a copy that fails, or a second copy that differs, is rewritten. -/
def State.scrubTwin (s : State) (w : Nat) : State :=
  let v := twinWord w
  let a := s.readCopy w
  let b := a.1.readCopy v
  let note := fun (t : State) (x : Nat) => t.logEvent (t.dieUnit (x / 8)) clsRecovered (x * 8) (s.wordSyn x)
  match a.2, b.2 with
  | some x, some y => if x = y then b.1 else note (b.1.writeCopy v x 0) v
  | some x, none => if s.dieFailed (v / 8) then b.1 else note (b.1.writeCopy v x 0) v
  | none, some y => if s.dieFailed (w / 8) then b.1 else note (b.1.writeCopy w y 0) w
  | none, none => b.1.poisonWord w

/-- SCRUB_LINE: a home transaction that reads a line, corrects it and repairs its twin; a failed die is skipped (09 R266). -/
def State.scrub (s : State) (line : Nat) : State :=
  if s.lineBusy line || !s.inService (homeRouter (homeOf line)) then s
  else
    let p := if s.isSecond line then twinOf line else line
    if s.classA p then (List.range 8).foldl (fun t i => t.scrubTwin (p * 8 + i)) s
    else if s.dieFailed line then s
    else (s.readLine line).1

def execScrubLine (line : BitVec 25) (s : State) : Result := .next (s.scrub line.toNat)

end Sys2Proof.Machine
end

