-- ==== Sys2Proof/Machine/Carousel.lean ====
section
/-! DEFINITION. The Carousel (16 R419-R424): steps, tests of the element that is out of service, swap pauses, commands. -/
namespace Sys2Proof.Machine

/-- The state of a phase in PWRPH: 0 in service, 1 spare, 2 under test, 3 retired. -/
def State.phase (s : State) (p : Nat) : Nat := s.fld .pwrph Fld.pwrphPh / 4 ^ p % 4
def State.setPhase (s : State) (p v : Nat) : State :=
  let x := s.fld .pwrph Fld.pwrphPh
  s.putFld .pwrph Fld.pwrphPh (x - s.phase p * 4 ^ p + v * 4 ^ p)

/-- The elements of a scope in service. -/
def State.serving (s : State) (n : Nat) : List Nat :=
  if n < 16 then
    (List.range 9).filter (fun x => lcores.any (fun l => s.hosts n l && (s.lc l).duty != .lost && ((s.lc l).lead == x || (s.lc l).mate == some x)))
  else if n < 48 then (List.range 5).filter (fun k => (List.range 4).any (fun p => s.server (n - 16) p == k))
  else if n < 50 then
    (List.range 9).filter (fun e => match s.placeOfElem (n - 48) e with
      | some d => s.dieState d != 2
      | none => false)
  else if n = 50 then (List.range 9).filter (fun p => s.phase p == 0)
  else if s.plane false = 0 && s.plane true = 0 && s.powered 56 && s.powered 57 then [0, 1] else []

/-- When an element last left test. -/
def State.servedAt (s : State) (n i : Nat) : Nat := (KV.get 0 s.car.served (n * 16 + i)).toNat

/-- The element that has served longest, the lowest index among equals (16 R420). -/
def State.longest (s : State) (n : Nat) : Option Nat :=
  (s.serving n).foldl (fun (a : Option Nat) i =>
    match a with
    | none => some i
    | some b => if s.servedAt n i < s.servedAt n b then some i else some b) none

/-- The logical core of a cluster that an element serves. -/
def State.coreOfSlot (s : State) (c x : Nat) : Option Nat :=
  lcores.find? (fun l => s.hosts c l && ((s.lc l).lead == x || (s.lc l).mate == some x))

/-- A swap has ended: the element taken out is the scope's spare and under test (16 R420). -/
def State.swapped (s : State) (n x : Nat) : State :=
  (((s.setSpare n x).setScState n scTesting).bump (.carscope n) Fld.carscopeSteps 1).putCarSwap n

/-- The step of a core scope: a degraded logical core is joined by the ready spare (16 R418); else the spare joins the logical core of
the element that has served longest and waits for a quiet window (16 R421, R422). -/
def State.coreStep (s : State) (n x : Nat) : State :=
  match lcores.find? (fun l => s.hosts n l && (s.lc l).duty == .degraded && (s.lc l).mate == none) with
  | some l =>
    let k := s.lc l
    (s.setLc l { k with mate := some (s.spareOf n), duty := .pair }).commitSpare n
  | none => { s.setScState n scWaiting with car := { s.car with swapping := KV.set none s.car.swapping n (some x) } }

/-- The step of a die scope: a planned migration to the die that is out of service (09 R264). -/
def State.dieStep (s : State) (n x : Nat) : State :=
  match s.placeOfElem (n - 48) x with
  | some d =>
    if s.steer (n - 48) Fld.spsteerState ≠ 0 then s
    else ((s.migrate d 1).setDieState d 1).setScState n scJoining
  | none => s

/-- The step of the power phases: the spare enters service before the other leaves it. -/
def State.phaseStep (s : State) (x : Nat) : State := ((s.setPhase (s.spareOf 50) 0).setPhase x 2).swapped 50 x

/-- Start the next step of a scope whose spare is ready. Juggler steps of a group wait while a delta carries its section. -/
def State.carGo (s : State) (n : Nat) : State :=
  match s.longest n with
  | none => s
  | some x =>
    if n < 16 then s.coreStep n x
    else if n < 48 then
      match (List.range 4).find? (fun p => s.server (n - 16) p == x) with
      | some p => if s.layCarries 4 (n - 16) then s else s.startJoin (n - 16) p (s.pos (n - 16) p).bank s.mtime
      | none => s
    else if n < 50 then s.dieStep n x
    else if n = 50 then s.phaseStep x
    else { s.setScState 51 scJoining with fab := { s.fab with emptying := some (x == 1) } }

/-- Whether a scope can take a step: the Carousel runs, the scope has power, is not held, its spare is ready, and no pair of a cluster is held
for its vote (01 R20). -/
def State.carReady (s : State) (n : Nat) : Bool :=
  !((s.hosted n).any (fun l => (s.lc l).pausing)) && s.carOn && s.scopePowered n && s.scState n == scReady && !s.car.hold.contains n && !s.lko.stopped

/-- CAROUSEL_STEP: the kind rotates and one period has passed since the scope's last swap. -/
def execCarouselStep (n : Scope) (s : State) : Result :=
  let k := scopeKind n.val
  let due := (KV.get 0 s.car.swapAt n.val).toNat + s.fld (.carper k) Fld.carperPeriod * 1000000000
  .next (if s.carReady n.val && s.bitIn .carctl Fld.carctlKinds k && due ≤ s.mtime.toNat then s.carGo n.val else s)

/-- The element passes its test. -/
def State.testPassed (s : State) (n x : Nat) : State :=
  let s1 := { s with car := { s.car with served := KV.set 0 s.car.served (n * 16 + x) s.mtime, retest := s.car.retest.filter (fun e => e != n) } }
  let calm := if s.car.hold.contains n then scHeld else scReady
  if n = 51 then
    let p := x == 1
    let s2 := { s1.setPlane p 0 with fab := { s1.fab with testing := none } }
    (((s2.setSpare 51 0xF).setScState 51 calm).bump (.carscope 51) Fld.carscopeSteps 1).putCarSwap 51 |>.pairsHome
  else
    let s2 := s1.setScState n calm
    if n = 50 then s2.setPhase x 1
    else if 16 ≤ n && n < 48 then s2.putSpareJug (n - 16) x 1 0 else s2

/-- The second failure of an element's test: it is retired, and its scope has no spare (16 R420, R424). -/
def State.testFailed (s : State) (n x : Nat) (bs : List FailBit) : State :=
  let s1 := { s with car := { s.car with retest := s.car.retest.filter (fun e => e != n) } }
  let s2 := match bs with
    | b :: _ => s1.retireFor n x b.array.toNat b.addr.toNat b.bit.toNat b.step.toNat bs.length
    | [] => s1.retire n x (if n < 16 then 0 else if n < 48 then 6 else if n < 50 then 8 else 0)
  let s3 :=
    if n = 51 then { s2.setPlane (x == 1) 2 with fab := { s2.fab with testing := none } }.pairsHome
    else if n = 50 then s2.setPhase x 3
    else if 16 ≤ n && n < 48 then (s2.putSpareJug (n - 16) 7 3 0)
    else s2
  s3.exhaust n

/-- The test of a physical core of a lost logical core (16 R418). -/
def State.lostTested (s : State) (c : Nat) (pass : Bool) (found : List FailBit) : State :=
  match s.car.lostTest.find? (fun e => e / 16 == c) with
  | none => s
  | some e =>
    let bs := bitsOfUnit (scopeUnit c (e % 16)) (scopeArrays c) found
    let again := s.car.retest.contains (64 + e)
    let drop := { s with car := { s.car with lostTest := s.car.lostTest.erase e, retest := s.car.retest.filter (fun x => x != 64 + e) } }
    if pass && bs.isEmpty then { drop with car := { drop.car with served := KV.set 0 drop.car.served e s.mtime } }
    else
      let r := if again then ((s.bitEntries bs), bs) else (s.bitEntries bs).remapRows bs.length bs []
      if again || !r.2.isEmpty then
        let t := { r.1 with car := drop.car }
        match bs with
        | b :: _ => t.retireFor c (e % 16) b.array.toNat b.addr.toNat b.bit.toNat b.step.toNat bs.length
        | [] => t.retire c (e % 16) 0
      else { r.1 with car := { s.car with retest := s.car.retest ++ [64 + e] } }

/-- The end of the test of the element that is out of service, with the bits its array tests found (19 R480): a pass makes the spare ready.
After a failure the failing rows are remapped as CALPOL says (19 R482, R483) and the test is repeated once; a row that is not remapped, or the
second failure, retires the element. -/
def State.testDone (s : State) (n : Nat) (pass : Bool) (found : List FailBit) : State :=
  let x := s.spareOf n
  let bs := bitsOfUnit (scopeUnit n x) (scopeArrays n) found
  if pass && bs.isEmpty then s.testPassed n x
  else if s.car.retest.contains n then (s.bitEntries bs).testFailed n x bs
  else
    let r := (s.bitEntries bs).remapRows bs.length bs []
    if !r.2.isEmpty then r.1.testFailed n x r.2
    else { r.1 with car := { r.1.car with retest := r.1.car.retest ++ [n] } }

/-- CAROUSEL_TEST_DONE. -/
def execCarouselTestDone (n : Scope) (x : TestEnd) (s : State) : Result :=
  .next (if s.scState n.val = scTesting then s.testDone n.val x.pass x.found
    else if n.val < 16 then s.lostTested n.val x.pass x.found else s)

/-! ### The swap pause (16 R422) -/

/-- Whether the quiet window of a window index is open with at least 2 µs left. -/
def State.windowOpen (s : State) (i : Nat) : Bool :=
  let per := s.fld (.carqwp i) Fld.carqwpPeriod
  let off := s.fld (.carqwo i) Fld.carqwoOffset
  let len := s.fld (.carqwo i) Fld.carqwoLen
  let t := s.mtime.toNat / 1000 % per
  !s.flag (.carqwp i) Fld.carqwpEn
    || (off + len ≤ per && off ≤ t && s.mtime.toNat % (per * 1000) + 2000 ≤ (off + len) * 1000)

/-- SWAP_PAUSE: the leaving core drains, its registers pass to the spare, which serves in its place. -/
def State.swapPause (s : State) (l : Nat) : State :=
  let k := s.lc l
  let c := k.cluster
  match k.place, KV.get none s.car.swapping c with
  | some pl, some x =>
    if s.lko.stopped || s.scState c ≠ scWaiting || (k.lead ≠ x && k.mate ≠ some x) || k.duty = .lost then s
    else if k.frozen.isSome || k.doom.isSome || k.shadow ≠ 0 || k.pausing || k.halted || !s.windowOpen pl then s
    else
      let sp := s.spareOf c
      let d := k.drain
      let k1 := { d with lead := if k.lead = x then sp else k.lead, mate := if k.lead = x then k.mate else some sp
                         group := Group.fresh }
      let s1 := s.setLc l k1
      { s1.swapped c x with car := { (s1.swapped c x).car with swapping := KV.set none s1.car.swapping c none } }
  | _, _ => s

def execSwapPause (l : Fin 128) (s : State) : Result := .next (s.swapPause l.val)

/-! ### Commands (16 CARCMD, CARCTL) -/

/-- The unit ID of the Carousel's block. -/
def carUnit : Nat := 0x710

/-- CARCMD HOLD and RESUME. -/
def State.carHold (s : State) (n : Nat) : State :=
  let s1 := { s with car := { s.car with hold := if s.car.hold.contains n then s.car.hold else s.car.hold ++ [n] } }
  if s.scState n = scReady then s1.setScState n scHeld else s1
def State.carResume (s : State) (n : Nat) : State :=
  let s1 := { s with car := { s.car with hold := s.car.hold.filter (fun x => x != n) } }
  if s.scState n = scHeld then s1.setScState n scReady else s1

/-- A command of CARCMD, which only PID 255 writes (16 R436). -/
def State.carCmd (s : State) (r : Req) (n cmd : Nat) : State :=
  if r.pid ≠ 255 then s.refuse r carUnit Reg.carcmd.addr cmd
  else
    let s1 := s.wr .carcmd (keyedPair (cmd + n * 65536))
    if cmd = 1 then (if s1.carReady n then s1.carGo n else s1)
    else if cmd = 2 then s1.carHold n
    else s1.carResume n

def execCarcmdStep (r : Req) (n : Scope) (s : State) : Result := .next (s.carCmd r n.val 1)
def execCarcmdHold (r : Req) (n : Scope) (s : State) : Result := .next (s.carCmd r n.val 2)
def execCarcmdResume (r : Req) (n : Scope) (s : State) : Result := .next (s.carCmd r n.val 3)

/-- A write of CARCMD as a register: the keyed value has passed its checks. -/
def State.writeCarcmd (s : State) (r : Req) (v : W64) : State :=
  s.carCmd r (bitsOf v Fld.carcmdScope.hi Fld.carcmdScope.lo) (bitsOf v 7 0)

/-- CARCTL: EN 0 to 1 makes the powered scopes take part, 1 to 0 turns them off; swaps under way are abandoned. -/
def State.carSwitch (s : State) (was : Bool) : State :=
  if s.carOn == was then s
  else if s.carOn then (List.range 52).foldl State.scopeUp s
  else
    let s1 := { s with car := { s.car with swapping := [] } }
    (List.range 52).foldl State.scopeDown s1

end Sys2Proof.Machine
end

