-- ==== Sys2Proof/Machine/SelfTest.lean ====
section
/-! DEFINITION. Self-test of analogue elements, fuse repair, calibration writes (19 R476-R489). -/
namespace Sys2Proof.Machine

/-! ### Group ADCs (19 R477) -/

/-- The analogue pins of a group: field ports in analogue mode. -/
def State.analoguePins (s : State) (g : Nat) : List Nat :=
  (List.range 16).filter (fun p => s.ifc (g * 16 + p) == 9 && s.fld (.fldcfg g p) Fld.fldcfgMode == 7)

/-- The ADC of a group fails: FAIL, PIRQ.FAULT on every analogue pin, an entry; the requests that wait are answered by error
words. -/
def State.adcFails (s : State) (g : Nat) : State :=
  let s1 := s.putBit .caladc Fld.caladcFail g true
  let gr := s1.group g
  let s2 := gr.adcQ.foldl (fun t p => t.pushRx (g * 16 + p) [rxWord 4 0 (endPayload 7 t.mtime)]) (s1.setGroup g { gr with adcQ := [] })
  let s3 := (s2.analoguePins g).foldl (fun t p => t.portEvent (g * 16 + p) 2) s2
  s3.logEvent (0x300 + g * 8 + 6) clsContained 0 0

/-- ADC_REFERENCE_CHECK: it ran in an empty cycle, or no empty cycle has occurred; 1 s without one sets STALE. FAIL clears with the
first check after a reset of the group, when it passes. -/
def State.adcCheck (s : State) (g : Nat) (ran : Bool) (err : Nat) : State :=
  if !hasField g || !s.alive (16 + g) then s
  else if ran then
    let s1 := { s with test := { s.test with adcSeen := KV.set 0 s.test.adcSeen g s.mtime } }.putBit .caladc Fld.caladcStale g false
    let s2 := { s1 with test := { s1.test with adcFresh := s1.test.adcFresh.filter (fun x => x != g) } }
    if err ≤ 10 then (if s.test.adcFresh.contains g then s2.putBit .caladc Fld.caladcFail g false else s1)
    else if s1.bitIn .caladc Fld.caladcFail g then s2 else s2.adcFails g
  else if (KV.get 0 s.test.adcSeen g).toNat + 1000000000 ≤ s.mtime.toNat then s.putBit .caladc Fld.caladcStale g true
  else s

def execAdcReferenceCheck (g : Fin 32) (ran : Bool) (errPerMille : Nat) (s : State) : Result :=
  .next (s.adcCheck g.val ran errPerMille)

/-! ### Memory PHY references (19 R479) -/

/-- ANALOGUE_REFERENCE_CHECK: a deviation retrims the reference, and the check is repeated 1 s later. -/
def execAnalogueReferenceCheck (h : Fin 8) (within : Bool) (s : State) : Result :=
  let x := s.home h.val
  .next (if !s.alive (48 + h.val) || within then s else s.setHome h.val { x with refFail := true })

/-- ANALOGUE_REFERENCE_REPEAT: a second failure is the report of a dead agent (16 R426). -/
def execAnalogueReferenceRepeat (h : Fin 8) (within : Bool) (s : State) : Result :=
  let x := s.home h.val
  let s1 := s.setHome h.val { x with refFail := false }
  .next (if !s.alive (48 + h.val) || !x.refFail then s else if within || s.lko.stopped then s1 else s1.declareDead (48 + h.val))

/-- SENSOR_SUPPLY_OUT_OF_WINDOW: outside ±5 % for 100 µs within its current limit, on the terms of 12 R337 (19 R478). -/
def execSensorSupplyOutOfWindow (p : PortId) (s : State) : Result := .next (s.supplyFault p.code)

/-! ### CAL commands and registers (19 R485-R489) -/

/-- The OTP form of a repair. -/
def Repair.word (r : Repair) : Nat := r.unit + r.array * 2 ^ 12 + r.action * 2 ^ 16 + r.addr * 2 ^ 18

/-- FUSE: every record entry marked for fuse moves to the OTP, when all fit and the life cycle allows it. -/
def State.fuse (s : State) : State :=
  let marked := s.test.repairs.filter (fun r => r.fuse)
  let used := s.otp.fuses.length
  if s.lifeCycle ≠ 1 && s.lifeCycle ≠ 4 then s.putFld .calstat Fld.calstatCode 0x24
  else if 512 < used + marked.length then s.putFld .calstat Fld.calstatCode 0x2B
  else
    let add := (List.range marked.length).foldl (fun m i => KV.set 0 m (used + i) ((marked.map Repair.word).getD i 0)) s.otp.fuses
    { s with otp := { s.otp with fuses := add }
             test := { s.test with repairs := s.test.repairs.filter (fun r => !r.fuse) } }.putFld .calstat Fld.calstatCode 0

/-- CALCMD, which only PID 255 writes. -/
def State.fuseCmd (s : State) (r : Req) : State :=
  if r.pid = 255 then (s.wr .calcmd (keyedPair 1)).fuse else s.refuse r 0x7F0 Reg.calcmd.addr 1

def execFuse (r : Req) (s : State) : Result := .next (s.fuseCmd r)

/-- CALU of entry `n`: the effective trim follows at the next measurement. -/
def State.writeCalu (s : State) (r : Req) (n w : Nat) (v : W64) : State := (s.writeKeyed r (.calu n) w v).calEff n

/-- CALRLOG: RD names the next entry software will read. -/
def State.writeCalrlog (s : State) (o n : Nat) (v : W64) : State :=
  let s1 := s.wr .calrlog (mergeReg (RegKind.fields .calrlog) (laneMask o n) (v <<< (8 * o)) (s.rd .calrlog))
  let left := (s1.fld .calrlog Fld.calrlogWritten + 256 - s1.fld .calrlog Fld.calrlogRd) % 256
  { s1 with test := { s1.test with unread := left } }

/-- The factory trims come from OTP, with their complements; a pair that mismatches counts as 0, with UNCAL and one entry
per start-up (19 R487). -/
def State.loadTrims (s : State) : State :=
  let ns := (List.range 512).filter calExists
  let s1 := ns.foldl (fun t n => (t.wr (.calf n) (KV.get (keyedPair 0) t.otp.trims n)).calEff n) s
  let bad := ns.filter (fun n => s1.flag (.cale n) Fld.caleUncal)
  (bad.foldl (fun t n => t.logEvent 0x7F0 clsContained 0 n) s1).putFld .calstat Fld.calstatUncal bad.length

end Sys2Proof.Machine
end

