-- ==== Sys2Proof/Machine/PowerReq.lean ====
section
/-! DEFINITION. Power requests (17 R447, R451, R452, 15 R405): the request slots, their checks, and the consent of the Trust Core. -/
namespace Sys2Proof.Machine

/-- The body of the POWER section in force. -/
def State.powerBody (s : State) : List Byte :=
  match s.lay.active.find? (fun x => x.type == 6) with
  | some x => x.body
  | none => []

/-- Whether a set of the POWER section holds a domain: 0-7 the Trim sets, 8 Lean, 9 Doze, 10 in service. -/
def State.inPowerSet (s : State) (i d : Nat) : Bool := (Config.powerSet s.powerBody i).getLsbD d

/-- The operations of PWRREQ. -/
def opDomOn : Nat := 0x01
def opDomOff : Nat := 0x02
def opFull : Nat := 0x10
def opTrim : Nat := 0x11
def opLean : Nat := 0x12
def opDoze : Nat := 0x13
def opStandby : Nat := 0x14

/-- Whether domain `d` is on in the state that an operation asks for (17 Table 3). -/
def State.onIn (s : State) (op arg d : Nat) : Bool :=
  if op = opFull then s.inPowerSet 10 d
  else if op = opTrim then s.inPowerSet 10 d && !(d < 48 && s.inPowerSet arg d)
  else if op = opLean then s.inPowerSet 8 d
  else if op = opDoze then (48 ≤ d && d ≠ 57) || (16 ≤ d && d < 48 && s.inPowerSet 9 d)
  else false

/-- The domains an operation cuts, in ascending order. -/
def State.cuts (s : State) (op arg : Nat) : List Nat :=
  if op = opDomOn then []
  else if op = opDomOff then [arg]
  else (List.range 61).filter (fun d => s.powered d && !s.onIn op arg d)

/-- PWRSTAT [6:0]: the state, AUTO, and the Trim set. -/
def State.putPwrState (s : State) (state auto trim : Nat) : State :=
  ((s.putFld .pwrstat Fld.pwrstatState state).putFld .pwrstat Fld.pwrstatAuto auto).putFld .pwrstat Fld.pwrstatTrim trim

/-- The three fields packed, and put back. -/
def State.pwrPack (s : State) : Nat :=
  s.fld .pwrstat Fld.pwrstatState + s.fld .pwrstat Fld.pwrstatAuto * 8 + s.fld .pwrstat Fld.pwrstatTrim * 16
def State.pwrUnpack (s : State) (n : Nat) : State := s.putPwrState (n % 8) (n / 8 % 2) (n / 16)

/-- The request in progress of slot `p`. -/
def State.pwrReq (s : State) (p : Nat) : Option (Nat × Nat) := KV.get none s.pwr.request p
def State.setPwrReq (s : State) (p : Nat) (q : Option (Nat × Nat)) : State :=
  { s with pwr := { s.pwr with request := KV.set none s.pwr.request p q } }

/-- Whether a state request of another slot than `p` is in progress. -/
def State.stateBusy (s : State) (p : Nat) : Bool :=
  s.pwr.request.any (fun e => e.1 != p && (match e.2 with
    | some (op, _) => decide (0x10 ≤ op)
    | none => false))

/-- Whether a change of domain `d` is in progress for another slot: a request, or an emergency cut that waits. -/
def State.domBusy (s : State) (p d : Nat) : Bool :=
  s.stateBusy p || s.lko.emergencies.any (fun e => e.2.1 / 2 ^ d % 2 == 1)
    || s.pwr.request.any (fun e => e.1 != p && (match e.2 with
      | some (_, a) => a == d
      | none => false))

/-- Whether a request against a domain is refused by its owner entry (15 R405). -/
def ownerDenies (w : W64) (r : Req) : Bool :=
  let world := bitOf w 8
  let own := bitsOf w 7 0
  (!r.world && world) || (r.pid ≠ 0 && r.pid ≠ 255 && own ≠ r.pid.toNat) || (r.world && r.pid ≠ 255 && own ≠ r.pid.toNat)

/-- A domain in use: a logical core in a run set, a position with RUN = 1, an enabled queue pair (17 R447, R452). -/
def State.domInUse (s : State) (d : Nat) : Bool :=
  if d < 16 then lcores.any (fun l => s.hosts d l && s.inAnyRunSet l)
  else if d < 48 then
    (List.range 4).any (fun p => s.flag (.jctl (d - 16) p) Fld.jctlRun) || (List.range 128).any (fun q => s.flag (.qpcfg (d - 16) q) Fld.qpcfgEn)
  else false

/-- A request ends at once with a code. -/
def State.pwrEnd (s : State) (p code : Nat) : State := s.wr (.pwrreqs p) (BitVec.ofNat 64 code)

/-- A request in progress ends, with interrupt 1,146 (17 Table 5). -/
def State.pwrDone (s : State) (p code : Nat) : State := (((s.setPwrReq p none).pwrEnd p code)).raiseId 1146

/-- A request is accepted: BUSY; while a state changes, STATE reads changing. -/
def State.pwrAccept (s : State) (p op arg : Nat) : State :=
  let s1 := (s.setPwrReq p (some (op, arg))).wr (.pwrreqs p) (BitVec.ofNat 64 (2 ^ 63))
  if op < 0x10 then s1
  else if s.fld .pwrstat Fld.pwrstatState = 5 then s1
  else { s1 with pwr := { s1.pwr with prior := s.pwrPack } }.putFld .pwrstat Fld.pwrstatState 5

/-- The check of a domain request: the code it ends with, none when accepted. -/
def State.domCheck (s : State) (p op d : Nat) (r : Req) : Option Nat :=
  let auto := s.flag .pwrstat Fld.pwrstatAuto
  if ownerDenies (s.rd (.pwrown d)) r then some 0x24
  else if 48 ≤ d then some 0x27
  else if s.domBusy p d || (op = opDomOn && auto && !s.inPowerSet 8 d) then some 0x01
  else if op = opDomOff && s.domInUse d then some 0x26
  else none

/-- Whether a state request must wait for the Trust Core: PID 0 would cut a trusted domain. -/
def State.needsConsent (s : State) (r : Req) (op arg : Nat) : Bool :=
  r.pid == 0 && (s.cuts op arg).any (fun d => s.flag (.pwrown d) Fld.pwrownWorld)

/-- The check of a state request (17 R447, R451). -/
def State.stateCheck (s : State) (p op arg : Nat) (r : Req) : Option Nat :=
  let running := (List.range 254).any (fun q => s.fld (.ptent (q + 1)) Fld.ptentState == 3)
  let same := s.pwr.consent.contains 0 && s.pwrReq 0 == some (op, arg) && p == 255
  if !isHost r then some 0x24
  else if s.flag .pwrstat Fld.pwrstatAuto && op ≠ opStandby then some 0x01
  else if s.stateBusy p && !same then some 0x01
  else if (op = opDoze || op = opStandby) && running then some 0x26
  else if (op = opTrim || op = opLean) && (s.cuts op arg).any s.domInUse then some 0x26
  else if s.needsConsent r op arg && !s.trustUp then some 0x13
  else none

/-- A write of PWRREQ in slot `p`, which only PID `p` reaches; rejected while BUSY. -/
def State.writePwrreq (s : State) (r : Req) (p n : Nat) (v : W64) : State :=
  let rg := Reg.pwrreq p
  if r.pid.toNat ≠ p then s.refuse r 0x7F0 rg.addr 0
  else if s.flag (.pwrreqs p) Fld.pwrreqsBusy || !keyedOk rg n v then s.reject r rg
  else
    let op := bitsOf v 7 0
    let arg := bitsOf v 15 8
    let s1 := s.wr rg v
    if op < 0x10 then
      match s.domCheck p op arg r with
      | some c => if c = 0x24 then (s1.refuse r 0x7F0 (Reg.pwrown arg).addr 0).pwrEnd p c else s1.pwrEnd p c
      | none => s1.pwrAccept p op arg
    else
      match s.stateCheck p op arg r with
      | some c => s1.pwrEnd p c
      | none =>
        let s2 := s1.pwrAccept p op arg
        if s.needsConsent r op arg then
          { s2 with pwr := { s2.pwr with consent := [0], since := KV.set 0 s2.pwr.since 20 s.mtime } }
        else if p = 255 && s.pwr.consent.contains 0 && s.pwrReq 0 == some (op, arg) then { s2 with pwr := { s2.pwr with consent := [] } }
        else s2

/-- A request as its command gives it. -/
def State.pwrRequest (s : State) (r : Req) (op arg : Nat) : State := s.writePwrreq r r.pid.toNat 8 (keyedPair (op + arg * 256))

def execDomOn (r : Req) (d : BitVec 8) (s : State) : Result := .next (s.pwrRequest r opDomOn d.toNat)
def execDomOff (r : Req) (d : BitVec 8) (s : State) : Result := .next (s.pwrRequest r opDomOff d.toNat)
def execFull (r : Req) (s : State) : Result := .next (s.pwrRequest r opFull 0)
def execTrim (r : Req) (n : BitVec 8) (s : State) : Result := .next (s.pwrRequest r opTrim n.toNat)
def execLean (r : Req) (s : State) : Result := .next (s.pwrRequest r opLean 0)
def execDoze (r : Req) (s : State) : Result := .next (s.pwrRequest r opDoze 0)
def execStandby (r : Req) (s : State) : Result := .next (s.pwrRequest r opStandby 0)

/-- PWRSTAT as it was, when no state request is left. -/
def State.pwrSettle (s : State) : State :=
  if s.stateBusy 256 || s.fld .pwrstat Fld.pwrstatState ≠ 5 then s else s.pwrUnpack s.pwr.prior

/-- TRUST_CONSENT_TIMEOUT: the Trust Core has not issued the same request within 10 ms: DENIED. -/
def execTrustConsentTimeout (s : State) : Result :=
  .next (if s.pwr.consent.contains 0 && (KV.get 0 s.pwr.since 20).toNat + 10000000 ≤ s.mtime.toNat then
    ({ s with pwr := { s.pwr with consent := [] } }.pwrDone 0 0x24).pwrSettle else s)

/-- An automatic entry ends every request in progress with PREEMPTED (17 R451). -/
def State.preempt (s : State) : State :=
  let s1 := s.pwr.request.foldl (fun t e => t.pwrDone e.1 0x28) { s with pwr := { s.pwr with consent := [], latched := [] } }
  s1.pwrSettle

end Sys2Proof.Machine
end

