-- ==== Sys2Proof/Machine/RegWrite.lean ====
section
/-! DEFINITION. Writes of the registers that a Layout image or software reaches: each block's access rule and the effect of each register
(06 R180, 07 R216, 08 R236, 09 R267, 10 R285, 11 R314, 12 R316, 13 R366, 14 R374, 15 R400-R404, 16 R436, 17 R458, 18 R474, 19 R489). -/
namespace Sys2Proof.Machine

/-- The register with the written lanes in place: reserved values of a field keep it, read-only fields stay (00_scope Table 2, R3). -/
def State.merged (s : State) (rg : Reg) (o n : Nat) (v : W64) : W64 :=
  mergeReg rg.kind.fields (laneMask o n) (v <<< (8 * o)) (s.rd rg)

/-- A register stored whole from its lanes. -/
def State.raw (s : State) (rg : Reg) (o n : Nat) (v : W64) : W64 :=
  (s.rd rg &&& ~~~ (laneMask o n)) ||| ((v <<< (8 * o)) &&& laneMask o n)

/-- A write by PID 0 or 255, another's is refused. -/
def State.hostWrite (s : State) (r : Req) (rg : Reg) (o n : Nat) (v : W64) : State :=
  if isHost r then s.writePlain r rg o n v else s.refuse r (unitAt rg.addr) rg.addr 0

/-- A write by PID 255, another's is refused. -/
def State.trustWrite (s : State) (r : Req) (rg : Reg) (o n : Nat) (v : W64) : State :=
  if r.pid = 255 then s.writePlain r rg o n v else s.refuse r (unitAt rg.addr) rg.addr 0

/-! ### Interrupt routes (06 R180, 14 R373) -/

/-- The pool entry of an interrupt ID of 1,152-4,095. -/
def idPool (id : Nat) : Reg := .gcpooli ((id - 1152) / 92) ((id - 1152) % 92)

/-- Whether a partition may be given an ID. -/
def State.idTakes (s : State) (id p : Nat) : Bool :=
  id < 1152 || s.poolTakes p (s.fld (idPool id) Fld.gcpooliPid) (s.flag (idPool id) Fld.gcpooliAny)

/-- IRCFG: only PID 255 writes an entry with WORLD = 1 or sets WORLD; the partition of a guest-directed ID passes the pool check. -/
def State.writeIrcfg (s : State) (r : Req) (c id n : Nat) (v : W64) : State :=
  let rg := Reg.ircfg c id
  let trusted := s.flag rg Fld.ircfgWorld || bitOf v Fld.ircfgWorld.lo
  if id < 32 then (if isHost r then s else s.refuse r (unitAt rg.addr) rg.addr 0)
  else if !isHost r || (trusted && r.pid ≠ 255) then s.refuse r (unitAt rg.addr) rg.addr 0
  else if !keyedOk rg n v then s.reject r rg
  else if bitsOf v 19 18 = 2 && !s.idTakes id (bitsOf v 31 24) then s.reject r rg
  else s.wr rg v

/-- IRSTATE: a sender that the pool entry does not accept makes the write ignored and logged. -/
def State.writeIrstate (s : State) (r : Req) (c id o n : Nat) (v : W64) : State :=
  let rg := Reg.irstate c id
  let w := s.merged rg o n v
  let any := bitOf w Fld.irstateAnysend.lo
  let new := w ^^^ s.rd rg
  let okPid := bitsOf new 39 32 = 0 || s.idTakes id (bitsOf w 39 32)
  let okAny := id < 1152 || !any || s.flag (idPool id) Fld.gcpooliAny
  if id < 32 then (if isHost r then s else s.refuse r (unitAt rg.addr) rg.addr 0)
  else if !isHost r || (s.flag (.ircfg c id) Fld.ircfgWorld && r.pid ≠ 255) then s.refuse r (unitAt rg.addr) rg.addr 0
  else if okPid && okAny then s.wr rg w else s.refuse r (unitAt rg.addr) rg.addr 0

/-! ### Clusters (07 R216, 15 R401) -/

/-- SKCMD. -/
def State.writeSkcmd (s : State) (r : Req) (c n : Nat) (v : W64) : State :=
  let rg := Reg.skcmd c
  let j : Fin 8 := Fin.ofNat 8 (bitsOf v 14 12)
  let t : SkTarget := match bitsOf v 10 8 with
    | 0 => .l2
    | 1 => .l1d j
    | _ => .l1i j
  if !isHost r then s.refuse r (clusterUnit c) rg.addr 0
  else if !keyedOk rg n v then s.reject r rg
  else s.skidCommand c (bitsOf v 7 0) t (bitOf v 16) (bitsOf v 31 24)

/-- CLWORLD: rejected while the Skidder is busy; lines in the ways that change world are flushed, with their locks. -/
def State.writeClworld (s : State) (r : Req) (c n : Nat) (v : W64) : State :=
  let rg := Reg.clworld c
  if r.pid ≠ 255 then s.refuse r (clusterUnit c) rg.addr 0
  else if !keyedOk rg n v || s.flag (.skstat c) Fld.skstatBusy then s.reject r rg
  else
    let diff := Nat.xor (bitsOf v 15 0) (s.fld rg Fld.clworldTways)
    let out := (s.lines.filter (fun e => e.1 / 65536 == 256 + c && diff / 2 ^ (e.1 % 16) % 2 == 1 && e.2.st != LineSt.i)).map (·.2.line)
    out.foldl (fun t x => (t.cleanL2 c x).dropL2 c x) (s.wr rg v)

/-! ### Port groups (11 R314) -/

/-- JLAND with a SIZE or a BASE outside its range kept as it was (00_scope R3). -/
def jlandKeep (old v : W64) : W64 :=
  let size := bitsOf v 47 32
  let w := if size % 16 = 0 && 32 ≤ size && size ≤ 2064 then v else withBits v 47 32 (bitsOf old 47 32)
  if bitsOf w 15 0 % 16 = 0 then w else withBits w 15 0 (bitsOf old 15 0)

/-- Whether a landing ring stays within 0xFFFF; a ring that is off does. -/
def jlandFits (v : W64) : Bool := bitsOf v 27 24 == 0 || bitsOf v 15 0 + bitsOf v 27 24 * bitsOf v 47 32 ≤ 0x10000

/-- JLAND of position p, local port l: ignored and logged while RUN is 1, and when the ring passes 0xFFFF. -/
def State.writeJland (s : State) (r : Req) (rg : Reg) (g p o n : Nat) (v : W64) : State :=
  let w := jlandKeep (s.rd rg) (s.merged rg o n v)
  if r.pid ≠ 255 || s.flag (.jctl g p) Fld.jctlRun || !jlandFits w then s.refuse r (unitAt rg.addr) rg.addr 0
  else s.wr rg w

/-- QPRXR, QPTXR, QPWIN: ignored and logged while EN is 1 (11 R309). -/
def State.writeQpBase (s : State) (r : Req) (rg : Reg) (g q o n : Nat) (v : W64) : State :=
  if !isHost r || s.flag (.qpcfg g q) Fld.qpcfgEn then s.refuse r (gcUnit g) rg.addr 0 else s.writePlain r rg o n v

/-- QPICTL: PID 0, 255, and the queue pair's own. -/
def State.writeQpictl (s : State) (r : Req) (g q o n : Nat) (v : W64) : State :=
  if isHost r || r.pid.toNat = s.qpPid g q then s.writePlain r (.qpictl g q) o n v else s.refuse r (gcUnit g) (Reg.qpictl g q).addr 0

/-- PCTRL: the fields, then ERRCLR, then EN (12 R317, R318). -/
def State.writePctrl (s : State) (r : Req) (g p a o n : Nat) (v : W64) : State :=
  let rg := Reg.pctrl g p
  let m := laneMask o n
  let w := v <<< (8 * o)
  let s1 := s.writePort r rg a (m &&& ~~~ (0x21 : W64)) w
  let s2 := if bitOf (m &&& w) 5 then s1.clearErr (g * 16 + p) else s1
  if bitOf m 0 then s2.setEn (g * 16 + p) (bitOf w 0) else s2

/-! ### Frame router (13 R363, R366) -/

/-- RTCFG: EN is changed only by PID 255. -/
def State.writeRtcfg (s : State) (r : Req) (g n : Nat) (v : W64) : State :=
  let rg := Reg.rtcfg g
  if !isHost r || (bitOf v 31 != s.flag rg Fld.rtcfgEn && r.pid ≠ 255) then s.refuse r (unitAt rg.addr) rg.addr 0
  else s.writeKeyed r rg n v

/-- RTUPDCMD. -/
def State.writeRtupdcmd (s : State) (r : Req) (g n : Nat) (v : W64) : State :=
  let rg := Reg.rtupdcmd g
  if !isHost r then s.refuse r (unitAt rg.addr) rg.addr 0
  else if !keyedOk rg n v then s.reject r rg
  else s.rtUpdate r g (bitsOf v 27 16) (bitsOf v 7 0)

/-- The reserved bits of a word of a router entry (13 Table 2). -/
def rtReserved (k : Nat) : Nat := if k = 4 || k = 5 then 0x3FFF else if k = 7 then 0x3FF else 0

/-- Whether a keyed value is one that a word of a router entry defines: no reserved bit, and PROF not 0b11 (00_scope R5, 13 Table 2). -/
def rtWordOk (k n : Nat) : Bool := Nat.land n (rtReserved k) == 0 && !(k == 6 && n / 2 ^ 30 == 3)

/-- A word of the router table: dropped and logged on the active bank while EN is 1; a write that fails the key's rules is rejected (00_scope
R5, R6). -/
def State.writeRtTable (s : State) (r : Req) (g a n : Nat) (v : W64) : State :=
  let off := a % 0x1000000 - 0x100000
  let second := decide (0x40000 ≤ off)
  let unit := 0x300 + g * 8 + 5
  if !isHost r || (s.flag (.rtcfg g) Fld.rtcfgEn && second == s.rtBank g) then s.refuse r unit a 0
  else if n = 8 && pairOk v && rtWordOk (off % 0x40 / 8) (bitsOf v 31 0) then s.putRtWord g second (off % 0x40000 / 0x40) (off % 0x40 / 8) v
  else s.refuse r unit a 0

/-! ### Error log (16 R435) -/

/-- A write of RD: the entries before the slot are read. -/
def State.elogMark (s : State) (rd : Nat) : State :=
  let u := (s.fld .elogptr Fld.elogptrWritten + 1024 - rd % 1024) % 1024
  (s.putFld .elogcfg Fld.elogcfgUnread (min u s.elog.length)).elogSync

def State.writeElogptr (s : State) (r : Req) (o n : Nat) (v : W64) : State :=
  if !isHost r then s.refuse r 0x7F0 Reg.elogptr.addr 0
  else
    let s1 := s.wr .elogptr (s.merged .elogptr o n v)
    if bitOf (laneMask o n) 0 then s1.elogMark (s1.fld .elogptr Fld.elogptrRd) else s1.elogSync

/-- ELOG_RD_WRITE. -/
def execElogRdWrite (r : Req) (rd : BitVec 10) (s : State) : Result :=
  .next (if isHost r then s.elogMark rd.toNat else s.refuse r 0x7F0 Reg.elogptr.addr 0)

/-! ### Dispatch by register -/

/-- A write of `n` bytes at address `a` in register `rg` of a block that answers. -/
def State.regWrite (s : State) (r : Req) (rg : Reg) (a n : Nat) (v : W64) : State :=
  let o := a % 8
  let i := rg.i
  let j := rg.j
  match rg.kind with
  | .ircfg => s.writeIrcfg r i j n v
  | .irstate => s.writeIrstate r i j o n v
  | .msgirq => if o < 2 then s.msgIrq r i (bitsOf (v <<< (8 * o)) 11 0) else s
  | .l2ctl => if isHost r then s.writeL2ctl i (laneMask o n) (s.raw rg o n v) else s.refuse r (clusterUnit i) a 0
  | .l1ctl => if isHost r then s.writeL1ctl i j (laneMask o n) (s.raw rg o n v) else s.refuse r (clusterUnit i) a 0
  | .skcmd => s.writeSkcmd r i n v
  | .clworld => s.writeClworld r i n v
  | .mctwin => if s.lay.memoryDone then s.refuse r (unitAt a) a 0 else s.trustWrite r rg o n v
  | .fbstat | .fbcnt => if isHost r then s.writePlain r rg o n v else s.refuse r (unitAt a) (a / 8 * 8) 0
  | .fbslot | .gcpoolq | .gcpooli | .jwbank | .rtaccept | .rtown => s.trustWrite r rg o n v
  | .qpcfg => if keyedOk rg n v || r.pid ≠ 0 && r.pid ≠ 255 then s.writeQpcfg r i j v else s.reject r rg
  | .qprxr | .qptxr | .qpwin => s.writeQpBase r rg i j o n v
  | .qprxt => s.writeTail r i j false (s.raw rg o n v)
  | .qptxt => s.writeTail r i j true (s.raw rg o n v)
  | .qpictl => s.writeQpictl r i j o n v
  | .jctl => if keyedOk rg n v || !isHost r then s.writeJctl r i j (bitsOf v 31 16) (bitOf v 0) else s.reject r rg
  | .jland => s.writeJland r rg i j o n v
  | .pctrl => if s.reachesPort r.pid.toNat (i * 16 + j) then s.writePctrl r i j a o n v else s.refuse r (phyUnit i) a 0
  | .pxcmd =>
    if s.reachesPort r.pid.toNat (i * 16 + j) then s.writePxcmd r (i * 16 + j) (laneMask o n) (v <<< (8 * o)) else s.refuse r (phyUnit i) a 0
  | .pcimsi => if o = 0 then s.pcieMsi r (i * 16 + j) (bitsOf v 5 0) else s
  | .portid | .pstat | .perr | .pirq | .canmode | .canbt | .canswf | .canswm | .canswd | .canswdm | .lincfg | .t1scfg | .t1cfg
  | .macaddr | .trkcfg | .snscfg | .sercfg | .fldcfg | .fldpwm | .fldadc | .pcicfg | .pciwin | .pxaddr | .pxlocal =>
    if s.reachesPort r.pid.toNat (i * 16 + j) then s.writePort r rg a (laneMask o n) (v <<< (8 * o)) else s.refuse r (phyUnit i) a 0
  | .rtcfg => s.writeRtcfg r i n v
  | .rtupdcmd => s.writeRtupdcmd r i n v
  | .fwrlo | .fwrhi | .fwratt | .fwclo | .fwchi => s.writeFwTable r rg i n v
  | .fwcmd => s.writeFwcmd r i n v
  | .fwstat | .fwcrc | .fwdrec =>
    if r.pid = 255 && r.world then s.writePlain r rg o n v else s.refuse r (fwUnitId i) a 0
  | .pwrbud | .pwrtemp | .pwrown | .clkown => s.trustWrite r rg o n v
  | .pwrreq => s.writePwrreq r i n v
  | .pwrreqs => if r.pid.toNat = i then s else s.refuse r 0x7F0 a 0
  | .clkss | .clkxchk | .mtrate => s.writeClk r rg n v
  | .mtstep => s.writeMtstep r n v
  | .mtstat => s.writeMtstat r o n v
  | .carctl =>
    if r.pid ≠ 255 then s.refuse r carUnit a 0 else (s.writeKeyed r rg n v).carSwitch s.carOn
  | .carcmd => if r.pid ≠ 255 || keyedOk rg n v then s.writeCarcmd r v else s.reject r rg
  | .carper | .carqwp | .carqwo | .carscope => s.trustWrite r rg o n v
  | .lkocfg => s.writeLkocfg r n v
  | .lkocmd => if isHost r then s.writeLkocmd r n v else s.refuse r carUnit a 0
  | .lkobeat => s.beat r
  | .elogptr => s.writeElogptr r o n v
  | .calcmd =>
    if r.pid ≠ 255 then s.refuse r 0x7F0 a 0 else if keyedOk rg n v then s.fuseCmd r else s.reject r rg
  | .calu => if r.pid ≠ 255 then s.refuse r 0x7F0 a 0 else s.writeCalu r i n v
  | .calpol => s.trustWrite r rg o n v
  | .calrlog => if isHost r then s.writeCalrlog o n v else s.refuse r 0x7F0 a 0
  | .calstat | .caladc | .calres0 | .calres1 | .calf | .cale => s.hostWrite r rg o n v
  | _ => s.hostWrite r rg o n v

end Sys2Proof.Machine
end

