-- ==== Sys2Proof/Machine/Image.lean ====
section
/-! DEFINITION. Checking and applying the sections of a Layout image (02 R29-R40, R48), the load at start-up, and the restoring of a port
group (11 R287). -/
namespace Sys2Proof.Machine

/-- The identity of the loader's requests (02 R31). -/
def layReq : Req := ⟨255, true, 0x700, none⟩

/-! ### Writes of blocks -/

/-- A write of `n` bytes to a block other than main memory. The Trust Core holds the tables of a group's Firebreak unit while the group is
powered off, so a write of them is kept (11 R287). -/
def State.blockWrite (s : State) (r : Req) (a n : Nat) (v : W64) : State :=
  let g := (a - 0x0800000000) / 0x1000000
  if s.isUnmapped r.pid.toNat a || (!s.answers a && !inGroupFw a n) then s.loseStore r a
  else if within a 1 0x0C00100000 0x40000 then s.mbWrite r ((a - 0x0C00100000) / 256) (a % 256) n v
  else if inWindow a then s.writeWindow r g (a % 0x8000) n v.toNat
  else if inRtTable a then s.writeRtTable r g a n v
  else match s.regAt (a / 8 * 8) with
    | some rg => s.regWrite r rg a n v
    | none => match s.lmemAt a with
      | some (l, o) => s.writeWindowLmem l o a (toBytes n v.toNat)
      | none => s

/-- The loader's write of bytes: main memory as one transfer, a block in 64-bit words. -/
def State.imgBytes (s : State) (a : Nat) (bs : List Byte) : State :=
  if a < 0x80000000 then (s.ioWriteN 0x700 255 true a bs).1
  else (Rec.fill a bs).words.foldl (fun t w => t.blockWrite layReq w.1 w.2.1 w.2.2) s

/-- PCICFG.ROLE, which only an image changes, while EN is 0 (12 PCICFG). -/
def State.imgRole (s : State) (a : Nat) (v : W64) : State :=
  match s.regAt a with
  | some rg => if rg.kind == .pcicfg && !s.portEn (rg.i * 16 + rg.j) then s.putFlag rg Fld.pcicfgRole (bitOf v 0) else s
  | none => s

/-- The loader's 64-bit write. -/
def State.imgWrite (s : State) (a : Nat) (v : W64) : State :=
  if a < 0x80000000 then s.imgBytes a (toBytes 8 v.toNat) else (s.imgRole a v).blockWrite layReq a 8 v

/-! ### Claims and partitions (02 R32, R48) -/

/-- Whether a claim covers a resource. -/
def Claim.covers (c : Claim) (cls i : Nat) : Bool := c.cls == cls && c.first ≤ i && i < c.first + c.count

/-- The first resource of a claim that another owner holds, with its owner field. -/
def conflictIn (force : List Claim) (c : Claim) : Option (Nat × Nat) :=
  (force.filterMap (fun x =>
    if x.cls == c.cls && x.owner != c.owner && x.first < c.first + c.count && c.first < x.first + x.count
    then some (max x.first c.first, x.owner) else none)).foldl (fun (m : Option (Nat × Nat)) e =>
      match m with
      | none => some e
      | some b => if e.1 < b.1 then some e else some b) none

/-- LAYCONF names the first conflicting resource. -/
def State.putConf (s : State) (cls : Nat) (x : Nat × Nat) : State :=
  s.wr .layconf (BitVec.ofNat 64 (cls * 2 ^ 56 + x.2 * 2 ^ 32 + x.1))

/-- RTOWN of every port in every group, from the class 0x01 claims (13 RTOWN). -/
def State.syncOwn (s : State) : State :=
  (List.range 32).foldl (fun t g =>
    let b := (Reg.rtown g 0).addr
    (List.range 512).foldl (fun t n =>
      match t.claimOwner 1 n with
      | some o => t.wr (.rtown g n) (keyedPair (256 + o % 256))
      | none => t) { t with regs := KV.keep (fun a => a < b || b + 4096 ≤ a) t.regs }) s

/-- A slot claim is a slot of the plan (10 R280). -/
def planWords (cs : List Claim) : KV W64 :=
  cs.foldl (fun m c => (List.range c.count).foldl (fun m i =>
    KV.set 0 m (Reg.fbslot ((c.first + i) / 250) ((c.first + i) % 250)).addr (keyedPair (256 + c.owner % 256))) m) []

/-- A PART record declares its partition; one already created keeps the record it was created with (02 Table 7). -/
def State.declare (s : State) (p : Part) : State :=
  let parts := s.lay.parts.filter (fun x => x.pid != p.pid) ++ [p]
  let s1 := { s with lay := { s.lay with parts := parts } }
  if s.fld (.ptent p.pid) Fld.ptentState ≤ 1 then
    (s1.putFld (.ptent p.pid) Fld.ptentState 1).putFlag (.ptent p.pid) Fld.ptentWorld p.world
  else s1

/-! ### Checks of a section (02 R29-R32, R38 step 8, R48) -/

/-- Whether an address is that of an RWK register. -/
def State.keyedAt (s : State) (a : Nat) : Bool :=
  inRtTable a || (match s.regAt a with
    | some rg => rg.kind.keyed
    | none => false)

/-- Whether the value of a KWRITE is one its register defines. -/
def State.definedAt (s : State) (a v : Nat) : Bool :=
  match s.regAt a with
  | some rg => !rg.kind.keyed || (keyedFields rg.kind.fields v && keyedExtra rg v)
  | none => !inRtTable a || rtWordOk (a % 0x40 / 8) v

/-- The status of one record: `defined` the logical cores of the CLUSTER section, `pids` the partitions declared before it. -/
def State.recCode (s : State) (type inst : Nat) (defined : Nat → Bool) (pids : List Nat) : Rec → Nat
  | .write a _ => if !sectTarget type inst a 8 || s.keyedAt a then 0x0E else 0
  | .kwrite a v c =>
    if Nat.xor v c ≠ 0xFFFFFFFF || !s.definedAt a v then 0x0C
    else if !sectTarget type inst a 8 || !s.keyedAt a then 0x0E else 0
  | .fill a d => if !sectTarget type inst a d.length then 0x0E else 0
  | .claim cls _ _ _ => if sectClaims type cls then 0 else 0x0E
  | .part p =>
    if type ≠ 11 || p.tol < 50 || pids.contains p.pid || (List.range 128).any (fun l => p.mask.getLsbD l && !defined l) then 0x0E else 0

/-- The records of a body one after another: the status of the first that fails. -/
def State.recsCode (s : State) (type inst : Nat) (defined : Nat → Bool) : Nat → List Byte → List Nat → Nat
  | 0, _, _ => 0x0E
  | n + 1, b, pids =>
    if b.isEmpty then 0
    else match recAt b with
      | none => 0x0E
      | some (x, len) =>
        let c := s.recCode type inst defined pids x
        if c ≠ 0 then c
        else s.recsCode type inst defined n (b.drop (max len 8)) (match x with
          | .part p => p.pid :: pids
          | _ => pids)

/-- The claims of a section. -/
def Sect.claims (x : Sect) : List Claim :=
  x.recs.filterMap (fun e => match e with
    | .claim cls owner first count => some ⟨cls, first, count, owner, true, if x.type = 4 then x.inst else 32⟩
    | _ => none)

/-- The status of a section's claims against those in force, with the conflict found. -/
def claimsCode : List Claim → List Claim → Nat × Option (Nat × Nat × Nat)
  | _, [] => (0, none)
  | force, c :: cs =>
    if classSize c.cls < c.first + c.count then (0x0E, none)
    else match conflictIn force c with
      | some x => (0x11, some (c.cls, x))
      | none => claimsCode (force ++ [c]) cs

/-! ### Checks of a section's tables (09 R258, 11 R295, 13 R348) -/

/-- The value a register has after the writes of records. -/
def State.after (s : State) (ws : List (Nat × Nat × W64)) (r : Reg) : W64 :=
  match ws.reverse.find? (fun w => w.1 == r.addr) with
  | some w => w.2.2
  | none => s.rd r

/-- Whether the MCTWIN entries of the 8 homes agree, and no region meets another or the second copies of another (09 R258). -/
def State.twinsOk (s : State) (rs : List Rec) : Bool :=
  let ws := recWords rs
  let at_ := fun (h i : Nat) => s.after ws (.mctwin h i)
  let spans := (List.range 16).filterMap (fun i =>
    let v := at_ 0 i
    if bitOf v 31 then some (bitsOf v 9 0, bitsOf v 19 10) else none)
  let clear := fun (x y : Nat × Nat) => !touches x.1 x.2 y.1 y.2 && !touches x.1 x.2 (Nat.xor y.1 512) y.2
  (List.range 8).all (fun h => (List.range 16).all (fun i => at_ h i == at_ 0 i))
    && (List.range spans.length).all (fun i => (spans.drop (i + 1)).all (fun y => clear (spans.getD i (0, 0)) y))

/-- The records of a section that write the position store. -/
def storeRecs (g : Nat) (x : Sect) : List Rec :=
  x.recs.filter (fun e => match e.addr with
    | some a => (inWindow a && a / 0x1000000 == (0x0800000000 + g * 0x1000000) / 0x1000000) || a == (Reg.jwbank g).addr
    | none => false)

/-- Whether every schedule table that a PORTGROUP section carries passes the dispatcher's checks (11 R295): the tables in a store that
holds nothing but what the section writes. -/
def State.schedulesOk (s : State) (x : Sect) : Bool :=
  let g := x.inst
  let bare := { (s.setPower (16 + g) true).setHeld (16 + g) false with st := { s.st with jstore := [] } }
  let halted := (List.range 4).foldl (fun t p => t.wr (.jctl g p) (keyedPair 0)) bare
  let t := (storeRecs g x).foldl (fun u e => (e.words).foldl (fun u w => u.blockWrite layReq w.1 w.2.1 w.2.2) u) halted
  (List.range 4).all (fun p => [false, true].all (fun b =>
    (KV.getAll 0 t.st.jstore (storeAddr g p b false 0xF800) 0x800).all (fun y => y == 0) || t.schedOk g p b))

/-- Whether every router entry that a ROUTER section writes is valid (13 R348). -/
def State.entriesOk (s : State) (x : Sect) : Bool :=
  let ws := (recWords x.recs).foldl (fun (m : KV W64) w => KV.set 0 m w.1 w.2.2) []
  ws.all (fun e => let b := e.1 / 64 * 64; !s.rtInvalid (fun i => bitsOf (KV.get 0 ws (b + 8 * i)) 31 0))

/-- Whether the tables of a section pass. -/
def State.tablesOk (s : State) (x : Sect) : Bool :=
  if x.type = 2 then s.twinsOk x.recs else if x.type = 4 then s.schedulesOk x else if x.type = 5 then s.entriesOk x else true

/-- Step 8 for one section: status and conflict. DEDUCED: the checks of its tables follow those of its records (log entry 159). -/
def State.sectCode (s : State) (e : Entry) (x : Sect) (defined : Nat → Bool) (force : List Claim) : Nat × Option (Nat × Nat × Nat) :=
  let c := bodyCode e x.body
  if c ≠ 0 then (c, none)
  else
    let r := s.recsCode x.type x.inst defined (x.body.length / 8 + 1) x.body []
    if r ≠ 0 then (r, none) else if !s.tablesOk x then (0x0E, none) else claimsCode force x.claims

/-- The logical cores a CLUSTER section defines. -/
def definedBy (body : List Byte) (l : Nat) : Bool := (Config.clusterPlan body l).isSome

/-- The body of the CLUSTER section of an image, or of the one in force. -/
def State.clusterBody (s : State) (ss : List Sect) : List Byte :=
  match (ss ++ s.lay.active).find? (fun x => x.type == 1) with
  | some x => x.body
  | none => []

/-! ### Applying a section (02 R39) -/

/-- Apply one record. -/
def State.applyRec (s : State) (type inst : Nat) : Rec → State
  | .write a v => s.imgWrite a v
  | .kwrite a v c => s.imgWrite a (BitVec.ofNat 64 (v + c * 2 ^ 32))
  | .fill a d => s.imgBytes a d
  | .claim cls owner first count =>
    { s with lay := { s.lay with claims := s.lay.claims ++ [⟨cls, first, count, owner, true, if type = 4 then inst else 32⟩] } }
  | .part p => s.declare p

/-- The place that a CLUSTER section assigns to a logical core within the limits of 07 R554: each window index holds the lowest-numbered core
assigned to it, and only the first index of a position holds a pair, whose second index holds none (DESIGN CHOICE, log entry 172). -/
def planOf (body : List Byte) (l : Nat) : Option (Nat × Bool) :=
  match Config.clusterPlan body l with
  | some (pl, pair) =>
    let others := lcores.filterMap (fun m => if m = l then none else (Config.clusterPlan body m).map (fun x => (m, x)))
    let taken := others.any (fun o => o.1 < l && o.2.1 == pl)
    let inPair := pl.toNat % 2 == 1 && (pair || others.any (fun o => o.2.2 && o.2.1.toNat + 1 == pl.toNat))
    if taken || inPair then none else some (pl.toNat, pair)
  | none => none

/-- Place a logical core as the CLUSTER section states: a pair of slots 2q and 2q + 1, or one core of a split. -/
def State.placeCore (s : State) (body : List Byte) (l : Nat) : State :=
  match planOf body l with
  | some (pl, pair) =>
    let j := pl % 8
    s.setLc l { s.lc l with
      place := some pl, duty := if pair then .pair else .split
      lead := if pair then j / 2 * 2 else j, mate := if pair then some (j / 2 * 2 + 1) else none }
  | none => s.setLc l { s.lc l with place := none }

/-- Port group `g` is powered and out of reset; not one whose position store is out of use (19 Table 3). -/
def State.groupOn (s : State) (g : Nat) : State :=
  if s.arrayGone (0x307 + g * 8) 0xD then s else ((s.setPower (16 + g) true).setHeld (16 + g) false).domainScopeUp (16 + g)

/-- The clusters placed in service are powered, their PLLs locked. -/
def State.clustersOn (s : State) : State :=
  (List.range 16).foldl (fun t c =>
    if t.inPowerSet 10 c then (((t.setPower c true).setPll c 2).putFld (.clkpll c) Fld.clkpllFreq 1600).domainScopeUp c else t) s

/-- Main memory holds zero with valid check bits (18 Table 3). -/
def State.zeroMain (s : State) : State := { s with st := { s.st with main := [], syn := [], spare := [], spareSyn := [] } }

/-- The records of a section in force whose address passes. -/
def State.activeRecs (s : State) (type inst : Nat) (f : Nat → Bool) : List Rec :=
  match s.lay.active.find? (fun x => x.type == type && x.inst == inst) with
  | some x => x.recs.filter (fun e => match e.addr with
    | some a => f a
    | none => false)
  | none => []

/-- The pool entries of a group powered on come from the POOLS section in force (11 R287). -/
def State.poolsOf (s : State) (g : Nat) : State :=
  (s.activeRecs 10 0 (fun a => within a 1 (0x0800000000 + g * 0x1000000) 0x1000000)).foldl (fun t e => t.applyRec 10 0 e) s

/-- Apply a section of a full image. -/
def State.applySect (s : State) (x : Sect) : State :=
  let s0 := if x.type = 4 then (s.groupOn x.inst).poolsOf x.inst else if x.type = 1 then
      (List.range 128).foldl (fun t l => t.placeCore x.body l) s.clustersOn else s
  let s1 := x.recs.foldl (fun t e => t.applyRec x.type x.inst e) s0
  let s2 := { s1 with lay := { s1.lay with active := s1.lay.active ++ [x] } }
  if x.type = 1 then (List.range 16).foldl (fun t c => if t.powered c then t.setHeld c true else t) s2
  else if x.type = 2 then { s2.zeroMain with lay := { s2.lay with memoryDone := true } }
  else if x.type = 3 then (planWords x.claims).foldl (fun t e => { t with regs := KV.set 0 t.regs e.1 (e.2 ^^^ 0xFFFFFFFF00000000) }) s2
  else if x.type = 4 then s2.syncOwn
  else if x.type = 11 then ((s2.lkoClear 1).lkoClear 2).lkoRearm
  else s2

/-! ### The load at start-up (02 R37-R40) -/

/-- The 64 bytes of a flash slot's header: slot A (false) lies at 0x0100_0000, B at 0x0500_0000. -/
def State.slotHead (s : State) (second : Bool) : List Byte :=
  KV.getAll 0xFF s.st.flash (if second then 0x05000000 else 0x01000000) 64

/-- The bytes of a flash slot, as many as the header's total length says. -/
def State.slotBytes (s : State) (second : Bool) : List Byte :=
  KV.getAll 0xFF s.st.flash (if second then 0x05000000 else 0x01000000) (max 64 (min (imgU (s.slotHead second) 8 4) 0x04000000))

/-- Steps 1 to 6 for a slot. -/
def State.slotCode (s : State) (second : Bool) : Nat :=
  let c := headerCode (s.slotHead second) false s.otp.counter s.otp.slot
  if c ≠ 0 then c else s.signatureCode (s.slotBytes second)

/-- Apply the sections in order, each after its own checks: the state, and the status of the section that failed. -/
def State.applyAll (s : State) (b : List Byte) (defined : Nat → Bool) : List Sect → State × Nat
  | [] => (s, 0)
  | x :: xs =>
    let c := s.sectCode (entryAt b x.idx) x defined s.lay.claims
    if c.1 ≠ 0 then ((match c.2 with
      | some (cls, e) => s.putConf cls e
      | none => s), c.1)
    else (s.applySect x).applyAll b defined xs

/-- ELOG records the failing slot and its status (02 R37). -/
def State.slotFailed (s : State) (second : Bool) (code : Nat) : State :=
  s.log 0x700 clsContained 255 false (if second then 0x05000000 else 0x01000000) code

/-- Before the other slot is loaded, the groups whose EARLY sections the failed image had applied are powered off (02 R40). -/
def State.earlyOff (s : State) : State :=
  s.lay.active.foldl (fun t x => if x.type = 4 && x.early && t.powered (16 + x.inst) then t.cutDomain (16 + x.inst) else t) s

/-- No section, claim or partition is in force. -/
def State.freshLayout (s : State) : State :=
  { s with lay := { s.lay with claims := [], parts := [], active := [], memoryDone := false } }

/-- Load the image of a slot whose header and signatures have passed: whether it was applied whole. -/
def State.loadSlot (s : State) (second : Bool) : State × Bool :=
  let b := s.slotBytes second
  let t := tableCode b false
  let img := imageOf b
  let s0 := s.earlyOff.freshLayout
  if t.1 ≠ 0 then (s.slotFailed second t.1, false)
  else
    let cb := s0.clusterBody img.sects
    let a := s0.applyAll b (definedBy cb) (applyOrder img.sects)
    if a.2 ≠ 0 then (a.1.slotFailed second a.2, false)
    else
      let s1 := a.1.wr .layid (BitVec.ofNat 64 (img.id * 2 ^ 32 + img.id))
      (s1.putFld .laycnt Fld.laycntActive img.counter, true)

/-- The clusters in service leave reset and their logical cores start (18 Table 3). -/
def State.releaseClusters (s : State) : State :=
  (List.range 16).foldl (fun t c => if t.powered c then ((t.setHeld c false).startCluster c).domainScopeUp c else t) s

/-- Neither slot yields a complete image: every cluster held in reset, only port group 31 powered (02 R40). -/
def State.noImage (s : State) : State :=
  let s1 := (List.range 16).foldl (fun t c => if t.powered c then t.setHeld c true else t) s
  let s2 := (List.range 31).foldl (fun t g => if t.powered (16 + g) then t.cutDomain (16 + g) else t) s1
  (s2.freshLayout.groupOn 31).lkoCause 2

/-- IMAGE_LOAD: both slots are checked; the accepted image with the higher counter is loaded, slot A when they are equal, and the
other when it fails (02 R37). -/
def State.loadImages (s : State) : State :=
  let ca := s.slotCode false
  let cb := s.slotCode true
  let s1 := if ca ≠ 0 then s.slotFailed false ca else s
  let s2 := if cb ≠ 0 then s1.slotFailed true cb else s1
  let ka := imgU (s.slotHead false) 0x18 4
  let kb := imgU (s.slotHead true) 0x18 4
  let order : List Bool :=
    if ca = 0 && cb = 0 then (if ka < kb then [true, false] else [false, true])
    else if ca = 0 then [false] else if cb = 0 then [true] else []
  let done := order.foldl (fun (a : State × Bool) x => if a.2 then a else a.1.loadSlot x) (s2, false)
  if done.2 then done.1.releaseClusters else done.1.noImage

/-- IMAGE_LOAD runs while the Trust Core is RUNNING and no image is in force. -/
def execImageLoad (s : State) : Result := .next (if s.trustUp && s.lay.active.isEmpty then s.loadImages else s)

/-! ### Single records (02 R29-R32, R48) -/

/-- The type and group number of a section. -/
def secType : Section → Nat × Nat
  | .cluster => (1, 0)
  | .memory => (2, 0)
  | .fabric => (3, 0)
  | .portgroup g => (4, g.val)
  | .router => (5, 0)
  | .power => (6, 0)
  | .clock => (7, 0)
  | .carousel => (8, 0)
  | .security => (9, 0)
  | .pools => (10, 0)
  | .hierarchy => (11, 0)
  | .calib => (12, 0)

/-- Whether one record of a section passes its checks; a claim's conflict is named in LAYCONF. -/
def State.oneRec (s : State) (sec : Section) (x : Rec) : State :=
  let t := secType sec
  let c := s.recCode t.1 t.2 (definedBy (s.clusterBody [])) (s.lay.parts.map (·.pid)) x
  if c ≠ 0 then s.layErr c 0xFFFF
  else match x with
    | .claim cls owner first count =>
      let cl : Claim := ⟨cls, first, count, owner, true, if t.1 = 4 then t.2 else 32⟩
      let k := claimsCode s.lay.claims [cl]
      if k.1 ≠ 0 then (match k.2 with
        | some (q, e) => s.putConf q e
        | none => s).layErr k.1 0xFFFF
      else if cls = 1 then (s.applyRec t.1 t.2 x).syncOwn else s.applyRec t.1 t.2 x
    | _ => s.applyRec t.1 t.2 x

def execWriteRecord (sec : Section) (a v : BitVec 64) (s : State) : Result :=
  .next (if a.toNat % 8 ≠ 0 || 2 ^ 40 ≤ a.toNat then s.layErr 0x0E 0xFFFF else s.oneRec sec (.write a.toNat v))
def execKwriteRecord (sec : Section) (a : BitVec 64) (v c : W32) (s : State) : Result :=
  .next (if a.toNat % 8 ≠ 0 || 2 ^ 40 ≤ a.toNat then s.layErr 0x0E 0xFFFF else s.oneRec sec (.kwrite a.toNat v.toNat c.toNat))
def execFillRecord (sec : Section) (a : BitVec 64) (data : List Byte) (s : State) : Result :=
  .next (if a.toNat % 8 ≠ 0 || 2 ^ 40 ≤ a.toNat then s.layErr 0x0E 0xFFFF else s.oneRec sec (.fill a.toNat data))
def execClaimRecord (sec : Section) (cls : BitVec 8) (owner : BitVec 16) (first count : BitVec 32) (s : State) : Result :=
  .next (if count = 0 then s.layErr 0x0E 0xFFFF else s.oneRec sec (.claim cls.toNat owner.toNat first.toNat count.toNat))
def execPartRecord (sec : Section) (pid world : BitVec 8) (tol : BitVec 16) (mask : BitVec 128) (entry : BitVec 64) (s : State) : Result :=
  .next (if pid = 0 || pid = 255 || 1 < world.toNat then s.layErr 0x0E 0xFFFF
    else s.oneRec sec (.part ⟨pid.toNat, world == 1, tol.toNat, mask, entry⟩))

/-! ### Restoring a port group (11 R287) -/

/-- A record of the router table goes to bank 0. -/
def toBank0 (a : Nat) : Nat := if inRtTable a && 0x140000 ≤ a % 0x1000000 then a - 0x40000 else a
def Rec.bank0 : Rec → Rec
  | .write a v => .write (toBank0 a) v
  | .kwrite a v c => .kwrite (toBank0 a) v c
  | .fill a d => .fill (toBank0 a) d
  | x => x

/-- A port group powered again is restored from the image in force, and leaves reset; while the Trust Core is down it waits. -/
def State.restoreGroup (s : State) (g : Nat) : State :=
  let base := 0x0800000000 + g * 0x1000000
  let mine := fun (a : Nat) => within a 1 base 0x1000000
  if !s.trustUp then (s.setHeld (16 + g) true).setGroup g { s.group g with restoring := true }
  else
    let s0 := (s.groupOn g).setGroup g { s.group g with restoring := false }
    let cfg := s0.activeRecs 4 g mine
    let rt := (s0.activeRecs 5 0 mine).map Rec.bank0
    let s2 := cfg.foldl (fun t e => t.applyRec 4 g e) (s0.poolsOf g)
    (rt.foldl (fun t e => t.applyRec 5 0 e) s2).syncOwn

/-- The groups that waited for the Trust Core (11 R287). -/
def State.restoreWaiting (s : State) : State :=
  (List.range 32).foldl (fun t g => if (t.group g).restoring then t.restoreGroup g else t) s

end Sys2Proof.Machine
end

