-- ==== Sys2Proof/Machine/LayCmds.lean ====
section
/-! DEFINITION. Delta images (02 R41-R46): LAYCMD, verification, arming, and the switches at the activation time. -/
namespace Sys2Proof.Machine

/-- LAYCMD as a command of PID 0 or 255; it answers SERVICE_DOWN while the Trust Core is down (02 R46, R50). -/
def State.layCommand (s : State) (r : Req) (cmd : Nat) (f : State → State) : State :=
  if !isHost r then s.refuse r 0x700 Reg.laycmd.addr cmd
  else
    let s1 := s.wr .laycmd (keyedPair cmd)
    if s.trustAway then s1.layErr 0x13 0xFFFF else f s1

/-- Set the phase. -/
def State.setPhaseLay (s : State) (p : Nat) : State := s.putFld .laystat Fld.laystatPhase p

/-- The phase returns to IDLE, and the protection of the delta's bytes ends (02 R42). -/
def State.layIdle (s : State) : State := { s.setPhaseLay phIdle with lay := { s.lay with delta := none, src := 0, len := 0 } }

/-! ### STAGE (02 R41-R43) -/

/-- STAGE: BUSY while a delta is in progress; a source outside main memory gives SOURCE_ERR. The bytes are protected from now on. -/
def State.stage (s : State) : State :=
  let src := (s.rd .laysrc).toNat
  if s.layPhase ≠ phIdle then s.layErr 0x01 0xFFFF
  else if 0x80000000 ≤ src then s.layErr 0x16 0xFFFF
  else
    let h := s.ioReadN 0x700 255 true src 64
    let n := min (imgU h.2.1 8 4) 0x04000000
    if 0x80000000 < src + n then h.1.layErr 0x16 0xFFFF
    else ({ h.1 with lay := { h.1.lay with src := src, len := max n 64, abort := false } }.setPhaseLay phVerifying).layCode 0 0xFFFF

def execStage (r : Req) (s : State) : Result := .next (s.layCommand r 1 State.stage)

/-- The sections of a delta that may not be switched live. -/
def notLive (ss : List Sect) : Option Nat := (ss.find? (fun x => !x.live || !liveType x.type)).map (·.idx)

/-- The claims in force that a delta leaves. -/
def keptClaims (force : List Claim) (ss : List Sect) : List Claim :=
  force.filter (fun c => !(c.image && ss.any (fun x => (x.type == 4 && c.inst == x.inst) || (x.type == 3 && c.inst == 32))))

/-- Step 8 for every section of a delta: status, section, conflict. -/
def State.deltaCode (s : State) (b : List Byte) (defined : Nat → Bool) : List Claim → List Sect → Nat × Nat × Option (Nat × Nat × Nat)
  | _, [] => (0, 0xFFFF, none)
  | force, x :: xs =>
    let c := s.sectCode (entryAt b x.idx) x defined force
    if c.1 ≠ 0 then (c.1, x.idx, c.2) else s.deltaCode b defined (force ++ x.claims) xs

/-- The status of a delta: R38 steps 1 to 7, its base, LIVE, then its sections (02 R41). DESIGN CHOICE: R41 gives no order between the
base, LIVE and step 8; a delta that fails several gets BASE_MISMATCH, then NOT_LIVE, before a status of step 8 (log entry 160). -/
def State.verifyCode (s : State) (b : List Byte) : Nat × Nat × Option (Nat × Nat × Nat) :=
  let h := headerCode b true (s.fld .laycnt Fld.laycntActive) s.otp.slot
  let g := s.signatureCode b
  let t := tableCode b true
  let d := imageOf b
  if h ≠ 0 then (h, 0xFFFF, none)
  else if g ≠ 0 then (g, 0xFFFF, none)
  else if t.1 ≠ 0 then (t.1, t.2, none)
  else if d.base ≠ s.fld .layid Fld.layidActid then (0x10, 0xFFFF, none)
  else match notLive d.sects with
    | some i => (0x0F, i, none)
    | none => s.deltaCode b (definedBy (s.clusterBody d.sects)) (keptClaims s.lay.claims d.sects) (applyOrder d.sects)

/-- DELTA_VERIFY_DONE: STAGED, or IDLE with the status of the first check that failed (02 R43). -/
def State.verifyDone (s : State) : State :=
  if s.layPhase ≠ phVerifying || !s.trustUp then s
  else
    let x := s.ioReadN 0x700 255 true s.lay.src s.lay.len
    match x.2.2 with
    | some _ => x.1.layIdle.layErr 0x16 0xFFFF
    | none =>
      let c := x.1.verifyCode x.2.1
      if c.1 = 0 then
        (({ x.1 with lay := { x.1.lay with delta := some (imageOf x.2.1) } }.setPhaseLay phStaged).layCode 0 0xFFFF).layEvent Fld.layintStaged
      else
        let s1 := match c.2.2 with
          | some (cls, e) => x.1.putConf cls e
          | none => x.1
        s1.layIdle.layErr c.1 c.2.1

def execDeltaVerifyDone (s : State) : Result := .next s.verifyDone

/-! ### ACTIVATE (02 R44) -/

/-- The core pair that a place lies in: 4 * cluster + position. -/
def pairAt (place : Nat) : Nat := place / 8 * 4 + place % 8 / 2

/-- The core pair of a logical core under a CLUSTER section. -/
def planPair (body : List Byte) (l : Nat) : Option Nat := (Config.clusterPlan body l).map (fun x => pairAt x.1.toNat)

/-- The core pairs whose CLUSTER settings a delta changes: those of the logical cores that it places otherwise, before and after. -/
def State.changedPairs (s : State) (ss : List Sect) : List Nat :=
  if ss.any (fun x => x.type == 1) then
    let new := s.clusterBody ss
    let old := s.clusterBody []
    (lcores.filter (fun l => Config.clusterPlan new l != Config.clusterPlan old l)).flatMap (fun l => (planPair old l).toList ++ (planPair new l).toList)
  else []

/-- The logical cores of those pairs, before and after (02 R44). -/
def State.changedCores (s : State) (ss : List Sect) : List Nat :=
  let ps := s.changedPairs ss
  let on := fun (b : List Byte) (l : Nat) => match planPair b l with
    | some q => ps.contains q
    | none => false
  lcores.filter (fun l => on (s.clusterBody []) l || on (s.clusterBody ss) l)

/-- Whether an armed delta changes a logical core (02 R44). -/
def State.armedCore (s : State) (l : Nat) : Bool :=
  (s.layPhase == phArmed || s.layPhase == phActivating) && (match s.lay.delta with
    | some d => (s.changedCores d.sects).contains l
    | none => false)

/-- JWBANK of a record, with ALT set. -/
def Rec.alt (g : Nat) : Rec → Rec
  | .write a v => .write a (if a == (Reg.jwbank g).addr then v ||| 0x10 else v)
  | x => x

/-- Whether the register at an address changes with a position's Juggler: those of its four ports, and its landing rings. -/
def State.ownSetting (s : State) (g p a : Nat) : Bool :=
  match s.regAt a with
  | some rg => rg.i == g && ((within a 1 (0x0800200000 + g * 0x1000000) 0x100000 && rg.j / 4 == p) || (rg.kind == .jland && rg.j == p))
  | none => false

/-- The settings of a PORTGROUP section that change with a position's Juggler (02 Table 7). -/
def State.settingsOf (s : State) (g p : Nat) (x : Sect) : List (Reg × W64) :=
  (recWords x.recs).filterMap (fun w =>
    match s.regAt w.1 with
    | some rg => if s.ownSetting g p w.1 then some (rg, s.merged rg 0 w.2.1 w.2.2) else none
    | none => none)

/-- Arm the PORTGROUP section of a group: its alternate banks hold the new programs, and each position in service waits for its
switch. -/
def State.armGroup (s : State) (t : W64) (x : Sect) : State :=
  let g := x.inst
  let clear := (List.range 4).foldl (fun u p =>
    let b := !(u.pos g p).bank
    (List.range 2).foldl (fun u h =>
      let k := storeAddr g p b (h == 1) 0
      { u with st := { u.st with jstore := outside u.st.jstore k 65536, jstoreSyn := outside u.st.jstoreSyn (k / 8) 8192 } }) u) s
  let keep := s.rd (.jwbank g)
  let s1 := ((storeRecs g x).foldl (fun u e => u.applyRec 4 g (e.alt g)) (clear.wr (.jwbank g) (keep ||| 0x10))).wr (.jwbank g) keep
  let s2 := (List.range 4).foldl (fun u p =>
    let y := u.pos g p
    u.setPos g p { y with joinAlt := if y.running then some t else none, settings := u.settingsOf g p x }) s1
  { s2 with lay := { s2.lay with todo := s2.lay.todo ++ [(4, g)] } }

/-- Arm the ROUTER section: each group's inactive bank is cleared and written. -/
def State.armRouter (s : State) (t : W64) (x : Sect) : State :=
  let s1 := (List.range 32).foldl (fun u g =>
    if !u.alive (16 + g) then u
    else
      let b := !u.rtBank g
      let at_ := rtAddr g b 0 0
      let u1 := { u with regs := KV.keep (fun a => a < at_ || at_ + 0x40000 ≤ a) u.regs }
      let mine := x.recs.filter (fun e => match e.addr with
        | some a => inRtTable a && (a - 0x0800000000) / 0x1000000 == g
        | none => false)
      let shift := fun (a : Nat) => if b then toBank0 a + 0x40000 else toBank0 a
      let u2 := mine.foldl (fun w e => match e with
        | .write a v => w.imgWrite (shift a) v
        | .kwrite a v c => w.imgWrite (shift a) (BitVec.ofNat 64 (v + c * 2 ^ 32))
        | .fill a d => w.imgBytes (shift a) d
        | _ => w) u1
      u2.setGroup g { u2.group g with swapAt := some t }) s
  { s1 with lay := { s1.lay with todo := s1.lay.todo ++ [(5, 0)] } }

/-- Arm the FABRIC section: the plan waits in every home. -/
def State.armFabric (s : State) (t : W64) (x : Sect) : State :=
  { s with fab := { s.fab with plan := some (planWords x.claims, t) }, lay := { s.lay with todo := s.lay.todo ++ [(3, 0)] } }

/-- The claims of a delta's sections. -/
def deltaClaims (ss : List Sect) : List Claim := ss.flatMap Sect.claims

/-- ACTIVATE: TARGET_BUSY while a changed core pair hosts a running partition; CONFLICT where the delta's claims meet one made since it was
staged (R49): it stays STAGED. Otherwise the claims are made and the switches loaded into the hardware that performs them. DESIGN CHOICE:
in any phase but STAGED the command ends with BUSY; R44 gives no code there (log entry 161). -/
def State.activate (s : State) : State :=
  match s.lay.delta with
  | none => s.layErr 0x01 0xFFFF
  | some d =>
    if s.layPhase ≠ phStaged then s.layErr 0x01 0xFFFF
    else if (s.changedCores d.sects).any (fun l => s.inAnyRunSet l) then s.layErr 0x12 0xFFFF
    else match claimsCode (keptClaims s.lay.claims d.sects) (deltaClaims d.sects) with
    | (0, _) =>
      let at_ := (s.rd .layact).toNat
      let t : W64 := if s.mtime.toNat < at_ then BitVec.ofNat 64 at_ else s.mtime
      let cs := s.lay.claims ++ deltaClaims d.sects
      let s0 := ({ s with lay := { s.lay with claims := cs, todo := [], partialAt := none, time := t } }.setPhaseLay phArmed).layCode 0 0xFFFF
      d.sects.foldl (fun u x =>
        if x.type = 3 then u.armFabric t x
        else if x.type = 4 then (if u.alive (16 + x.inst) then u.armGroup t x else u)
        else if x.type = 5 then u.armRouter t x
        else u) s0
    | (c, x) => (match x with
      | some (cls, e) => s.putConf cls e
      | none => s).layErr c 0xFFFF

def execActivate (r : Req) (s : State) : Result := .next (s.layCommand r 2 State.activate)

/-- CANCEL: a staged delta is dropped with CANCELLED; VERIFYING, ARMED and ACTIVATING refuse it with BUSY. -/
def State.cancel (s : State) : State :=
  if s.layPhase = phStaged then s.layIdle.layErr 0x14 0xFFFF
  else if s.layPhase = phIdle then s.layCode 0 0xFFFF
  else s.layErr 0x01 0xFFFF

def execCancel (r : Req) (s : State) : Result := .next (s.layCommand r 3 State.cancel)

/-- COMMIT: the stored counter rises to the active counter (02 R36). -/
def State.commit (s : State) : State :=
  let c := max s.otp.counter (s.fld .laycnt Fld.laycntActive)
  ({ s with otp := { s.otp with counter := c } }.putFld .laycnt Fld.laycntStored c).layCode 0 0xFFFF

def execCommit (r : Req) (s : State) : Result := .next (s.layCommand r 4 State.commit)

/-! ### Activation (02 R44, R45) -/

/-- A position that does not run switches at the activation time: its alternate bank is the active one. -/
def State.switchIdle (s : State) (g p : Nat) : State :=
  let y := s.pos g p
  if y.running then s else (s.setPos g p { y with bank := !y.bank, joinAlt := none }).applySettings g p

/-- The writes of a PORTGROUP section that belong to no position's Juggler. -/
def State.groupWords (s : State) (g : Nat) (x : Sect) : List (Nat × Nat × W64) :=
  (recWords x.recs).filter (fun w =>
    !inWindow w.1 && w.1 != (Reg.jwbank g).addr && !(List.range 4).any (fun p => s.ownSetting g p w.1))

/-- A HIERARCHY section is replaced whole: no partition is declared any more; those created keep their entry until they are destroyed. -/
def State.undeclareAll (s : State) : State :=
  s.lay.parts.foldl (fun t p => if t.fld (.ptent p.pid) Fld.ptentState = 1 then t.wr (.ptent p.pid) 0 else t)
    { s with lay := { s.lay with parts := [] } }

/-- The switch of one section at the activation time. -/
def State.switchSect (s : State) (x : Sect) : State :=
  match x.type with
  | 1 =>
    let s1 := (s.changedCores [x]).foldl (fun t l => t.placeCore x.body l) s
    x.recs.foldl (fun t e => t.applyRec 1 0 e) s1
  | 4 =>
    if !s.alive (16 + x.inst) then s
    else
      let s1 := (List.range 4).foldl (fun t p => t.switchIdle x.inst p) s
      let s2 := (s1.groupWords x.inst x).foldl (fun t w => (t.imgRole w.1 w.2.2).blockWrite layReq w.1 w.2.1 w.2.2) s1
      if (List.range 4).any (fun p => s2.deltaWaits x.inst p) then
        (if s2.scState (16 + x.inst) = scNoSpare || 5 ≤ s2.spareJug x.inst then s2.dropSwitches x.inst else s2)
      else s2.switched 4 x.inst
  | 5 => (x.recs.filter (fun e => match e.addr with
      | some a => !inRtTable a
      | none => false)).foldl (fun t e => t.applyRec 5 0 e) s
  | 8 => x.recs.foldl (fun t e => t.applyRec 8 0 e) s
  | 10 => x.recs.foldl (fun t e => t.applyRec 10 0 e) s
  | 11 => x.recs.foldl (fun t e => t.applyRec 11 0 e) s.undeclareAll
  | 12 => x.recs.foldl (fun t e => t.applyRec 12 0 e) s
  | _ => s

/-- DELTA_ACTIVATION: at the activation time the claims of the delta replace those of the sections it replaces, and the sections
without a boundary of their own switch. -/
def State.deltaActivation (s : State) : State :=
  match s.lay.delta with
  | none => s
  | some d =>
    if s.layPhase ≠ phArmed || s.mtime.toNat < s.lay.time.toNat then s
    else
      let cs := keptClaims s.lay.claims d.sects ++ deltaClaims d.sects
      let s1 := ({ s with lay := { s.lay with claims := cs } }.setPhaseLay phActivating).syncOwn
      ((applyOrder d.sects).foldl (fun t x => t.switchSect x) s1).layCheck

def execDeltaActivation (s : State) : Result := .next s.deltaActivation

/-- FABRIC_PLAN_SWITCH: the whole slot plan changes between two frames (10 R284). -/
def State.planSwitch (s : State) : State :=
  match s.fab.plan with
  | none => s
  | some (ws, t) =>
    if s.mtime.toNat < t.toNat then s
    else
      let slots := (List.range 8).map (fun h => (Reg.fbslot h 0).addr)
      let clear := KV.keep (fun a => !slots.any (fun b => b ≤ a && a < b + 2000)) s.regs
      let s1 := { s with regs := ws.foldl (fun m (e : Nat × W64) => KV.set 0 m e.1 (e.2 ^^^ 0xFFFFFFFF00000000)) clear, fab := { s.fab with plan := none } }
      s1.switched 3 0

def execFabricPlanSwitch (s : State) : Result := .next s.planSwitch

/-- The delta that the Trust Core's failure met VERIFYING or STAGED is discarded with ABORTED once the Trust Core has restarted
(02 R46). -/
def State.layAborted (s : State) : State :=
  if s.lay.abort then { s.layIdle with lay := { s.layIdle.lay with abort := false } }.layErr 0x15 0xFFFF else s

/-- A write of LAYCMD as a register. -/
def State.writeLaycmd (s : State) (r : Req) (n : Nat) (v : W64) : State :=
  if !isHost r then s.refuse r 0x700 Reg.laycmd.addr 0
  else if !keyedOk .laycmd n v then s.reject r .laycmd
  else match bitsOf v 7 0 with
    | 1 => s.layCommand r 1 State.stage
    | 2 => s.layCommand r 2 State.activate
    | 3 => s.layCommand r 3 State.cancel
    | _ => s.layCommand r 4 State.commit

end Sys2Proof.Machine
end

