-- ==== Sys2Proof/Machine/Power.lean ====
section
/-! DEFINITION. Feeds, phases and rails, power states, wakes, budget and temperature (17 R437-R456). -/
namespace Sys2Proof.Machine

/-! ### Times kept: 0 = none, else MTIME + 1 -/

def State.sinceAt (s : State) (k : Nat) : Nat := (KV.get 0 s.pwr.since k).toNat
def State.markSince (s : State) (k : Nat) : State :=
  if s.sinceAt k ≠ 0 then s else { s with pwr := { s.pwr with since := KV.set 0 s.pwr.since k (s.mtime + 1) } }
def State.clearSince (s : State) (k : Nat) : State := { s with pwr := { s.pwr with since := KV.set 0 s.pwr.since k 0 } }
def State.keepSince (s : State) (k : Nat) (b : Bool) : State := if b then s.markSince k else s.clearSince k

/-- Whether a condition has held for `ns` nanoseconds. -/
def State.heldFor (s : State) (k ns : Nat) : Bool := s.sinceAt k ≠ 0 && s.sinceAt k + ns ≤ s.mtime.toNat + 1

/-! ### Domains come on (17 R453, R454, 11 R287) -/

/-- A port group powered again: everything at reset, restored from the image in force; a wake its detectors saw stays shown. -/
def State.reviveGroup (s : State) (g : Nat) : State :=
  let ws := (List.range 16).filter (fun p => (s.port (g * 16 + p)).wakeF)
  let s0 := { s with test := { s.test with adcSeen := KV.set 0 s.test.adcSeen g s.mtime } }
  let s1 := (s0.dropGroup g).restoreGroup g
  ws.foldl (fun t p => (t.setPort (g * 16 + p) { t.port (g * 16 + p) with wakeF := true }).putFlag (.pirq g p) Fld.pirqWake true) s1

/-- The power domains a rail feeds (17 Table 2); rails 21-25 feed no domain as a whole. -/
def railDomains (r : Nat) : List Nat :=
  if r < 16 then [r]
  else if r = 16 then (List.range 8).map (48 + ·) ++ [56, 57, 60]
  else if r = 17 then (List.range 32).map (16 + ·)
  else if r = 18 then [48, 49, 50, 51, 58]
  else if r = 19 then [52, 53, 54, 55, 59]
  else if r = 20 then (List.range 8).map (48 + ·)
  else []

/-- Whether a rail that feeds a domain has lost both halves. -/
def State.railLost (s : State) (d : Nat) : Bool := (List.range 26).any (fun r => s.pwr.polHalf2 / 2 ^ r % 2 == 1 && (railDomains r).contains d)

/-- A domain is powered: a cluster's logical cores start, a group is restored; a domain that was declared dead stays in reset, one
whose rail has lost both halves gets no power (17 R445). -/
def State.powerOn (s : State) (d : Nat) : State :=
  if s.powered d || s.railLost d then s
  else
    let s1 := (s.setPower d true).repowered d
    if s.lko.dead.contains d then s1.setHeld d true
    else if d < 16 then
      ((((s1.setHeld d false).setPll d 2).putFld (.clkpll d) Fld.clkpllFreq 1600).startCluster d).domainScopeUp d
    else if d < 48 then s1.reviveGroup (d - 16)
    else s1.domainScopeUp d

/-- Enter the state an operation asks for: Standby cuts everything, others cut and power what differs. -/
def State.enterState (s : State) (op arg : Nat) : State :=
  if op = opStandby then s.standbyNow
  else
    let cs := s.cuts op arg
    let ons := (List.range 61).filter (fun d => !s.powered d && s.onIn op arg d)
    let s1 := cs.foldl (fun t d => if op = opDoze then t.cutQuiet d else t.cutDomain d) s
    let s2 := ons.foldl State.powerOn s1
    { s2 with pwr := { s2.pwr with dozing := op == opDoze } }

/-- PWRSTAT.STATE of an operation (17 Table 3). -/
def stateOf (op : Nat) : Nat := if op = opTrim then 1 else if op = opLean then 2 else if op = opDoze then 3 else 0

/-! ### Wakes (17 R450, R451) -/

/-- A wake is recorded in PWRCAUSE. -/
def State.wakeCause (s : State) (src port : Nat) : State :=
  s.wr .pwrcause (BitVec.ofNat 64 (2 ^ 63 + src % 16 * 2 ^ 57 + port % 512 * 2 ^ 48 + s.mtime.toNat % 2 ^ 48))

/-- A wake acts: from Doze the state of PWRWAKE; from Standby a module reset and start-up follow, which the next START_UP makes. -/
def State.wakeNow (s : State) (src port : Nat) : State :=
  let s1 := s.wakeCause src port
  if s.pwr.dozing then
    let trim := s.flag .pwrwake Fld.pwrwakeTo
    let set := s.fld .pwrwake Fld.pwrwakeSet
    let s2 := s1.enterState (if trim then opTrim else opFull) set
    (s2.putPwrState (if trim then 1 else 0) 0 (if trim then set else 0)).raiseId 1147
  else if s.pwr.standby then
    { s1.putFlag .rstcause Fld.rstcauseWake true with
      pwr := { s1.pwr with standby := false, since := KV.set 0 s1.pwr.since 11 1 }
      clk := { s1.clk with started := false } }
  else s

/-- Whether a Doze or Standby request is in progress. -/
def State.dozeAsked (s : State) : Bool :=
  s.pwr.request.any (fun e => match e.2 with
    | some (op, _) => op == opDoze || op == opStandby
    | none => false)

/-- A wake event: it acts in Doze and Standby, and is latched while an entry is in progress. -/
def State.wakeEvent (s : State) (src port : Nat) : State :=
  if s.pwr.dozing || s.pwr.standby then s.wakeNow src port
  else if s.dozeAsked || s.pwr.falling then { s with pwr := { s.pwr with latched := s.pwr.latched ++ [(src, port)] } }
  else s

/-- A wake latched while an entry was in progress acts once it has completed. -/
def State.wakeLatched (s : State) : State :=
  match s.pwr.latched with
  | [] => s
  | (src, port) :: _ => { s with pwr := { s.pwr with latched := [] } }.wakeNow src port

/-- EMERGENCY_CUT: the first notice has run out (15 R406); a wake latched during an automatic entry of Standby then acts (R451). -/
def execEmergencyCut (s : State) : Result :=
  .next (let t := s.emergencyCut
    if t.pwr.standby && !s.pwr.standby then t.wakeLatched else t)

/-- Whether a doorbell bit that wakes is set for an endpoint of a cluster (14 R378). -/
def State.bellWakes (s : State) (c : Nat) : Bool :=
  (List.range 255).any (fun p =>
    let bits := s.rd (.dbbits c p)
    bits &&& (bits >>> 32 ^^^ 0xFFFFFFFF) &&& 0xFFFFFFFF != 0 && s.flag (.dbcfg c p) Fld.dbcfgWake)

/-- A doorbell wake in Trim or Doze powers the receiving cluster alone. -/
def State.bellWake (s : State) (c : Nat) : State :=
  let st := s.fld .pwrstat Fld.pwrstatState
  if 16 ≤ c || s.powered c || (st ≠ 1 && st ≠ 3) || !s.bellWakes c then s
  else ((s.wakeCause 6 c).powerOn c).raiseId 1147

/-- Whether a wake source's condition holds (17 Table 4). -/
def State.wakeHolds (s : State) (src port : Nat) : Bool :=
  match src with
  | 1 => s.ifc port == 1 && s.flag (.pctrl (port / 16) (port % 16)) Fld.pctrlWakeen
  | 2 => s.ifc port == 2 && s.flag (.pctrl (port / 16) (port % 16)) Fld.pctrlWakeen
  | 3 => s.ifc port == 9 && s.flag (.pctrl (port / 16) (port % 16)) Fld.pctrlWakeen
  | 4 => s.flag .pwrwake Fld.pwrwakeAlarm && (s.rd .pwrwaket).toNat ≤ s.mtime.toNat
  | 5 => s.pwr.standby && s.sinceAt 5 ≠ 0 && s.heldFor 4 1000000
  | _ => false

def execWake (src : BitVec 4) (port : BitVec 9) (s : State) : Result :=
  .next (if src = 6 then s.bellWake port.toNat
    else if s.wakeHolds src.toNat port.toNat then s.wakeEvent src.toNat (if src.toNat ≤ 3 then port.toNat else 0) else s)

/-- WAKE_ALARM: MTIME reaches PWRWAKET with ALARM set. -/
def execWakeAlarm (s : State) : Result := .next (if s.wakeHolds 4 0 then s.wakeEvent 4 0 else s)

/-- A frame, error or pattern met in transceiver standby, and the wake of the module it may be (12 R326). -/
def execCanSelectiveWake (p : PortId) (f : CanFrame) (good : Bool) (s : State) : Result :=
  let s1 := s.selectiveWake p.code f good
  .next (if s.wakesBy p.code f good then s1.wakeEvent 1 p.code else s1)

/-- A wake is received by a LIN port in bus sleep, or in the pulse that it sends itself, which counts as one wake with it: an event word of an
enabled port (12 Table 4), and with WAKEEN the wake of the module. -/
def State.linWoken (s : State) (n : Nat) : State :=
  let s1 := s.setPort n { s.port n with asleep := false, wakePulse := false }
  let s2 := if s.portEn n then s1.pushRx n [rxWord 3 0 (endPayload 0 s.mtime)] else s1
  if s.flag (.pctrl (n / 16) (n % 16)) Fld.pctrlWakeen then (s2.portWake n).wakeEvent 2 n else s2

/-- A LIN port in bus sleep: a dominant level of more than 150 µs and the recessive edge after it (12 R328). -/
def execLinWake (p : PortId) (us : Nat) (s : State) : Result :=
  let x := s.port p.code
  .next (if s.ifc p.code = 2 && (x.asleep || x.wakePulse) && 150 < us then s.linWoken p.code else s)

/-- A change of a field pin's level, and the wake it may be (12 R339). -/
def execFieldEdge (p : PortId) (level : Bool) (s : State) : Result :=
  let x := s.fieldEdge p.code level
  .next (if x.2 then (x.1.portWake p.code).wakeEvent 3 p.code else x.1)

/-! ### Requests end (17 R446-R453) -/

/-- POWER_REQUEST_DONE: the change has been made; PWRREQS reads OK. A request that waits for the Trust Core's consent does not end; a
wake latched during the entry acts at once. -/
def State.pwrFinish (s : State) (p : Nat) : State :=
  match s.pwrReq p with
  | none => s
  | some (op, arg) =>
    if p = 0 && s.pwr.consent.contains 0 then s
    else if op = opDomOn then (s.powerOn arg).pwrDone p 0
    else if op = opDomOff then (s.cutDomain arg).pwrDone p 0
    else
      let s1 := (s.enterState op arg).pwrDone p 0
      let s2 := if s1.stateBusy 256 then s1 else s1.putPwrState (stateOf op) 0 (if op = opTrim then arg else 0)
      s2.wakeLatched

def execPowerRequestDone (p : BitVec 8) (s : State) : Result := .next (s.pwrFinish p.toNat)

/-! ### Throttling (17 R455) -/

/-- Whether cluster `c` may be throttled: its bit in PWRBUD.THR, and power. -/
def State.throttlable (s : State) (c : Nat) : Bool := s.bitIn .pwrbud Fld.pwrbudThr c && s.powered c

/-- The clock step of a cluster: `k` steps of 200 MHz below 1.6 GHz, at most 4. -/
def State.setThrottle (s : State) (c k : Nat) : State :=
  { s with pwr := { s.pwr with throttle := KV.set 0 s.pwr.throttle c (min k 4) } }.putFld (.clkpll c) Fld.clkpllFreq (1600 - min k 4 * 200)

def State.throttleOf (s : State) (c : Nat) : Nat := KV.get 0 s.pwr.throttle c

/-! ### Automatic Lean and Standby (17 R444, R448, R456) -/

/-- Lookout enters Lean: requests in progress are preempted, the notice names the domains outside the Lean set, throttlable clusters
drop to their lowest step, interrupt 1,138. -/
def State.autoLean (s : State) (thermal : Bool) : State :=
  if s.pwr.standby || s.flag .pwrstat Fld.pwrstatAuto then s
  else
    let s0 := s.preempt
    let ds := (List.range 61).filter (fun d => s0.powered d && !s0.inPowerSet 8 d)
    let mask := ds.foldl (fun m d => m + 2 ^ d) 0
    let s1 := { s0 with pwr := { s0.pwr with back := s0.pwrPack, cutByAuto := mask, dozing := false } }
    let s2 := (((s1.putPwrState 2 1 0).clearSince 6).keepSince 6 (380 ≤ s1.pwr.vbus)).raiseId 1138
    let s3 := (List.range 16).foldl (fun t c => if t.throttlable c then t.setThrottle c 4 else t) s2
    s3.notice thermal mask

/-- Lookout enters Standby as an undervoltage emergency: every domain with power is cut. -/
def State.autoStandby (s : State) (brownOut : Bool) : State :=
  if s.pwr.standby || s.pwr.falling then s
  else
    let s0 := { s.preempt with pwr := { s.preempt.pwr with latched := s.pwr.latched } }
    let mask := ((List.range 61).filter s0.powered).foldl (fun m d => m + 2 ^ d) 0
    let s1 := { s0 with pwr := { s0.pwr with falling := true } }.putFlag .pwrstat Fld.pwrstatAuto true
    (if brownOut then s1.markSince 5 else s1.clearSince 5).notice false mask

/-- LEAN_EXIT: VBUS at or above 38 V for 10 ms leaves the automatic Lean: the state before it, interrupt 1,139, and the cut domains
have power again, held in reset (17 R448, R454). -/
def execLeanExit (s : State) : Result :=
  .next (if !s.flag .pwrstat Fld.pwrstatAuto || s.fld .pwrstat Fld.pwrstatState ≠ 2 || s.pwr.falling || !s.heldFor 6 10000000 then s
    else
      let ds := (List.range 61).filter (fun d => s.pwr.cutByAuto / 2 ^ d % 2 == 1)
      let s1 := { s with pwr := { s.pwr with cutByAuto := 0, dozing := s.pwr.back % 8 == 3 } }.pwrUnpack s.pwr.back
      (ds.foldl State.powerOn s1).raiseId 1139)

/-! ### Feeds and VBUS (17 R437-R439) -/

/-- The band of a voltage in 10 mV: 0 normal, 1 surge, 2 ride-through, 3 brown-out, 4 off. -/
def bandOf (v : Int) : Nat := if 7500 < v then 1 else if 3600 ≤ v then 0 else if 2400 ≤ v then 2 else if 900 ≤ v then 3 else 4

/-- A feed's new state: 0 good, 1 low, 2 over, 3 reversed; over after 100 ms above 75 V, until it is reconnected. -/
def State.feedState (s : State) (b : Bool) (v : Int) : Nat :=
  let k := if b then 1 else 0
  if s.pwr.feedOff.getLsbD k || (7500 < v && s.sinceAt k ≠ 0 && s.sinceAt k + 100000000 < s.mtime.toNat + 1) then 2
  else if v < -100 then 3 else if v < 2400 then 1 else 0

/-- A sample of one feed: a change of its state is recorded (17 R439). A second rise above 75 V within 10 s of the one before it
disconnects the feed at once (23 R543). -/
def State.sampleFeed (s : State) (b : Bool) (v : Int) : State :=
  let k := if b then 1 else 0
  let f := if b then Fld.pwrstatVinb else Fld.pwrstatVina
  let begins := decide (7500 < v) && s.sinceAt k == 0
  let again := begins && s.sinceAt (12 + k) ≠ 0 && s.mtime.toNat + 1 < s.sinceAt (12 + k) + 10000000000
  let s0 := if begins then (s.clearSince (12 + k)).markSince (12 + k) else s
  let s1 := s0.keepSince k (7500 < v)
  let st := if again then 2 else s1.feedState b v
  let s2 := s1.keepSince (2 + k) (v ≤ 7200)
  let s3 := if st = 2 then { s2 with pwr := { s2.pwr with feedOff := s2.pwr.feedOff ||| (1 <<< k) } } else s2
  if s.fld .pwrstat f = st then s3
  else ((s3.putFld .pwrstat f st).raiseId (1136 + k)).logEvent 0x7F0 clsRecovered 0 st

/-- The registers of hand-over records, which the sealed state keeps (15 R388). -/
def State.keepHands (s t : State) : State := (List.range 16).foldl (fun u n => u.wr (.horec n) (s.rd (.horec n))) t

/-- Everything but OTP and flash, the sealed state in it, comes back at reset (18 Table 2). -/
def State.cold (s : State) : State :=
  s.keepHands { State.reset with
    pending := s.pending, fresh := s.fresh, otp := s.otp
    st := { State.reset.st with flash := s.st.flash }
    trust := { State.reset.trust with keys := s.trust.keys, last := s.trust.last, owners := s.trust.owners, hands := s.trust.hands }
    test := { State.reset.test with repairs := s.test.repairs }
    vn := { State.reset.vn with outbox := s.vn.outbox } }

/-- Below 9 V the always-on domain stops (17 R438). -/
def State.powerLost (s : State) : State :=
  { s.cold with pwr := { State.reset.pwr with band := 4, candidate := 4, vina := s.pwr.vina, vinb := s.pwr.vinb, vbus := s.pwr.vbus } }

/-- VBUS enters a band. -/
def State.enterBand (s : State) (b : Nat) : State :=
  let s1 := { s with pwr := { s.pwr with band := b } }
  if b = 2 then (if s.clk.started then s1.autoLean false else s1)
  else if b = 3 then (if s.clk.started then s1.autoStandby true else s1.standbyNow)
  else if b = 4 then s1.powerLost
  else s1

/-- VBUS_SAMPLE: the feeds and VBUS in 0.1 V, with their trims; a band is entered when two successive samples lie in it. -/
def execVbusSample (vina vinb vbus : Int) (s : State) : Result :=
  .next (let a := vina * 10 + s.trimOf 0x140
    let b := vinb * 10 + s.trimOf 0x141
    let v := vbus * 10 + s.trimOf 0x142
    let s1 := { s with pwr := { s.pwr with vina := a / 10, vinb := b / 10, vbus := v / 10 } }
    let s2 := ((s1.sampleFeed false a).sampleFeed true b).putFld .pwrstat Fld.pwrstatVbus ((v / 10).toNat % 1024)
    let s3 := (s2.keepSince 4 (3600 ≤ v)).keepSince 6 (3800 ≤ v)
    let now := bandOf v
    let s4 := { s3 with pwr := { s3.pwr with candidate := now } }
    if now = s.pwr.candidate && now ≠ s.pwr.band then s4.enterBand now else s4)

/-- FEED_RECONNECT: a feed in the over state has stayed at or below 72 V for 10 ms. -/
def execFeedReconnect (b : Bool) (s : State) : Result :=
  .next (let k := if b then 1 else 0
    if !s.pwr.feedOff.getLsbD k || !s.heldFor (2 + k) 10000000 then s
    else
      let s1 := { s with pwr := { s.pwr with feedOff := s.pwr.feedOff &&& ~~~ ((1 : BitVec 2) <<< k) } }
      s1.sampleFeed b ((if b then s1.pwr.vinb else s1.pwr.vina) * 10))

/-! ### Phases and rails (17 R441-R445) -/

/-- Phases in service. -/
def State.phasesOn (s : State) : Nat := ((List.range 9).filter (fun p => s.phase p == 0)).length

/-- The spare phase takes the failed one's place; with none left, interrupt 1,141 (17 R442, R443). -/
def State.takePhase (s : State) : State :=
  match (List.range 9).find? (fun q => s.phase q == 1 || s.phase q == 2) with
  | some q => { s.setPhase q 0 with car := { s.car with retest := s.car.retest.filter (fun e => e != 50) } }.exhaust 50
  | none => s.raiseId 1141

/-- PHASE_FAILURE: the phase is isolated and retired, interrupt 1,140; the spare takes its place, its test abandoned. With no spare left
the budget falls, interrupt 1,141, and with 2 phases or fewer Standby follows. -/
def State.phaseFails (s : State) (p : Nat) : State :=
  if s.phase p = 3 then s
  else if s.phase p = 0 then
    let s1 := ((s.setPhase p 3).retire 50 p 0).raiseId 1140
    let s2 := s1.takePhase
    let s3 := s2.putFld .pwrstat Fld.pwrstatPhases s2.phasesOn
    if s3.phasesOn ≤ 2 then s3.autoStandby false else s3
  else
    let s1 := ((s.setPhase p 3).retire 50 p 0).raiseId 1140
    let s2 : State := { s1 with car := { s1.car with retest := s1.car.retest.filter (fun e => e != 50) } }
    s2.exhaust 50

def execPhaseFailure (p : Fin 9) (_why : PhaseFault) (s : State) : Result := .next (s.phaseFails p.val)

/-- A port whose PHY block loses its supply: its lands take their unpowered state (23 R544, Table 5). -/
def State.portUnsupplied (s : State) (n : Nat) : State := s.setPort n { s.port n with up := false, hiz := true, supply := false }

/-- POL_HALF_FAILURE: the first half of a rail is isolated, interrupt 1,142; with the second its domains lose power without notice, as in
an emergency cut (17 R445, R454). -/
def execPolHalfFailure (r : Fin 26) (s : State) : Result :=
  .next (if !s.bitIn .pwrph Fld.pwrphPolhalf r.val then
      ((s.putBit .pwrph Fld.pwrphPolhalf r.val true).raiseId 1142).logEvent 0x7F0 clsRecovered 0 r.val
    else if s.pwr.polHalf2 / 2 ^ r.val % 2 = 1 then s
    else
      let s1 := { s with pwr := { s.pwr with polHalf2 := s.pwr.polHalf2 + 2 ^ r.val } }
      let ds := (railDomains r.val).filter s1.powered
      let s2 := ((List.range 512).filter (fun n => (phyRails (s1.ifc n)).contains r.val)).foldl State.portUnsupplied s1
      if ds.isEmpty then s2 else (ds.foldl State.cutHard s2).lkoCause 8)

/-! ### Budget and temperature (17 R455, R456) -/

/-- The budget in force in mW: PWRBUD.BUDGET, in Lean 40 W, without a spare phase 17.25 W for each phase in service. -/
def State.budget (s : State) : Nat :=
  let b := s.fld .pwrbud Fld.pwrbudBudget * 1000
  let b1 := if s.fld .pwrstat Fld.pwrstatState = 2 then min b 40000 else b
  if s.scState 50 = scNoSpare && s.phasesOn < 8 then min b1 (s.phasesOn * 17250) else b1

/-- BUDGET_CHECK: the average of 100 µs. Throttlable clusters step down while it exceeds the budget, and up once per ms when it lies 5 W
below; 10 ms above with all at their lowest raises 1,143. Above what the phases in service carry for 1 ms, with no spare left, Lean. -/
def State.budgetCheck (s : State) (mw : Nat) : State :=
  let b := s.budget
  let cs := (List.range 16).filter s.throttlable
  let s0 := s.keepSince 9 (s.scState 50 = scNoSpare && s.phasesOn < 8 && s.phasesOn * 17250 < mw)
  let s1 := if s0.heldFor 9 1000000 then s0.autoLean false else s0
  if b < mw then
    let low := cs.all (fun c => s1.throttleOf c == 4)
    let s2 := (cs.foldl (fun t c => t.setThrottle c (t.throttleOf c + 1)) s1).keepSince 8 low
    if s2.heldFor 8 10000000 && !s2.pwr.budgetMiss then
      (({ s2 with pwr := { s2.pwr with budgetMiss := true } }).raiseId 1143).logEvent 0x7F0 clsContained 0 mw
    else s2
  else
    let s2 := { s1.clearSince 8 with pwr := { (s1.clearSince 8).pwr with budgetMiss := false } }
    if mw + 5000 ≤ b then
      let s3 := s2.markSince 7
      if s3.heldFor 7 1000000 then (cs.foldl (fun t c => t.setThrottle c (t.throttleOf c - 1)) s3).clearSince 7 |>.markSince 7 else s3
    else s2.clearSince 7

def execBudgetCheck (milliwatts : Nat) (s : State) : Result := .next (s.budgetCheck milliwatts)

/-- The power domain of a temperature sensor; none for the power stage. -/
def sensorDomain (n : Nat) : Option Nat := if n < 58 then some n else if n = 58 then some 60 else none

/-- TEMPERATURE_WARN: above TJWARN the cluster steps down, interrupt 1,144. -/
def execTemperatureWarn (sn : Sensor) (tenths : Int) (s : State) : Result :=
  .next (let t := tenths + s.trimOf (0x100 + sn.val)
    if t ≤ s.fld .pwrtemp Fld.pwrtempTjwarn * 10 then s
    else
      let s1 := if sn.val < 16 && s.throttlable sn.val then s.setThrottle sn.val (s.throttleOf sn.val + 1) else s
      s1.raiseId 1144)

/-- TEMPERATURE_CRITICAL: above TJCRIT the sensor's domain is cut as a thermal emergency; the power stage's makes the module Lean. -/
def execTemperatureCritical (sn : Sensor) (tenths : Int) (s : State) : Result :=
  .next (let t := tenths + s.trimOf (0x100 + sn.val)
    if t ≤ s.fld .pwrtemp Fld.pwrtempTjcrit * 10 then s
    else match sensorDomain sn.val with
      | none => s.autoLean true
      | some d =>
        if !s.powered d || s.lko.emergencies.any (fun e => e.2.1 / 2 ^ d % 2 == 1) then s else s.notice true (2 ^ d))

end Sys2Proof.Machine
end

