-- ==== Sys2Proof/Machine/Service.lean ====
section
/-! DEFINITION. Service slots and their commands: run-time claims, partitions and their run sets, endpoint resets (14 R368-R372). -/
namespace Sys2Proof.Machine

/-- SVRES: code, and for CONFLICT the first conflicting index with its holder. -/
def State.svDone (s : State) (k code : Nat) (at_ : Nat × Nat) : State :=
  s.wr (.svres k) (BitVec.ofNat 64 (at_.2 % 65536 * 2 ^ 32 + at_.1 % 4096 * 65536 + code))

/-- A command that fails changes nothing but SVRES. -/
def State.svFail (s : State) (k code : Nat) : State := s.svDone k code (0, 0)

/-- A command that completes. -/
def State.svOk (s : State) (k : Nat) : State := s.svDone k 0 (0, 0)

def State.svPid (s : State) (k : Nat) : Nat := s.fld (.svarg k) Fld.svargPid
def State.svIndex (s : State) (k : Nat) : Nat := s.fld (.svarg k) Fld.svargIndex
def State.ptState (s : State) (p : Nat) : Nat := s.fld (.ptent p) Fld.ptentState

/-! ### Claims at run time (02 R48, R49) -/

/-- The claim that SVARG of a slot names. -/
def State.svClaim (s : State) (k : Nat) : Claim :=
  ⟨s.fld (.svarg k) Fld.svargClass, s.svIndex k, s.fld (.svarg k) Fld.svargCount,
    s.fld (.svarg k) Fld.svargFeat * 256 + s.svPid k, false, 33⟩

/-- Whether a class or an index range is none that run time claims. -/
def Claim.badRange (c : Claim) : Bool := c.cls < 1 || 3 < c.cls || c.count == 0 || classSize c.cls < c.first + c.count

/-- Whether the owner's partition may hold claims: PID 0 and 255 always may. -/
def State.ownerDeclared (s : State) (p : Nat) : Bool := p == 0 || p == 255 || !s.undeclared p

/-- Replace the claims in force; RTOWN follows a claim of a land. -/
def State.putClaims (s : State) (land : Bool) (cs : List Claim) : State :=
  let s1 := { s with lay := { s.lay with claims := cs } }
  if land then s1.syncOwn else s1

/-- CLAIM. -/
def State.svcClaim (s : State) (k : Nat) : State :=
  let c := s.svClaim k
  if c.badRange then s.svFail k 0x22
  else if !s.ownerDeclared (s.svPid k) then s.svFail k 0x20
  else match conflictIn s.lay.claims c with
    | some x => s.svDone k 0x11 x
    | none => (s.putClaims (c.cls == 1) (s.lay.claims.filter (fun x => x != c) ++ [c])).svOk k

/-- What is left of a claim once the resources of `c` are taken from it. -/
def Claim.without (x c : Claim) : List Claim :=
  if x.image || x.cls != c.cls || x.owner != c.owner then [x]
  else
    let lo := { x with count := min (x.first + x.count) c.first - x.first }
    let from_ := max x.first (c.first + c.count)
    let hi := { x with
      first := from_
      count := x.first + x.count - from_ }
    [lo, hi].filter (fun y => y.count != 0)

/-- Whether a run-time claim with the same owner field holds every resource of `c`. -/
def heldAtRun (cs : List Claim) (c : Claim) : Bool :=
  (List.range c.count).all (fun i => cs.any (fun x => !x.image && x.owner == c.owner && x.covers c.cls (c.first + i)))

/-- RELEASE. -/
def State.svcRelease (s : State) (k : Nat) : State :=
  let c := s.svClaim k
  if c.badRange then s.svFail k 0x22
  else if !s.ownerDeclared (s.svPid k) then s.svFail k 0x20
  else if !heldAtRun s.lay.claims c then s.svFail k 0x23
  else if c.cls == 1 && (List.range c.count).any (fun i => s.portEn (c.first + i)) then s.svFail k 0x21
  else (s.putClaims (c.cls == 1) (s.lay.claims.flatMap (fun x => x.without c))).svOk k

/-! ### Partitions (14 R368-R371) -/

/-- The PART record a CREATE of `p` reads. -/
def State.partOf (s : State) (p : Nat) : Option Part := s.lay.parts.find? (fun x => x.pid == p)

/-- CREATE: the doorbell entries of the PID come back at reset, its endpoints are reset (14 R384), its accumulators
are cleared (21 R518). -/
def State.svcCreate (s : State) (k : Nat) : State :=
  let p := s.svPid k
  match s.partOf p with
  | none => s.svFail k (if s.undeclared p then 0x20 else 0x21)
  | some x =>
    if s.undeclared p then s.svFail k 0x20
    else if x.world && k < 128 then s.svFail k 0x24
    else if s.ptState p ≠ 1 then s.svFail k 0x21
    else
      let s1 := (List.range 16).foldl (fun t c =>
        ((t.epReset (c * 256 + p)).wr (.dbbits c p) (Reg.dbbits c p).reset).wr (.dbcfg c p) (Reg.dbcfg c p).reset)
        ((List.range 9).foldl (fun t i => t.wr (.talacc p i) 0) s)
      let s2 := { s1 with lay := { s1.lay with created := s1.lay.created.filter (fun (y : Part) => y.pid != p) ++ [x] } }
      (((s2.putFld (.ptent p) Fld.ptentState 2).putFld (.ptent p) Fld.ptentTol x.tol).putFlag (.ptent p) Fld.ptentWorld x.world).svOk k

/-- Set or clear a logical core in a run set, with NRUN. -/
def State.putRun (s : State) (p l : Nat) (b : Bool) : State :=
  let s1 := s.putBit (.ptcore p (l / 64)) Fld.ptcoreCores (l % 64) b
  s1.putFld (.ptent p) Fld.ptentNrun (lcores.filter (fun n => s1.inRunSet p n)).length

/-- START: CONFLICT while an armed delta changes the logical core (02 R44). -/
def State.svcStart (s : State) (k : Nat) : State :=
  let p := s.svPid k
  let l := s.svIndex k
  let mask := match s.lay.created.find? (fun x => x.pid == p) with
    | some x => x.mask
    | none => 0
  if s.undeclared p then s.svFail k 0x20
  else if s.ptState p ≠ 2 && s.ptState p ≠ 3 then s.svFail k 0x21
  else if 128 ≤ l || !mask.getLsbD l then s.svFail k 0x25
  else if s.armedCore l then s.svFail k 0x11
  else ((s.putRun p l true).putFld (.ptent p) Fld.ptentState 3).svOk k

/-- STOP. -/
def State.svcStop (s : State) (k : Nat) : State :=
  let p := s.svPid k
  let l := s.svIndex k
  if l < 128 && bitsOf ((s.lc l).creg 0x48) 7 0 = p then s.svFail k 0x21
  else if 128 ≤ l || !s.inRunSet p l then s.svFail k 0x25
  else
    let s1 := s.putRun p l false
    (if s1.fld (.ptent p) Fld.ptentNrun = 0 then s1.putFld (.ptent p) Fld.ptentState 2 else s1).svOk k

/-- R372 step 2: a queue pair is disabled, its descriptors in progress are finished (11 R309), and it has no partition. A transmit descriptor that
waits for its LAUNCH, or whose frame is under way, is given up (DESIGN CHOICE, log entry 178). -/
def State.dropQp (s : State) (g q : Nat) : State :=
  let s1 := (s.putFlag (.qpcfg g q) Fld.qpcfgEn false).qpStop g q
  let s2 := (s1.rxWrite g q).txLaunch g q
  let x := s2.group g
  (s2.setGroup g { x with txJob := KV.set none x.txJob q none, txHeld := x.txHeld.filter (fun e => e != q) }).putFld (.qpcfg g q) Fld.qpcfgPid 0

/-- R372 step 3 for one interrupt ID at one cluster. -/
def State.dropRoute (s : State) (p c id : Nat) : State :=
  let s1 := if s.fld (.ircfg c id) Fld.ircfgDel = 2 && s.fld (.ircfg c id) Fld.ircfgPid = p then
      ((s.putFld (.ircfg c id) Fld.ircfgDel 0).putFlag (.irstate c id) Fld.irstatePend false).putFlag (.irstate c id) Fld.irstateAct false
    else s
  if s1.fld (.irstate c id) Fld.irstateSendpid = p then
    (s1.putFld (.irstate c id) Fld.irstateSendpid 0).putFlag (.irstate c id) Fld.irstateAnysend false
  else s1

/-- The clusters and IDs of the routes that hold anything but their reset value. -/
def State.routesUsed (s : State) : List (Nat × Nat) :=
  s.regs.filterMap (fun e =>
    let o := (e.1 - 0x0900000000) % 0x100000
    if 0x0900000000 ≤ e.1 && e.1 < 0x0901000000 && 0x80000 ≤ o && o < 0x90000
    then some ((e.1 - 0x0900000000) / 0x100000, (o - 0x80000) / 16) else none)

/-- The positions, queue pairs and mailboxes of R372. -/
def positionsAll : List (Nat × Nat) := (List.range 128).map (fun n => (n / 4, n % 4))
def queuePairsAll : List (Nat × Nat) := (List.range 4096).map (fun n => (n / 128, n % 128))

/-- The effects of DESTROY, in the order of R372. -/
def State.destroyAll (s : State) (p : Nat) : State :=
  let s1 := (positionsAll.filter (fun e => s.fld (.jctl e.1 e.2) Fld.jctlOwner % 256 == p)).foldl
    (fun t e => (t.putFlag (.jctl e.1 e.2) Fld.jctlRun false).haltPosition e.1 e.2) s
  let s2 := (queuePairsAll.filter (fun e => s1.qpPid e.1 e.2 == p)).foldl (fun t e => t.dropQp e.1 e.2) s1
  let s3 := s2.routesUsed.foldl (fun t e => t.dropRoute p e.1 e.2) s2
  let s4 := (List.range 16).foldl (fun t c => t.epReset (c * 256 + p)) s3
  let names := fun (e : Nat) => e < 0x1000 && e % 256 == p
  let s5 := ((List.range 1023).filter (fun m => names (s4.mbSep m) || names (s4.mbRep m))).foldl
    (fun t m => t.putFlag (.mbcfg m) Fld.mbcfgEn false) s4
  s5.putClaims true (s5.lay.claims.filter (fun c => c.image || c.owner % 256 != p))

/-- DESTROY: it ends in DECLARED, or UNDECLARED where no PART record in force names the partition. -/
def State.svcDestroy (s : State) (k : Nat) : State :=
  let p := s.svPid k
  if s.undeclared p then s.svFail k 0x20
  else if s.ptState p ≠ 2 then s.svFail k 0x21
  else
    let s1 := s.destroyAll p
    let s2 := { s1 with lay := { s1.lay with created := s1.lay.created.filter (fun y => y.pid != p) } }
    let s3 := (s2.putFld (.ptent p) Fld.ptentTol 0).putFld (.ptent p) Fld.ptentNrun 0
    let s4 := match s3.partOf p with
      | some x => (s3.putFld (.ptent p) Fld.ptentState 1).putFlag (.ptent p) Fld.ptentWorld x.world
      | none => s3.wr (.ptent p) 0
    s4.svOk k

/-- EPRESET. -/
def State.svcEpreset (s : State) (k : Nat) : State :=
  let e := s.svIndex k
  if epLookout < e || (e < 0x1000 && e % 256 = 255) then s.svFail k 0x22 else (s.epReset e).svOk k

/-! ### The slots (14 R370) -/

/-- Slots 0-127 serve PID 0, slot 128 PID 255. -/
def slotServes (r : Req) (k : Nat) : Bool := if k = 128 then r.pid == 255 else r.pid == 0

/-- A command written to SVCMD of a slot; BUSY while the partition that it names is being destroyed (14 R371). -/
def State.service (s : State) (r : Req) (k cmd : Nat) (f : State → Nat → State) : State :=
  if !slotServes r k then s.refuse r 0x700 (Reg.svcmd k).addr cmd
  else if s.flag (.svres k) Fld.svresBusy then s.reject r (.svcmd k)
  else if cmd ≠ 7 && s.ptState (s.svPid k) = 4 then (s.wr (.svcmd k) (keyedPair cmd)).svFail k 1
  else f (s.wr (.svcmd k) (keyedPair cmd)) k

/-- The effect of each command. -/
def State.slotAct (s : State) (r : Req) (k : Nat) : SvcCmd → State
  | .claim => s.service r k 1 State.svcClaim
  | .release => s.service r k 2 State.svcRelease
  | .create => s.service r k 3 State.svcCreate
  | .start => s.service r k 4 State.svcStart
  | .stop => s.service r k 5 State.svcStop
  | .destroy => s.service r k 6 State.svcDestroy
  | .epreset => s.service r k 7 State.svcEpreset

/-- The place of a command among those of one cycle: its rank (02 Table 10), in a rank the claims by SVARG.PID and slot, then the others by
slot. -/
def State.slotRank (s : State) (x : SvcMeet) : Nat :=
  let k := x.k.val
  let p := s.svPid k
  let claim := x.cmd == .claim
  let rank := if k = 128 then 2 else if claim && 1 ≤ p && p ≤ 254 then 5 else 4
  rank * 2 ^ 20 + (if claim then p * 256 else 2 ^ 18) + k

/-- An item put in its place among ordered ones, after those of equal rank. -/
def insertRank {α : Type} (rank : α → Nat) (e : α) : List α → List α
  | [] => [e]
  | x :: xs => if rank e < rank x then e :: x :: xs else x :: insertRank rank e xs

/-- A list in the order of its items' ranks. -/
def byRank {α : Type} (rank : α → Nat) (es : List α) : List α := es.foldl (fun l e => insertRank rank e l) []

/-- The commands of one cycle, each on the state that the earlier ones leave (14 R370). -/
def State.slotCycle (s : State) (xs : List SvcMeet) : State :=
  (byRank s.slotRank xs).foldl (fun t x => t.slotAct x.r x.k.val x.cmd) s

def execClaim (r : Req) (c : SvcCall) (s : State) : Result := .next (s.slotCycle (⟨r, c.k, .claim⟩ :: c.meets))
def execRelease (r : Req) (c : SvcCall) (s : State) : Result := .next (s.slotCycle (⟨r, c.k, .release⟩ :: c.meets))
def execCreate (r : Req) (c : SvcCall) (s : State) : Result := .next (s.slotCycle (⟨r, c.k, .create⟩ :: c.meets))
def execStart (r : Req) (c : SvcCall) (s : State) : Result := .next (s.slotCycle (⟨r, c.k, .start⟩ :: c.meets))
def execStop (r : Req) (c : SvcCall) (s : State) : Result := .next (s.slotCycle (⟨r, c.k, .stop⟩ :: c.meets))
def execDestroy (r : Req) (c : SvcCall) (s : State) : Result := .next (s.slotCycle (⟨r, c.k, .destroy⟩ :: c.meets))
def execEpreset (r : Req) (c : SvcCall) (s : State) : Result := .next (s.slotCycle (⟨r, c.k, .epreset⟩ :: c.meets))

/-! ### Events that meet at a mailbox (14 R380) -/

/-- The place of an event among those of one cycle: endpoint resets, a take, the expiry of MBTO, sends by logical-core number; a send of another
requester comes after those of the cores. -/
def meetRank : MbMeet → Nat
  | .reset _ => 0
  | .take _ => 1
  | .expiry => 2
  | .send r => match r.lcore with
    | some l => 3 + l.val
    | none => 131

/-- One event at a mailbox. -/
def State.mbEvent (s : State) (m : Nat) : MbMeet → State
  | .reset x => s.slotAct x.r x.k.val x.cmd
  | .take r => if s.poolAnswers then (s.loadTake r m).1 else s
  | .expiry => s.mbExpire m
  | .send r => if s.poolAnswers then (s.loadSend r m).1 else s

/-- The events of one cycle at a mailbox, each on the state that the earlier ones leave. -/
def State.mbCycle (s : State) (m : Nat) (es : List MbMeet) : State :=
  (byRank meetRank es).foldl (fun t e => t.mbEvent m e) s

/-- MBSEND, with the events that meet it in its cycle. -/
def execMbsend (r : Req) (c : MbCall) (s : State) : Result := .next (s.mbCycle c.m.val (.send r :: c.meets))

/-- A write of SVCMD as a register. -/
def State.writeSvcmd (s : State) (r : Req) (k n : Nat) (v : W64) : State :=
  if !slotServes r k then s.refuse r 0x700 (Reg.svcmd k).addr 0
  else if !keyedOk (.svcmd k) n v then s.reject r (.svcmd k)
  else s.slotAct r k (match bitsOf v 7 0 with
    | 1 => .claim
    | 2 => .release
    | 3 => .create
    | 4 => .start
    | 5 => .stop
    | 6 => .destroy
    | _ => .epreset)

end Sys2Proof.Machine
end

