-- ==== Sys2Proof/Machine/TrustSvc.lean ====
section
/-! DEFINITION. Trust services (15 R389-R393): the pairs, requests and answers, buffers, the key store, the TRNG. -/
namespace Sys2Proof.Machine

/-- The identity of the Trust Core's own requests (15 R387). -/
def trustReq : Req := ⟨255, true, 0x700, none⟩

/-! ### Pairs, requests and answers (15 R389, R390) -/

/-- Whether mailboxes 2k and 2k + 1 form a trust mailbox pair. -/
def State.pairFormed (s : State) (k : Nat) : Bool :=
  s.mbEn (2 * k) && s.mbRep (2 * k) == epTrust && s.mbEn (2 * k + 1) && s.mbSep (2 * k + 1) == epTrust
    && s.mbRep (2 * k + 1) == s.mbSep (2 * k)

/-- A request on a mailbox that is none of a pair is taken, discarded and logged. -/
def State.discardAt (s : State) (m : Nat) : State :=
  if s.mbFull m && s.mbRep m == epTrust then (s.mbTakeNow m).1.log 0x700 clsContained (s.mbSep m % 256) false (0x0C00100000 + m * 256) 0 else s

/-- The mailboxes of pair k's turn that hold no request of the pair; 1,022 in the turn of the last pair. -/
def State.discardOthers (s : State) (k : Nat) : State :=
  let s1 := if s.pairFormed k then s else s.discardAt (2 * k)
  let s2 := if s.pairFormed k then s1 else s1.discardAt (2 * k + 1)
  if k = 510 then s2.discardAt 1022 else s2

/-- The message bytes of a mailbox, as long as its LEN says. -/
def State.mbMessage (s : State) (m : Nat) : List Byte :=
  padTo 192 0 (KV.getAll 0 s.st.mbdata (m * 256 + 0x40) (min 192 (s.fld (.mbstat m) Fld.mbstatLen)))

/-- Place an answer in mailbox 2k + 1 and send it. -/
def State.answer (s : State) (k : Nat) (bs : List Byte) : State :=
  ({ s with st := { s.st with mbdata := KV.setAll 0 s.st.mbdata ((2 * k + 1) * 256 + 0x40) (padTo 192 0 bs) } }.mbSendNow (2 * k + 1)).1

/-- An answer's bytes: it echoes SVC and TAG (15 Table 1). -/
def answerBytes (svc tag status : Nat) (results : List Byte) : List Byte :=
  padTo 192 0 (toBytes 2 svc ++ toBytes 2 status ++ toBytes 4 tag ++ results)

/-- A request as a service sees it: the pair, the caller and its arguments. -/
structure Call where
  k    : Nat
  svc  : Nat
  tag  : Nat
  pid  : Nat
  args : Config.TrustArgs
deriving DecidableEq, Repr

/-- How a service ends. -/
inductive Done where
  /-- The answer: the state, STATUS and the results. -/
  | reply (s : State) (status : Nat) (results : List Byte)
  /-- The answer follows later. -/
  | later (s : State)
deriving DecidableEq, Repr

/-- Whether a service changes state, so that its answer is recorded (15 R392). -/
def svcRecorded (svc : Nat) : Bool := svc == 4 || svc == 9 || svc == 0xA || svc == 0xB

/-- Record an answer in the sealed state. -/
def State.recordAnswer (s : State) (k svc tag : Nat) (bs : List Byte) : State :=
  if svcRecorded svc then
    { s with trust := { s.trust with
      last := KV.set (false, [], []) s.trust.last k (false, toBytes 2 svc ++ toBytes 4 tag, bs)
      gen := s.trust.gen + 1 } }
  else s

/-- The answer that a restart has left for a request with the same SVC and TAG. -/
def State.recorded (s : State) (k svc tag : Nat) : Option (List Byte) :=
  let e := KV.get (false, [], []) s.trust.last k
  if svcRecorded svc && e.1 && e.2.1 == toBytes 2 svc ++ toBytes 4 tag then some e.2.2 else none

/-- One turn of pair k: the request is taken, served and answered. Other SVC values and set reserved bits end with BAD_ARG; a request for
another service waits for that service. -/
def State.serveTrust (s : State) (k svc : Nat) (f : State → Call → Done) : State :=
  let s0 := s.discardOthers k
  let req := s0.mbMessage (2 * k)
  let v := imgU req 0 2
  let tag := imgU req 4 4
  if !s.trustUp || s.trustAway then s
  else if !s0.pairFormed k || !s0.mbFull (2 * k) || s0.mbFull (2 * k + 1) || (v ≠ svc && 1 ≤ v && v ≤ 0xB) then s0
  else
    let s1 := (s0.mbTakeNow (2 * k)).1
    if v ≠ svc || imgU req 2 2 ≠ 0 then s1.answer k (answerBytes v tag 2 [])
    else match s1.recorded k svc tag with
      | some bs => s1.answer k bs
      | none =>
        let c : Call := ⟨k, svc, tag, (epPid (s0.mbSep (2 * k))).getD 0, Config.trustArgs svc (req.drop 8)⟩
        if !c.args.ok then s1.answer k (answerBytes svc tag 2 [])
        else match f s1 c with
          | .reply t status results =>
            let bs := answerBytes svc tag status results
            (t.recordAnswer k svc tag bs).answer k bs
          | .later t => t

/-! ### Buffers (15 R391) -/

/-- A buffer lies in the pair's window. -/
def State.bufFits (s : State) (k : Nat) (b : Nat × Nat) : Bool := b.1 + b.2 ≤ s.fld (.tswin k) Fld.tswinSize * 4096

/-- The physical address of an offset. -/
def State.bufAddr (s : State) (k : Nat) (b : Nat × Nat) : Nat := s.fld (.tswin k) Fld.tswinBase * 4096 + b.1

/-- Whether every page of a buffer gives the caller R or W. -/
def State.bufAllowed (s : State) (c : Call) (write : Bool) (b : Nat × Nat) : Bool :=
  let a := s.bufAddr c.k b
  b.2 == 0 || (List.range ((a + b.2 - 1) / 4096 - a / 4096 + 1)).all (fun i =>
    let p := (a / 4096 + i) * 4096
    p < 0x80000000 && s.tablesAllow [] (homeOf (p / 64)) c.pid (s.pidWorld c.pid) (!write) write p)

/-- The bytes of a buffer. -/
def State.bufRead (s : State) (c : Call) (b : Nat × Nat) : State × List Byte × Bool :=
  let r := s.ioReadN 0x700 255 true (s.bufAddr c.k b) b.2
  (r.1, r.2.1, r.2.2.isNone)

def State.bufWrite (s : State) (c : Call) (b : Nat × Nat) (bs : List Byte) : State :=
  (s.ioWriteN 0x700 255 true (s.bufAddr c.k b) (bs.take b.2)).1

/-- A service with input and output buffers: lengths beyond the window give BAD_ARG, a page without the right BUFFER_DENIED, before any
byte is written; so does a byte that memory does not give (a reading of R391). -/
def State.withBufs (s : State) (c : Call) (ins outs : List (Nat × Nat)) (f : State → List (List Byte) → Done) : Done :=
  if !(ins ++ outs).all (s.bufFits c.k) then .reply s 2 []
  else if !ins.all (s.bufAllowed c false) || !outs.all (s.bufAllowed c true) then .reply s 4 []
  else
    let r := ins.foldl (fun (a : State × List (List Byte) × Bool) b =>
      let x := a.1.bufRead c b
      (x.1, a.2.1 ++ [x.2.1], a.2.2 && x.2.2)) (s, [], true)
    if r.2.2 then f r.1 r.2.1 else .reply r.1 4 []

/-! ### Free bytes, keys -/

/-- `n` bytes of the DRBG, each a free value. -/
def State.freeBytes (s : State) : Nat → State × List Byte
  | 0 => (s, [])
  | n + 1 =>
    let v := s.takeFree
    let r := v.2.freeBytes n
    (r.1, BitVec.ofNat 8 v.1.toNat :: r.2)

/-- The free key slots. -/
def State.keySlots (s : State) : List Nat := (List.range 512).filter (fun h => (KV.get none s.trust.keys h).isNone)

/-- Put a key in a free slot: which one, the handle, is a free value. -/
def State.newKey (s : State) (key : Key) : Option (State × Nat) :=
  match s.keySlots with
  | [] => none
  | x :: xs =>
    let v := s.takeFree
    let h := (x :: xs).getD (v.1.toNat % (xs.length + 1)) x
    some ({ v.2 with trust := { v.2.trust with keys := KV.set none v.2.trust.keys h (some key) } }, h)

/-- A key that a request names: NO_KEY, DENIED for another's key or a use outside its usage bits. -/
def State.useKey (s : State) (c : Call) (use : Nat) (algs : List Nat) (f : Key → Done) : Done :=
  match KV.get none s.trust.keys c.args.handle with
  | none => .reply s 3 []
  | some key =>
    if key.owner ≠ c.pid || key.usage / 2 ^ use % 2 = 0 then .reply s 1 []
    else if !algs.contains key.alg then .reply s 2 []
    else f key

/-! ### Services (15 Table 3) -/

/-- INFO: epoch, life-cycle state, stored counter. -/
def svcInfo (s : State) (c : Call) : Done :=
  .reply s 0 (Config.trustResults c.svc [s.fld .tsstat Fld.tsstatEpoch, s.lifeCycle, s.otp.counter] [])

def execInfo (k : Fin 511) (s : State) : Result := .next (s.serveTrust k.val 1 svcInfo)

/-- RANDOM: 1-160 bytes; BAD_ARG while the source's health has failed. -/
def svcRandom (s : State) (c : Call) : Done :=
  if c.args.count = 0 || 160 < c.args.count || !s.trust.trngOk then .reply s 2 []
  else
    let r := s.freeBytes c.args.count
    .reply r.1 0 (Config.trustResults c.svc [] r.2)

def execRandom (k : Fin 511) (s : State) : Result := .next (s.serveTrust k.val 2 svcRandom)

/-- HASH: a buffer of up to 16 MiB. -/
def svcHash (s : State) (c : Call) : Done :=
  if 5 < c.args.alg || 0x1000000 < c.args.a.2 then .reply s 2 []
  else s.withBufs c [c.args.a] [] (fun t bs => .reply t 0 (Config.trustResults c.svc [] (Config.digest c.args.alg (bs.headD []))))

def execHash (k : Fin 511) (s : State) : Result := .next (s.serveTrust k.val 3 svcHash)

/-- KEYGEN: a key of the caller. -/
def svcKeygen (s : State) (c : Call) : Done :=
  if 4 < c.args.alg || !s.trust.trngOk then .reply s 2 []
  else
    let v := s.takeFree
    match v.2.newKey ⟨c.args.alg, c.args.usage.toNat, c.pid, v.1.toNat⟩ with
    | none => .reply s 7 []
    | some (t, h) =>
      .reply t 0 (Config.trustResults c.svc [h] (if c.args.alg = 0 then [] else Config.publicKey c.args.alg v.1.toNat))

def execKeygen (k : Fin 511) (s : State) : Result := .next (s.serveTrust k.val 4 svcKeygen)

/-- SEAL: AAD in `a`, input in `b`, output in `c`; the tag is the result. -/
def svcSeal (s : State) (c : Call) : Done :=
  s.useKey c 0 [0] (fun key =>
    if c.args.b.2 ≠ c.args.c.2 then .reply s 2 []
    else s.withBufs c [c.args.a, c.args.b] [c.args.c] (fun t bs =>
      let x := Config.gcmSeal key.value c.args.nonce (bs.headD []) ((bs.drop 1).headD [])
      .reply (t.bufWrite c c.args.c x.1) 0 (Config.trustResults c.svc [] x.2)))

def execSeal (k : Fin 511) (s : State) : Result := .next (s.serveTrust k.val 5 svcSeal)

/-- OPEN: when the tag fails, the output is overwritten with zeros. -/
def svcOpen (s : State) (c : Call) : Done :=
  s.useKey c 0 [0] (fun key =>
    if c.args.b.2 ≠ c.args.c.2 then .reply s 2 []
    else s.withBufs c [c.args.a, c.args.b] [c.args.c] (fun t bs =>
      match Config.gcmOpen key.value c.args.nonce (bs.headD []) ((bs.drop 1).headD []) c.args.tag with
      | some out => .reply (t.bufWrite c c.args.c out) 0 []
      | none => .reply (t.bufWrite c c.args.c (List.replicate c.args.c.2 0)) 6 []))

def execOpenSvc (k : Fin 511) (s : State) : Result := .next (s.serveTrust k.val 6 svcOpen)

/-- SIGN: the message in `a`. -/
def svcSign (s : State) (c : Call) : Done :=
  s.useKey c 1 [1, 2, 4] (fun key =>
    s.withBufs c [c.args.a] [] (fun t bs =>
      let v := t.takeFree
      .reply v.2 0 (Config.trustResults c.svc [] (Config.signature key.alg key.value (bs.headD []) v.1.toNat))))

def execSign (k : Fin 511) (s : State) : Result := .next (s.serveTrust k.val 7 svcSign)

/-- VERIFY: the message in `a`, the signature in `b`, a public key in `c` when no handle names one. -/
def svcVerify (s : State) (c : Call) : Done :=
  let check := fun (t : State) (alg : Nat) (pk m g : List Byte) =>
    if Config.verifies alg pk m g then Done.reply t 0 [] else Done.reply t 6 []
  if c.args.pub then
    if c.args.alg ≠ 1 && c.args.alg ≠ 2 && c.args.alg ≠ 4 then .reply s 2 []
    else s.withBufs c [c.args.a, c.args.b, c.args.c] [] (fun t bs =>
      check t c.args.alg ((bs.drop 2).headD []) (bs.headD []) ((bs.drop 1).headD []))
  else
    s.useKey c 2 [1, 2, 4] (fun key =>
      s.withBufs c [c.args.a, c.args.b] [] (fun t bs =>
        check t key.alg (Config.publicKey key.alg key.value) (bs.headD []) ((bs.drop 1).headD [])))

def execVerify (k : Fin 511) (s : State) : Result := .next (s.serveTrust k.val 8 svcVerify)

/-- DECAPS: the ciphertext in `a`; the shared secret becomes a key of the caller. -/
def svcDecaps (s : State) (c : Call) : Done :=
  s.useKey c 3 [3] (fun key =>
    s.withBufs c [c.args.a] [] (fun t bs =>
      match Config.decapsulate key.value (bs.headD []) with
      | none => .reply t 6 []
      | some v =>
        match t.newKey ⟨0, Config.sharedUsage.toNat, c.pid, v⟩ with
        | none => .reply t 7 []
        | some (u, h) => .reply u 0 (Config.trustResults c.svc [h] [])))

def execDecaps (k : Fin 511) (s : State) : Result := .next (s.serveTrust k.val 9 svcDecaps)

/-- KEYDEL. -/
def svcKeydel (s : State) (c : Call) : Done :=
  match KV.get none s.trust.keys c.args.handle with
  | none => .reply s 3 []
  | some key =>
    if key.owner ≠ c.pid then .reply s 1 []
    else .reply { s with trust := { s.trust with keys := KV.set none s.trust.keys c.args.handle none } } 0 []

def execKeydel (k : Fin 511) (s : State) : Result := .next (s.serveTrust k.val 0xA svcKeydel)

/-! ### The TRNG (15 R392) -/

/-- TRNG_HEALTH_FAIL: an entry of class contained is written. -/
def execTrngHealthFail (s : State) : Result :=
  .next ({ s with trust := { s.trust with trngOk := false } }.logEvent 0x700 clsContained 0 0)

def execTrngHealthRecovered (s : State) : Result := .next { s with trust := { s.trust with trngOk := true } }

end Sys2Proof.Machine
end

