-- ==== Sys2Proof/Machine/Hand.lean ====
section
/-! DEFINITION. Hand-over of blocks between partitions and worlds (15 R402, R403, Tables 4-6, HOREC) and the ownership of the domains that
hold them (15 R404). -/
namespace Sys2Proof.Machine

/-- Whether KIND and BLOCK name a block (15 Table 5). -/
def blockOk (kind block : Nat) : Bool :=
  match kind with
  | 1 => block < 64
  | 2 => block < 512
  | 3 => block < 128
  | 4 => block < 4096
  | 5 => block < 128
  | 6 => block < 1023
  | _ => false

/-- The key of a block in the owner records. -/
def blockKey (kind block : Nat) : Nat := kind * 65536 + block

/-- The owner of a block: as the last hand-over set it, else as the SECURITY section in force states. -/
def State.ownerOf (s : State) (kind block : Nat) : Nat × Bool :=
  match KV.get none s.trust.owners (blockKey kind block) with
  | some o => o
  | none =>
    let o := Config.securityOwner (match s.lay.active.find? (fun x => x.type == 9) with
      | some x => x.body
      | none => []) kind block
    (o.1.toNat, o.2)

/-! ### HOREC -/

/-- The fields of record n. -/
def State.hoKind (s : State) (n : Nat) : Nat := s.fld (.horec n) Fld.horecKind
def State.hoBlock (s : State) (n : Nat) : Nat := s.fld (.horec n) Fld.horecBlock
def State.hoState (s : State) (n : Nat) : Nat := s.fld (.horec n) Fld.horecState
def State.setHo (s : State) (n st : Nat) : State := s.putFld (.horec n) Fld.horecState st

/-- States of a record. -/
def hoReleasing : Nat := 1
def hoReset : Nat := 2
def hoGranted : Nat := 3

/-- The record of a new hand-over. -/
def State.openHo (s : State) (n kind block : Nat) (old : Nat × Bool) (pid : Nat) (world : Bool) : State :=
  s.wr (.horec n) (BitVec.ofNat 64 (pid % 256 * 2 ^ 56 + (if world then 2 ^ 55 else 0) + old.1 % 256 * 2 ^ 40
    + (if old.2 then 2 ^ 39 else 0) + kind * 2 ^ 32 + block * 256 + hoReleasing))

/-! ### Memory regions -/

/-- Write the attributes of region r in the staged tables of the 8 memory units, and APPLY them (15 R399). -/
def State.stageRegion (s : State) (r : Nat) (f : Nat → Nat) : State :=
  ((List.range 8).foldl (fun t u =>
    let rg := Reg.fwratt u r
    t.writeFwTable trustReq rg u 8 (keyedPair (f (bitsOf (t.stagedAt rg) 31 0)))) s).writeFwcmd trustReq 0 8 (keyedPair 0x101)

/-- CLASS 63, the closed class. -/
def closeAtt (a : Nat) : Nat := a / 64 * 64 + 63

/-- The new class and world of a region. -/
def openAtt (cls : Nat) (world : Bool) (a : Nat) : Nat := a / 4096 * 4096 + (if world then 2048 else 0) + a / 64 % 32 * 64 + cls % 64

/-- Whether the last switch of the memory units is done, its 2 µs over. -/
def State.fwSettled (s : State) : Bool :=
  !s.flag (.fwstat 0) Fld.fwstatPend && (match KV.get ([], 0) s.fw.old 0 with
    | (o, t) => o.isEmpty || t.toNat + 2000 ≤ s.mtime.toNat)

/-- The class of region r in the active tables. -/
def State.regionClass (s : State) (r : Nat) : Nat := s.fld (.fwratt 0 r) Fld.fwrattClass

/-- The lines of a range of pages that hold anything but zeros with valid check bits, in memory, in their second copy or in a cache. -/
def State.usedLines (s : State) (lo hi : Nat) : List Nat :=
  (((s.st.main.map (fun (e : Nat × Byte) => e.1 / 64) ++ s.st.syn.map (fun (e : Nat × BitVec 8) => e.1 / 8)
    ++ s.lines.map (fun (e : Nat × Line) => e.2.line) ++ s.leaving.map (fun (e : Leaving) => e.line)).flatMap
      (fun (n : Nat) => if 2 ^ 24 ≤ n then [n, n - 2 ^ 24] else [n])).filter (fun (n : Nat) => lo ≤ n / 64 && n / 64 ≤ hi && n < 0x2000000)).eraseDups

/-- Every line of region r is written with zeros; the writes remove every cached copy. -/
def State.zeroRegion (s : State) (r : Nat) : State :=
  (s.usedLines (s.fld (.fwrlo 0 r) Fld.fwrloLo) (s.fld (.fwrhi 0 r) Fld.fwrhiHi)).foldl
    (fun t n => (t.ioWriteN 0x700 255 true (n * 64) (List.replicate 64 0)).1) s

/-! ### RELEASING and RESET (15 Table 6) -/

/-- A land's resource leaves every claim. -/
def State.freeLand (s : State) (n : Nat) : State :=
  s.putClaims true (s.lay.claims.flatMap (fun (x : Claim) =>
    if x.covers 1 n then
      [{ x with count := n - x.first },
       { x with
          first := n + 1
          count := x.first + x.count - (n + 1) }].filter (fun (y : Claim) => y.count != 0)
    else [x]))

/-- A port's block at its reset values. -/
def State.resetPortBlock (s : State) (n : Nat) : State :=
  let b := 0x0800200000 + n / 16 * 0x1000000 + n % 16 * 0x10000
  (s.resetRange b (b + 0x10000) (fun _ => false)).setPort n Port.reset

/-- Both banks of a position and its landing rings hold zeros. -/
def State.zeroPosition (s : State) (g p : Nat) : State :=
  let s1 := (List.range 4).foldl (fun t l =>
    let r := Reg.jland g p l
    let n := g * 16 + 4 * p + l
    (t.posWrite g p (t.fld r Fld.jlandBase) (List.replicate (t.fld r Fld.jlandCount * t.fld r Fld.jlandSize) 0)).setPort n
      { t.port n with landing := Landing.reset }) s
  [false, true].foldl (fun t b => [false, true].foldl (fun t h =>
    let k := storeAddr g p b h 0
    { t with st := { t.st with jstore := outside t.st.jstore k 65536, jstoreSyn := outside t.st.jstoreSyn (k / 8) 8192 } }) t) s1

/-- A queue pair's registers at their reset values. -/
def State.resetQp (s : State) (g q : Nat) : State :=
  let rs := [Reg.qpcfg g q, .qprxr g q, .qptxr g q, .qpwin g q, .qprxt g q, .qptxt g q, .qpictl g q]
  let s1 := rs.foldl (fun t r => t.wr r r.reset) s
  s1.setGroup g { s1.group g with
    rxJob := KV.set [] (s1.group g).rxJob q []
    txJob := KV.set none (s1.group g).txJob q none
    txHeld := (s1.group g).txHeld.filter (fun e => e != q) }

/-- A logical core's LMEM, L1s, predictor, TLBs and registers. -/
def State.scrubCore (s : State) (l : Nat) : State :=
  let s1 := (s.emptyL1D l).emptyL1I l
  let s2 := { s1 with st := { s1.st with
    lmem := KV.keep (fun a => a / 65536 != l) s1.st.lmem
    lmemSyn := KV.keep (fun w => w / 8192 != l) s1.st.lmemSyn } }
  s2.setLc l { s2.lc l with g := [], f := [], inflight := [], pred := Pred.reset, ftlb := [], dtlb := [], stlb := [] }

/-- A mailbox's registers at their reset values, its data zero. -/
def State.resetMailbox (s : State) (m : Nat) : State :=
  let rs := [Reg.mbcfg m, .mbpool m, .mbbell m, .mbsctl m, .mbstat m]
  let s1 := rs.foldl (fun t r => t.wr r r.reset) s
  { s1 with st := { s1.st with mbdata := outside s1.st.mbdata (m * 256) 256 } }

/-- The RELEASING steps of a block; those of a region end with its switch. -/
def State.releaseBlock (s : State) (kind block : Nat) : State :=
  match kind with
  | 1 => s.stageRegion block closeAtt
  | 2 => (s.setEn block false).freeLand block
  | 3 => (s.putFlag (.jctl (block / 4) (block % 4)) Fld.jctlRun false).haltPosition (block / 4) (block % 4)
  | 4 => s.dropQp (block / 128) (block % 128)
  | 5 => s
  | _ =>
    let s1 := s.putFlag (.mbcfg block) Fld.mbcfgEn false
    if s1.mbFull block then s1.mbEnd block 2 else s1

/-- The RESET steps of a block. -/
def State.resetBlock (s : State) (kind block : Nat) : State :=
  match kind with
  | 1 => s.zeroRegion block
  | 2 => s.resetPortBlock block
  | 3 => s.zeroPosition (block / 4) (block % 4)
  | 4 => s.resetQp (block / 128) (block % 128)
  | 5 => s.scrubCore block
  | _ => s.resetMailbox block

/-! ### HANDOVER (15 R402) -/

/-- The first free record. -/
def State.freeHo (s : State) : Option Nat := (List.range 16).find? (fun n => s.hoState n == 0)

/-- Whether a block is in a hand-over. -/
def State.inHandover (s : State) (kind block : Nat) : Bool :=
  (List.range 16).any (fun n => s.hoState n != 0 && s.hoKind n == kind && s.hoBlock n == block)

/-- HANDOVER. -/
def svcHandover (s : State) (c : Call) : Done :=
  let kind := c.args.kind
  let block := c.args.block
  if !blockOk kind block || (kind = 1 && (62 < c.args.toClass || !s.member [] 0 c.args.toPid.toNat c.args.toClass)) then .reply s 2 []
  else
    let old := s.ownerOf kind block
    if !(c.pid == 0 && !old.2) && c.pid != old.1 then .reply s 1 []
    else if s.inHandover kind block || (kind = 5 && s.inAnyRunSet block) then .reply s 5 []
    else match s.freeHo with
      | none => .reply s 5 []
      | some n =>
        let s1 := { s with trust := { s.trust with hands := s.trust.hands ++ [(⟨n, c.k, c.tag, c.args.toClass⟩ : Hand)], gen := s.trust.gen + 1 } }
        let s2 := (s1.openHo n kind block old c.args.toPid.toNat c.args.toWorld).releaseBlock kind block
        .later (if kind = 1 then s2 else (s2.setHo n hoReset).resetBlock kind block)

def execHandover (k : Fin 511) (s : State) : Result := .next (s.serveTrust k.val 0xB svcHandover)

/-! ### GRANTED (15 R403) -/

/-- An owner field of a partition: its feature code is a free value. -/
def State.ownerField (s : State) (pid : Nat) : State × Nat :=
  let v := s.takeFree
  (v.2, v.1.toNat % 256 * 256 + pid)

/-- The owner fields of the new owner. -/
def State.grantBlock (s : State) (kind block pid : Nat) (world : Bool) (cls : Nat) : State :=
  match kind with
  | 1 => s.stageRegion block (openAtt cls world)
  | 2 =>
    let o := s.ownerField pid
    o.1.putClaims true (o.1.lay.claims ++ [⟨1, block, 1, o.2, false, 33⟩])
  | 3 =>
    let o := s.ownerField pid
    o.1.putFld (.jctl (block / 4) (block % 4)) Fld.jctlOwner o.2
  | 4 => s.putFld (.qpcfg (block / 128) (block % 128)) Fld.qpcfgPid pid
  | 5 => s.putBit (.clworld (s.lc block).cluster) Fld.clworldTcore (s.windowOf block) world
  | _ => s

/-- The power domain that holds a block; none for memory regions and mailboxes. -/
def State.blockDomain (s : State) (kind block : Nat) : Option Nat :=
  match kind with
  | 2 => some (16 + block / 16)
  | 3 => some (16 + block / 4)
  | 4 => some (16 + block / 128)
  | 5 => some (s.lc block).cluster
  | _ => none

/-- The blocks inside a cluster's or group's domain. -/
def State.blocksOf (s : State) (d : Nat) : List (Nat × Nat) :=
  if d < 16 then (s.hosted d).map (fun l => (5, l))
  else
    let g := d - 16
    (List.range 16).map (fun p => (2, g * 16 + p)) ++ (List.range 4).map (fun p => (3, g * 4 + p)) ++ (List.range 128).map (fun q => (4, g * 128 + q))

/-- PWROWN and CLKOWN of a domain show WORLD 1 whenever the trusted world owns a block inside it (15 R404). -/
def State.syncWorld (s : State) (d : Nat) : State :=
  let w := (s.blocksOf d).any (fun e => (s.ownerOf e.1 e.2).2)
  (s.putFlag (.pwrown d) Fld.pwrownWorld w).putFlag (.clkown d) Fld.clkownWorld w

/-- Record the new owner of a block. -/
def State.setOwner (s : State) (kind block : Nat) (o : Nat × Bool) : State :=
  let s1 := { s with trust := { s.trust with owners := KV.set none s.trust.owners (blockKey kind block) (some o), gen := s.trust.gen + 1 } }
  match s1.blockDomain kind block with
  | some d => s1.syncWorld d
  | none => s1

/-- The answer of a hand-over: the block is owned by the new owner, the record is free. -/
def State.closeHo (s : State) (h : Hand) : State :=
  if s.mbFull (2 * h.pair + 1) then s
  else
    let o := (s.fld (.horec h.n) Fld.horecTopid, s.flag (.horec h.n) Fld.horecToworld)
    let s1 := (s.setOwner (s.hoKind h.n) (s.hoBlock h.n) o).wr (.horec h.n) 0
    let s2 := { s1 with trust := { s1.trust with hands := s1.trust.hands.filter (fun x => x.n != h.n) } }
    let bs := answerBytes 0xB h.tag 0 []
    (s2.recordAnswer h.pair 0xB h.tag bs).answer h.pair bs

/-- HANDOVER_GRANT: a region whose closed class is in force is written with zeros and its new class applied, and answered once that is in
force; another block, reset, is granted and answered. -/
def State.grant (s : State) (n : Nat) : State :=
  match s.trust.hands.find? (fun h => h.n == n) with
  | none => s
  | some h =>
    let kind := s.hoKind n
    let block := s.hoBlock n
    let pid := s.fld (.horec n) Fld.horecTopid
    let world := s.flag (.horec n) Fld.horecToworld
    if !s.trustUp || s.trustAway then s
    else if s.hoState n = hoReleasing then
      if kind = 1 && s.fwSettled && s.regionClass block = 63 then
        (((s.setHo n hoReset).resetBlock 1 block).setHo n hoGranted).grantBlock 1 block pid world h.cls
      else s
    else if s.hoState n = hoReset then ((s.setHo n hoGranted).grantBlock kind block pid world h.cls).closeHo h
    else if kind = 1 && !(s.fwSettled && s.regionClass block = h.cls) then s
    else s.closeHo h

def execHandoverGrant (n : Fin 16) (s : State) : Result := .next (s.grant n.val)

end Sys2Proof.Machine
end

