-- ==== Sys2Proof/Machine/Vn.lean ====
section
/-! DEFINITION. The vehicle network (22): beacons, presence, roles, health, time, and transfers of images. -/
namespace Sys2Proof.Machine

def State.vnRole (s : State) : Nat := s.fld .vnstat Fld.vnstatRole
def State.vnPresent (s : State) (d : Nat) : Bool := s.bitIn .vnstat Fld.vnstatPresent d
def State.ringmaster (s : State) : Nat := s.fld .vnstat Fld.vnstatRmslot

/-- The port code of trunk port i. -/
def trunkPort (i : Nat) : Nat := 31 * 16 + i

/-- Whether the Trust Core runs the protocols of the network: it is RUNNING, and the module is not isolated (22 R527, R529). -/
def State.vnRuns (s : State) : Bool := s.trustUp && !s.trustAway && s.vnRole != 3

/-- An event of VNINT. -/
def State.vnEvent (s : State) (f : Field) : State :=
  (s.putFlag .vnint f true).raiseAt (s.fld .vnint Fld.vnintCl) (s.fld .vnint Fld.vnintIrq)

/-! ### Transfers (22 R536) -/

/-- A VNXCMD ends. -/
def State.vnxEnd (s : State) (code : Nat) : State :=
  ((s.putFlag .vnxstat Fld.vnxstatBusy false).putFld .vnxstat Fld.vnxstatCode code).vnEvent Fld.vnintXfer

/-- The role or the path of a transfer is lost. -/
def State.vnxAbort (s : State) : State := if s.flag .vnxstat Fld.vnxstatBusy then s.vnxEnd 0x15 else s

/-- The image of a transfer: from LAYSRC, its total length from its header (02 Table 1); none where it cannot be read. -/
def State.vnxImage (s : State) : State × Option (List Byte) :=
  let src := (s.rd .laysrc).toNat
  if 0x80000000 ≤ src then (s, none)
  else
    let h := s.ioReadN 0x700 255 true src 64
    let x := h.1.ioReadN 0x700 255 true src (min (imgU h.2.1 8 4) 0x04000000)
    if h.2.2.isSome || x.2.2.isSome then (x.1, none) else (x.1, some x.2.1)

/-- A command accepted by the Ringmaster: 1 FLASH, 2 STAGE, 3 ACTIVATE, 4 CANCEL. -/
def State.vnxStart (s : State) (d op : Nat) : State :=
  let s1 := s.wr .vnxstat 0
  let x := if op ≤ 2 then s1.vnxImage else (s1, some [])
  let act : W64 := if op = 3 then s.rd .layact else 0
  match x.2 with
  | none => x.1.vnxEnd 0x16
  | some b =>
    { x.1.putFlag .vnxstat Fld.vnxstatBusy true with vn := { x.1.vn with outbox := x.1.vn.outbox ++ [.transfer d op act b] } }

/-- VNXCMD by PID 0 or 255; a local condition ends it at once. -/
def State.vnxCmd (s : State) (r : Req) (d op : Nat) : State :=
  if !isHost r then s.refuse r 0x700 Reg.vnxcmd.addr op
  else if s.flag .vnxstat Fld.vnxstatBusy then s.reject r .vnxcmd
  else
    let s1 := s.wr .vnxcmd (keyedPair (op + d * 256))
    let fail := fun (c : Nat) => (s1.wr .vnxstat 0).vnxEnd c
    if !s.trustUp || s.trustAway then fail 0x13
    else if s.vnRole ≠ 2 then fail 0x32
    else if d = s.otp.slot || !s.vnPresent d then fail 0x33
    else s1.vnxStart d op

def execVnxFlash (r : Req) (d : Fin 8) (s : State) : Result := .next (s.vnxCmd r d.val 1)
def execVnxStage (r : Req) (d : Fin 8) (s : State) : Result := .next (s.vnxCmd r d.val 2)
def execVnxActivate (r : Req) (d : Fin 8) (s : State) : Result := .next (s.vnxCmd r d.val 3)
def execVnxCancel (r : Req) (d : Fin 8) (s : State) : Result := .next (s.vnxCmd r d.val 4)

/-- VNX_DONE: the target has answered, or the transfer was lost. -/
def execVnxDone (code : BitVec 8) (sent : BitVec 32) (s : State) : Result :=
  .next (if s.flag .vnxstat Fld.vnxstatBusy then (s.putFld .vnxstat Fld.vnxstatSent sent.toNat).vnxEnd code.toNat else s)

/-! ### Roles (22 R526-R529) -/

/-- The slots of the present set, the own one among them. -/
def State.vnSlots (s : State) : List Nat := (List.range 8).filter (fun d => d == s.otp.slot || s.vnPresent d)

/-- A slot enters or leaves PRESENT. -/
def State.setPresent (s : State) (d : Nat) (b : Bool) : State :=
  if s.vnPresent d == b then s else (s.putBit .vnstat Fld.vnstatPresent d b).vnEvent Fld.vnintPresent

/-- What leaving the Ringmaster's role ends: VNHLTH, a transfer. -/
def State.leaveRing (s : State) : State := ((List.range 8).foldl (fun t d => t.wr (.vnhlth d) 0) s).vnxAbort

/-- The Ringmaster is `rm`; the deputy is the lowest other slot present. -/
def State.putRoles (s : State) (rm : Nat) : State :=
  let dep := s.vnSlots.find? (fun d => d != rm)
  let role := if rm = s.otp.slot then 2 else if dep = some s.otp.slot then 1 else 0
  let s1 := (s.putFld .vnstat Fld.vnstatRmslot rm).putFld .vnstat Fld.vnstatRole role
  let s2 := match dep with
    | some d => s1.putFld .vnstat Fld.vnstatDepslot d
    | none => s1
  let s3 := if s2.rd .vnstat == s.rd .vnstat then s2 else s2.vnEvent Fld.vnintRole
  let s4 := if s.ringmaster ≠ rm then { s3 with vn := { s3.vn with newRm := true, good := 0 } } else s3
  if role = 2 then s4.ringAligned else if s.vnRole = 2 then s4.leaveRing else s4

/-- Roles from the present set: the named Ringmaster while it is present, otherwise the lowest slot (22 R526). -/
def State.setRoles (s : State) (named : Option Nat) : State :=
  let low := s.vnSlots.headD s.otp.slot
  s.putRoles (match named with
    | some m => if s.vnSlots.contains m then m else low
    | none => low)

/-- A start or a restart of the Trust Core: no role until 10 ms after the first trunk port is up (22 R526, R527). -/
def State.vnRestart (s : State) : State :=
  let up := (List.range 4).any (fun i => (s.port (trunkPort i)).up)
  let s1 := if s.vnRole = 2 then s.leaveRing else s
  let s2 := if s.vnRole = 3 then s1 else s1.putFld .vnstat Fld.vnstatRole 0
  { s2 with vn := { s2.vn with
      hold := true
      named := false
      upAt := if up then some s2.mtime else none } }

/-- ROLE_HOLD_END. -/
def State.holdEnd (s : State) : State :=
  match s.vn.upAt with
  | none => s
  | some t =>
    if !s.vn.hold || !s.vnRuns || s.mtime.toNat < t.toNat + 10000000 then s
    else
      let s1 := { s with vn := { s.vn with hold := false } }
      if s.vn.named then s1.putRoles s.ringmaster else s1.setRoles none

def execRoleHoldEnd (s : State) : Result := .next s.holdEnd

/-- Whether the last beacon of a slot is 3 ms old. -/
def State.beaconsGone (s : State) (d : Nat) : Bool :=
  match KV.get none s.vn.seen d with
  | some t => t.toNat + 3000000 ≤ s.mtime.toNat
  | none => true

/-- A slot leaves the present set; a module that so becomes Ringmaster raises the role epoch (22 R526, R527). -/
def State.slotGone (s : State) (d : Nat) : State :=
  let s1 := s.setPresent d false
  let s2 := if s.vnRole = 2 then (s1.putFlag (.vnhlth d) Fld.vnhlthValid false).vnEvent Fld.vnintHealth else s1
  let s3 := if s.fld .vnxcmd Fld.vnxcmdSlot = d then s2.vnxAbort else s2
  if s.vn.hold then s3
  else
    let s4 := s3.setRoles (some s.ringmaster)
    if s4.vnRole = 2 && s.vnRole ≠ 2 then s4.putFld .vnstat Fld.vnstatEpoch ((s.fld .vnstat Fld.vnstatEpoch + 1) % 2 ^ 32) else s4

/-- SLOT_ABSENT. -/
def execSlotAbsent (d : Fin 8) (s : State) : Result :=
  .next (if d.val = s.otp.slot || !s.vnPresent d.val || !s.beaconsGone d.val || !s.vnRuns then s else s.slotGone d.val)

/-- RINGMASTER_TAKEOVER: the deputy, 3 ms after the Ringmaster's last beacon. -/
def execRingmasterTakeover (s : State) : Result :=
  .next (if s.vnRole ≠ 1 || s.vn.hold || !s.vnRuns || !s.beaconsGone s.ringmaster then s else s.slotGone s.ringmaster)

/-! ### Beacons (22 R525, R529, R537) -/

/-- The health fields of a beacon, VNHLTH [47:0]. -/
def State.health (s : State) : Nat :=
  let f := fun (b : Bool) (n : Nat) => if b then n else 0
  s.fld .elogptr Fld.elogptrWritten % 65536 * 2 ^ 32 + s.fld .lkostat Fld.lkostatCause * 2 ^ 24 + f (s.flag .lkostat Fld.lkostatOk) (2 ^ 23)
    + f (s.flag .mtstat Fld.mtstatAligned) (2 ^ 22) + s.fld .tsstat Fld.tsstatState * 2 ^ 20
    + ((List.range 52).filter (fun n => s.scState n == scNoSpare)).length * 2 ^ 8 + s.fld .pwrstat Fld.pwrstatState

/-- The Ringmaster's entry of a slot takes the fields of a beacon. -/
def State.putHealth (s : State) (d h : Nat) : State :=
  let v := BitVec.ofNat 64 (2 ^ 63 + h)
  if s.vnRole ≠ 2 || s.rd (.vnhlth d) == v then s else (s.wr (.vnhlth d) v).vnEvent Fld.vnintHealth

/-- The beacon a module sends. -/
def State.ownBeacon (s : State) : BeaconMsg :=
  { slot := Fin.ofNat 8 s.otp.slot
    role := BitVec.ofNat 2 s.vnRole
    epoch := BitVec.ofNat 32 (s.fld .vnstat Fld.vnstatEpoch)
    rm := if s.vn.hold && !s.vn.named then none else some (Fin.ofNat 8 s.ringmaster)
    lcdid := s.otp.id
    health := BitVec.ofNat 48 s.health
    secured := true }

/-- A beacon leaves on the trunk ports that are up and pass. -/
def State.sendBeacon (s : State) (b : BeaconMsg) (f : Nat → Bool) : State :=
  let ps := (List.range 4).filter (fun i => f i && (s.port (trunkPort i)).up && s.alive 47)
  { s with vn := { s.vn with outbox := s.vn.outbox ++ ps.map (fun i => .beacon i b) } }

/-- BEACON. -/
def execBeacon (s : State) : Result :=
  .next (if s.vnRuns then (s.putHealth s.otp.slot s.health).sendBeacon s.ownBeacon (fun _ => true) else s)

/-- A second module has the own slot: the one with the higher LCDID is isolated until the next start-up (22 R529). -/
def State.sameSlot (s : State) (id : W64) : State :=
  if id < s.otp.id then
    (((s.putFld .vnstat Fld.vnstatRole 3).leaveRing).vnEvent Fld.vnintRole).logEvent 0x700 clsContained 0 s.otp.slot
  else s

/-- The roles after a beacon: two Ringmasters that meet keep the lower slot (22 R528); the epoch is that of the Ringmaster's beacons. -/
def State.beaconRoles (s : State) (b : BeaconMsg) : State :=
  let d := b.slot.val
  let epoch := fun (t : State) => if t.ringmaster = d then t.putFld .vnstat Fld.vnstatEpoch b.epoch.toNat else t
  if s.vn.hold then
    match b.rm with
    | some m => { (s.putFld .vnstat Fld.vnstatRmslot m.val).putFld .vnstat Fld.vnstatEpoch b.epoch.toNat with vn := { s.vn with named := true } }
    | none => s
  else if b.role = 2 && (d < s.ringmaster || !s.vnSlots.contains s.ringmaster) then epoch (s.setRoles (some d))
  else epoch (s.setRoles (some s.ringmaster))

/-- BEACON_RECEIVE: a frame that fails its checks does not count; one not seen before is relayed on the other trunk ports. -/
def State.beaconIn (s : State) (via : Nat) (again : Bool) (b : BeaconMsg) : State :=
  let d := b.slot.val
  if !b.secured || !s.vnRuns || !(s.port (trunkPort via)).up then s
  else if d = s.otp.slot then s.sameSlot b.lcdid
  else
    let s1 := if again then s else s.sendBeacon b (fun i => i != via)
    let s2 := { s1 with vn := { s1.vn with seen := KV.set none s1.vn.seen d (some s.mtime) } }
    ((s2.setPresent d true).beaconRoles b).putHealth d b.health.toNat

def execBeaconReceive (via : Fin 4) (again : Bool) (b : BeaconMsg) (s : State) : Result := .next (s.beaconIn via.val again b)

/-- VNHLTH as it is read: AGE in ms since the beacon arrived. -/
def State.healthWord (s : State) (d : Nat) : W64 :=
  let v := s.rd (.vnhlth d)
  match KV.get none s.vn.seen d with
  | some t => if v = 0 then v else withBits v 62 48 (min 0x7FFF ((s.mtime.toNat - t.toNat) / 1000000))
  | none => v

/-! ### Time (22 R530-R532) -/

/-- The correction of an offset: ahead of the Ringmaster when positive (22 R531). The rate that removes a small offset is the time
protocol's: a free value in MTRATE's range. -/
def State.correct (s : State) (o : Int) : State :=
  let step := fun (n : Int) =>
    let d := max (-2147483648) (min 2147483647 n)
    { s.wr .mtstep (keyedPair (d % 4294967296).toNat) with clk := { s.clk with mtAdd := s.clk.mtAdd + d } }
  let rate := fun (t : State) (n : Nat) => t.wr .mtrate (keyedPair n)
  if o < -1000 then step (-o)
  else if 1000 < o then (if s.clustersDown then step (-o) else rate s (2 ^ 32 - 500000))
  else
    let f := s.takeFree
    rate f.2 ((f.1.toNat % 1000001 + (2 ^ 32 - 500000)) % 2 ^ 32)

/-- SYNC_RESULT: MTIME minus the Ringmaster's time in ns. -/
def State.syncResult (s : State) (o : Int) : State :=
  if !s.vnRuns || s.vnRole = 2 || s.vn.hold then s
  else
    let good := if o.natAbs ≤ 10 then s.vn.good + 1 else 0
    let s1 := { s with vn := { s.vn with
      good := good
      newRm := false
      lastSync := s.mtime } }
    let s2 := if 15 < o.natAbs || (s.vn.newRm && 10 < o.natAbs) then s1.unalign
      else if 4 ≤ good then s1.putFlag .mtstat Fld.mtstatAligned true else s1
    s2.correct o

def execSyncResult (offset : Int) (s : State) : Result := .next (s.syncResult offset)

/-- SYNC_RESULT_TIMEOUT: 3 sync intervals of 7.8125 ms without a result. -/
def execSyncResultTimeout (s : State) : Result :=
  .next (if !s.vnRuns || s.vnRole = 2 || s.mtime.toNat < s.vn.lastSync.toNat + 23437500 then s else s.unalign)

/-! ### Registers (22 R538) -/

/-- A write of a VN register. -/
def State.writeVn (s : State) (r : Req) (rg : Reg) (o n : Nat) (v : W64) : State :=
  let no := s.refuse r 0x700 rg.addr 0
  match rg.kind with
  | .vnint => if isHost r then s.writePlain r rg o n v else no
  | .vnxcmd =>
    if !isHost r then no else if !keyedOk rg n v then s.reject r rg else s.vnxCmd r (bitsOf v 10 8) (bitsOf v 7 0)
  | .vnin => if r.pid = 255 then s.writeKeyed r rg n v else no
  | _ => if isHost r then s else no

/-- A VN register as it is read. -/
def State.vnWord (s : State) (rg : Reg) : W64 :=
  match rg.kind with
  | .vnstat => s.rd rg ||| BitVec.ofNat 64 (s.otp.slot % 8)
  | .vnhlth => s.healthWord rg.i
  | _ => s.rd rg

end Sys2Proof.Machine
end

