-- ==== Sys2Proof/Machine/TrustCore.lean ====
section
/-! DEFINITION. The Trust Core's failure and restart (15 R408, R409), the registers of the trust service window (TSWIN). -/
namespace Sys2Proof.Machine

/-- Lookout resets the Trust Core: its endpoint is reset in the same step, its SRAM and registers are lost, staged Firebreak tables are
discarded, a restart begins (15 R400, R409; 14 R384). -/
def State.resetTrust (s : State) : State :=
  let s1 := (s.epReset epTrust).dropTrust.freezeFw
  let s2 := s1.bump .tsstat Fld.tsstatEpoch 1
  { s2.putFld .tsstat Fld.tsstatState 2 with trust := { s2.trust with startedAt := s2.mtime } }

/-- Whether Lookout sees the Trust Core fail: no heartbeat for 10 ms, or a halt at a vector that cannot be fetched. While a debug port
halts it, the heartbeat is not counted (20 R507). -/
def State.trustFails (s : State) : Bool :=
  s.trustUp && !s.lko.stopped && !(s.core .trust).halted && (s.lko.trustBeat.toNat + 10000000 ≤ s.mtime.toNat || !(s.core .trust).run)

/-- TRUST_CORE_DOWN: the declaration, interrupt 1,125. A delta that is VERIFYING or STAGED is discarded once the Trust Core runs again
(02 R46); ALIGNED is cleared, and a transfer to another module ends with ABORTED (22 R532, R536). -/
def State.declareTrustDown (s : State) : State :=
  let ph := s.layPhase
  let s1 := if ph = phVerifying || ph = phStaged then { s with lay := { s.lay with abort := true } } else s
  (s1.resetTrust.unalign.vnxAbort).raiseId 1125

def execTrustCoreDown (s : State) : Result := .next (if s.trustFails then s.declareTrustDown else s)

/-- The records of hand-overs that a restart resumes: RELEASING is continued, RESET is performed again from its start (15 R409). A switch of the
memory tables that the failure has frozen is staged and applied again. -/
def State.resumeHands (s : State) : State :=
  s.trust.hands.foldl (fun t h =>
    let kind := t.hoKind h.n
    let block := t.hoBlock h.n
    let cls := t.regionClass block
    if t.hoState h.n = hoReset then t.resetBlock kind block
    else if kind ≠ 1 then t
    else if t.hoState h.n = hoReleasing then (if cls = 63 then t else t.releaseBlock 1 block)
    else if cls = h.cls then t
    else t.grantBlock 1 block (t.fld (.horec h.n) Fld.horecTopid) (t.flag (.horec h.n) Fld.horecToworld) h.cls) s

/-- The Trust Core starts: where its firmware begins, no chapter says. -/
def State.startTrust (s : State) : State :=
  let v := s.takeFree
  v.2.setCore .trust { Core.reset with run := true, pc := v.1 }

/-- The Trust Core is RUNNING: the records of its pairs count as left by a restart (15 R392), a discarded delta ends with ABORTED, repair
events and port groups that waited go on, Lookout's notices follow. -/
def State.trustRuns (s : State) : State :=
  let s1 := (s.putFld .tsstat Fld.tsstatState 1).startTrust
  let s2 := { s1 with
    lko := { s1.lko with trustBeat := s1.mtime }
    trust := { s1.trust with last := s1.trust.last.map (fun (e : Nat × Bool × List Byte × List Byte) => (e.1, (true, e.2.2))) }
    st := { s1.st with sram := [] } }
  s2.vnRestart.resumeHands.layAborted.recordPending.restoreWaiting.nextNotice

/-- TRUST_CORE_RUNNING: the restart that was begun ends. -/
def execTrustCoreRunning (s : State) : Result :=
  .next (if s.fld .tsstat Fld.tsstatState = 2 then s.trustRuns else s)

/-- TRUST_CORE_RESTART_FAIL: 200 ms after its start a restart has failed; a new one begins, or after three within 60 s the state is DOWN
until the next start-up, interrupt 1,125. -/
def State.restartFails (s : State) : State :=
  let fails := s.trust.restarts.filter (fun t => s.mtime.toNat ≤ t.toNat + 60000000000) ++ [s.mtime]
  let s1 := { s with trust := { s.trust with restarts := fails } }
  if 3 ≤ fails.length then (s1.putFld .tsstat Fld.tsstatState 3).raiseId 1125 else s1.resetTrust

def execTrustCoreRestartFail (s : State) : Result :=
  .next (if s.fld .tsstat Fld.tsstatState % 2 = 0 && s.clk.started && !s.lko.stopped && s.trust.startedAt.toNat + 200000000 ≤ s.mtime.toNat
    then s.restartFails else s)

/-! ### The trust service window (15 TSWIN) -/

/-- TSWIN of pair k: PID 0 writes it; a write while mailbox 2k is FULL is ignored and logged. -/
def State.writeTswin (s : State) (r : Req) (k o n : Nat) (v : W64) : State :=
  if r.pid ≠ 0 || s.mbFull (2 * k) then s.refuse r 0x700 (Reg.tswin k).addr 0 else s.writePlain r (.tswin k) o n v

/-- Whether a requester reads TSWIN of pair k: PID 0, 255 and the caller of the pair. -/
def State.readsTswin (s : State) (r : Req) (k : Nat) : Bool := isHost r || epPid (s.mbSep (2 * k)) == some r.pid.toNat

end Sys2Proof.Machine
end

