-- ==== Sys2Proof/Machine/LifeCycle.lean ====
section
/-! DEFINITION. Life-cycle fuses, erasures, the OTP window (20 R490-R494) and the reach of the debug ports (20 R499-R502). -/
namespace Sys2Proof.Machine

/-! ### Erasures (20 R491) -/

/-- The first address and size of a flash image slot. -/
def flashSlot (second : Bool) : Nat := if second then 0x05000000 else 0x01000000
def flashSize : Nat := 0x04000000

/-- A flash slot is erased: every byte reads 0xFF. -/
def State.eraseSlot (s : State) (second : Bool) : State :=
  { s with st := { s.st with flash := outside s.st.flash (flashSlot second) flashSize } }

/-- The ELOG ring is cleared. -/
def State.clearElog (s : State) : State :=
  { ({ s with elog := [] }.wr .elogptr 0).putFld .elogcfg Fld.elogcfgUnread 0 with elog := [] }

/-- The sealed state's records of hand-overs are gone, as HOREC shows them (15 R388). -/
def State.noHands (s : State) : State := (List.range 16).foldl (fun t n => t.wr (.horec n) 0) s

/-- Customer erasure: the keys, the sealed state except the repair record, both flash slots, the ELOG ring; every customer signer slot is
revoked. -/
def State.customerErasure (s : State) : State :=
  let s1 := (((s.eraseSlot false).eraseSlot true).clearElog).noHands
  { s1 with
    trust := { s1.trust with keys := [], last := [], owners := [], hands := [] }
    otp := { s1.otp with revoked := Nat.lor s1.otp.revoked 0x3C } }

/-- Final erasure: the device key is disabled, the maker slots revoked; the sealed state is unreadable from now on. -/
def State.finalErasure (s : State) : State :=
  { s.noHands with
    otp := { s.otp with devKeyOff := true, revoked := Nat.lor s.otp.revoked 3 }
    trust := { s.trust with keys := [], last := [], owners := [], hands := [] }
    test := { s.test with repairs := [] } }

/-- What is erased after the fuse of a transition is blown. -/
def State.eraseFor (s : State) (dest from_ : Nat) : State :=
  if dest = 4 then s.customerErasure
  else if dest = 5 then (if from_ = 3 then s.customerErasure.finalErasure else s.finalErasure)
  else s

/-- The state before the transition that the highest fuse made. -/
def State.lifeBefore (s : State) : Nat :=
  match topBit 5 s.otp.lcFuse with
  | some i => (match topBit i s.otp.lcFuse with
    | some j => j + 1
    | none => 0)
  | none => 0

/-- The DONE fuse of the highest blown fuse. -/
def State.blowDone (s : State) : State := { s with otp := { s.otp with lcDone := Nat.lor s.otp.lcDone s.otp.lcFuse } }

/-- Start-up repeats an erasure that lost power before its DONE fuse was blown (20 R492). -/
def State.finishErasure (s : State) : State :=
  if Nat.lor s.otp.lcDone s.otp.lcFuse = s.otp.lcDone then s else (s.eraseFor s.lifeCycle s.lifeBefore).blowDone

/-! ### The OTP window (20 R494) -/

/-- The slot that a byte of the window belongs to: 0-5 the key slots, 6 the vehicle slot. -/
def otpSlotOf (o : Nat) : Option Nat :=
  if o = 0x3800 then some 6
  else if o < 6 * 0x840 && (o % 0x840 < 97 || (0x80 ≤ o % 0x840 && o % 0x840 < 0x80 + 1952)) then some (o / 0x840) else none

/-- Whether a slot takes a write in the present state: keys of the maker in BLANK, customer slots and the vehicle slot in MAKER, and
none that holds a programmed bit. -/
def State.otpTakes (s : State) (slot : Nat) : Bool :=
  (if slot < 2 then s.lifeCycle == 0 else s.lifeCycle == 1)
    && (if slot = 6 then KV.get 0 s.otp.window 0x3800 == 0 else !s.otpHeld slot)

/-- Program bytes of the window. -/
def State.otpProgram (s : State) (o : Nat) (bs : List Byte) : State :=
  let w := (List.range bs.length).foldl (fun m i => KV.set 0 m (o + i) (KV.get 0 m (o + i) ||| bs.getD i 0)) s.otp.window
  { s with otp := { s.otp with window := w, slot := (KV.get 0 w 0x3800).toNat } }

/-- A write of the window by a debug port at reach ALL: `free` are the slots that took writes when the port's WRITE began. Anything else
is dropped and logged. -/
def State.otpWrite (s : State) (r : Req) (free : List Nat) (o : Nat) (bs : List Byte) : State :=
  if (List.range bs.length).all (fun i => match otpSlotOf (o + i) with
    | some k => free.contains k
    | none => false)
  then s.otpProgram o bs else s.refuse r 0x7F0 (0x0C00094000 + o) 0

/-! ### Reach (20 R499-R502) -/

/-- Reach codes. -/
def reachId : Nat := 0
def reachLog : Nat := 1
def reachPart : Nat := 2
def reachMod : Nat := 3
def reachAll : Nat := 4

/-- 20 Table 5: the reach in a life-cycle state under an authorisation; none for a "—". -/
def reachTable (lc level : Nat) : Option Nat :=
  match lc, level with
  | 0, 0 => some reachAll
  | 1, 0 => some reachId
  | 1, 3 => some reachAll
  | 2, 0 => some reachId
  | 2, 1 => some reachPart
  | 2, 2 => some reachMod
  | 2, 3 => some reachLog
  | 3, 0 => some reachId
  | 3, 1 => some reachPart
  | 3, 2 => some reachMod
  | 3, 3 => some reachLog
  | 4, 0 => some reachId
  | 4, 3 => some reachAll
  | 5, 0 => some reachId
  | _, _ => none

/-- A debug port's state. -/
def State.dbgPort (s : State) (p : DbgPort) : Dbg := if p then s.dbg.p1 else s.dbg.p0
def State.setDbg (s : State) (p : DbgPort) (d : Dbg) : State :=
  if p then { s with dbg := { s.dbg with p1 := d } } else { s with dbg := { s.dbg with p0 := d } }

/-- The reach of a port; in Standby ID only. -/
def State.reach (s : State) (p : DbgPort) : Nat :=
  if s.pwr.standby then reachId else (reachTable s.lifeCycle (s.dbgPort p).level).getD reachId

/-- An authorisation ends. -/
def Dbg.noAuth (d : Dbg) : Dbg := { d with level := 0, pid := 0 }
def State.dropAuth (s : State) : State := (s.setDbg false s.dbg.p0.noAuth).setDbg true s.dbg.p1.noAuth

/-- LCDSTAT as it reads (20 LCDSTAT). -/
def State.lcdWord (s : State) : W64 :=
  let halted := (s.core .trust).halted || lcores.any (fun l => (s.lc l).halted)
  let pid := fun (p : DbgPort) => if s.reach p = reachPart then (s.dbgPort p).pid else 0
  BitVec.ofNat 64 (pid true * 2 ^ 32 + pid false * 2 ^ 24 + s.reach true * 2 ^ 20 + s.reach false * 2 ^ 16
    + (if halted then 512 else 0) + (if s.dbg.scan then 256 else 0) + s.lifeCycle)

/-! ### LCDCTL (20 R506) -/

/-- Whether a partition is a safety partition. -/
def State.safety (s : State) (p : Nat) : Bool := s.bitIn (.lcdsafe (p / 32)) Fld.lcdsafeSafe (p % 32)

/-- Whether a logical core is in the run set of a safety partition. -/
def State.safeCore (s : State) (l : Nat) : Bool := (List.range 256).any (fun p => s.safety p && s.inRunSet p l)

/-- A halted core goes on; a halt that waits is cancelled (20 R503). -/
def State.resumeCore (s : State) (e : Engine) : State :=
  s.setCore e { s.core e with halted := false, haltPend := none, stepFree := false, issuedAt := s.mtime }

/-- LCDCTL: setting SERVICE_MODE acts as FORCE_OFF, clearing it resumes every halted core of a safety partition. -/
def State.serviceMode (s : State) (on : Bool) : State :=
  let s1 := s.putFlag .lcdctl Fld.lcdctlServicemode on
  if on then s1.lkoCause 7
  else (lcores.filter (fun l => (s1.lc l).halted && s1.safeCore l)).foldl (fun t l =>
    t.setLc l { t.lc l with halted := false, haltPend := none, stepFree := false, issuedAt := t.mtime }) s1

/-- A write of LCDCTL by PID 0 or 255 (20 R511). -/
def State.writeLcdctl (s : State) (r : Req) (n : Nat) (v : W64) : State :=
  if !isHost r then s.refuse r 0x7F0 Reg.lcdctl.addr 0
  else if !keyedOk .lcdctl n v then s.reject r .lcdctl
  else s.serviceMode (bitOf v 0)

def execServiceModeWrite (r : Req) (on : Bool) (s : State) : Result :=
  .next (s.writeLcdctl r 8 (keyedPair (if on then 1 else 0)))

/-! ### Trace channels (20 R509, R510) -/

/-- Write `k` buffered records of a channel into its ring. -/
def State.traceWrite (s : State) (c k : Nat) : State :=
  let b := KV.get ⟨[], 0⟩ s.dbg.tr c
  let head := s.fld (.lcdtri c) Fld.lcdtriHead
  let at_ := s.fld (.lcdtrb c) Fld.lcdtrbBase * 4096 + head % s.ringRecords c * 16
  let w := s.ioWriteN 0x7F0 0 false at_ (b.buf.take k).flatten
  match w.2 with
  | some _ =>
    let s1 := { w.1 with dbg := { w.1.dbg with tr := KV.set ⟨[], 0⟩ w.1.dbg.tr c ⟨[], b.lost⟩ } }
    (s1.putFlag (.lcdtrc c) Fld.lcdtrcEn false).logEvent 0x7F0 clsContained at_ 0
  | none =>
    let s1 := w.1.putFld (.lcdtri c) Fld.lcdtriHead ((head + k) % 65536)
    { s1 with dbg := { s1.dbg with tr := KV.set ⟨[], 0⟩ s1.dbg.tr c { b with buf := b.buf.drop k } } }

/-- The records that fill a channel's present line. -/
def State.traceLine (s : State) (c : Nat) : Nat := 4 - s.fld (.lcdtri c) Fld.lcdtriHead % 4

/-- TRACE_LINE_WRITE: a whole line of records is written. -/
def execTraceLineWrite (c : Fin 4) (s : State) : Result :=
  .next (if s.flag (.lcdtrc c.val) Fld.lcdtrcEn && s.traceLine c.val ≤ (KV.get ⟨[], 0⟩ s.dbg.tr c.val).buf.length
    then s.traceWrite c.val (s.traceLine c.val) else s)

/-- What a channel holds is written, line by line. -/
def State.traceFlush (s : State) (c : Nat) : State :=
  (List.range 17).foldl (fun t _ =>
    let n := (KV.get ⟨[], 0⟩ t.dbg.tr c).buf.length
    if n = 0 then t else t.traceWrite c (min n (t.traceLine c))) s

/-- LCDTRC: setting EN clears HEAD and TAIL; clearing it writes a partial line. -/
def State.writeLcdtrc (s : State) (r : Req) (c : Nat) (w : W64) : State :=
  let was := s.flag (.lcdtrc c) Fld.lcdtrcEn
  let now := bitOf w 63
  if !isHost r then s.refuse r 0x7F0 (Reg.lcdtrc c).addr 0
  else if now && !was then
    let s1 := ((s.wr (.lcdtrc c) w).putFld (.lcdtri c) Fld.lcdtriHead 0).putFld (.lcdtri c) Fld.lcdtriTail 0
    { s1 with dbg := { s1.dbg with tr := KV.set ⟨[], 0⟩ s1.dbg.tr c ⟨[], 0⟩ } }
  else if was && !now then (s.wr (.lcdtrc c) w).traceFlush c
  else s.wr (.lcdtrc c) w

/-- LCDTRB: ignored and logged while EN is 1. -/
def State.writeLcdtrb (s : State) (r : Req) (c o n : Nat) (v : W64) : State :=
  if !isHost r || s.flag (.lcdtrc c) Fld.lcdtrcEn then s.refuse r 0x7F0 (Reg.lcdtrb c).addr 0 else s.writePlain r (.lcdtrb c) o n v

end Sys2Proof.Machine
end

