-- ==== Sys2Proof/Machine/StartUp.lean ====
section
/-! DEFINITION. Resets of the module and of domains, and start-up (18 R468-R473, 02 R37-R40). -/
namespace Sys2Proof.Machine

/-! ### Module resets (18 R468, R469) -/

/-- POWER_ON_RESET: everything but OTP and flash. TMODE not at GND holds the module in the maker test mode in BLANK, MAKER and RETURN
(23 R541). -/
def execPowerOnReset (tmode : Bool) (s : State) : Result :=
  .next (let s1 := s.cold
    let lc := s.lifeCycle
    { s1 with clk := { s1.clk with maker := tmode && (lc == 0 || lc == 1 || lc == 4) } })

/-- The registers that a module reset keeps: RSTCAUSE, ELOG's, the wake configuration, the phases' and PLLs' retirement, the supply's
samples. -/
def keptRegs : List Reg :=
  [.rstcause, .elogptr, .elogcfg, .pwrwake, .pwrwaket, .pwrcause, .pwrph]

/-- A port keeps a wake that its detector has seen. -/
def Port.wakeOnly (p : Port) : Port := { Port.reset with wakeF := p.wakeF }

/-- A module reset: what 18 Table 2 keeps stays, everything else comes back at reset; authorisations of the debug ports end (20 R500). -/
def State.moduleReset (s : State) (cause : Field) : State :=
  let c := s.cold
  let s1 : State := { c with
    mtime := s.mtime, mtFrac := s.mtFrac, elog := s.elog
    trust := { c.trust with gen := s.trust.gen, trngOk := s.trust.trngOk }
    test := { c.test with pendingR := s.test.pendingR }
    ports := KV.remap Port.reset s.ports (fun _ p => p.wakeOnly)
    pwr := { c.pwr with
      band := s.pwr.band, candidate := s.pwr.candidate, vina := s.pwr.vina, vinb := s.pwr.vinb, vbus := s.pwr.vbus
      feedOff := s.pwr.feedOff, polHalf2 := s.pwr.polHalf2, since := s.pwr.since }
    clk := { c.clk with internal := s.clk.internal, maker := s.clk.maker }
    dbg := { c.dbg with p0 := s.dbg.p0.noAuth, p1 := s.dbg.p1.noAuth, scan := s.dbg.scan } }
  let s2 := keptRegs.foldl (fun t r => t.wr r (s.rd r)) s1
  let s3 := (List.range 52).foldl (fun t n => t.putFld (.carscope n) Fld.carscopeRetired (s.fld (.carscope n) Fld.carscopeRetired)) s2
  let s4 := (List.range 24).foldl (fun t n => if s.pllState n = 5 then t.setPll n 5 else t) s3
  let s5 := ((s4.putFld .pwrstat Fld.pwrstatVbus (s.fld .pwrstat Fld.pwrstatVbus)).putFld .pwrstat Fld.pwrstatVina
    (s.fld .pwrstat Fld.pwrstatVina)).putFld .pwrstat Fld.pwrstatVinb (s.fld .pwrstat Fld.pwrstatVinb)
  (s5.putFlag .mtstat Fld.mtstatHold s.clk.internal).putFlag .rstcause cause true

/-- RESET_N: a low level of 125 XIN cycles starts a module reset, held until the rising edge that ends the level; it ends boundary
scan (20 R508). -/
def execResetN (cycles : Nat) (s : State) : Result :=
  .next (if cycles < 125 then s
    else
      let s1 := s.moduleReset Fld.rstcausePin
      { s1 with dbg := { s1.dbg with scan := false } })

/-- RSTCMD, which PID 0 or 255 writes. -/
def State.rstcmd (s : State) (r : Req) : State :=
  if isHost r then s.moduleReset Fld.rstcauseCmd else s.refuse r 0x7F0 Reg.rstcmd.addr 1

def execRstcmdModule (r : Req) (s : State) : Result := .next (s.rstcmd r)

/-! ### Domain resets (18 R470, R471) -/

/-- A domain in reset is released as at power-on; releasing a cluster resets its endpoints. -/
def State.releaseDomain (s : State) (d : Nat) : State :=
  let s1 := (s.dropDomain d).setHeld d false
  let s2 := { s1 with lko := { s1.lko with dead := s1.lko.dead.filter (fun x => x != d) } }
  if d < 16 then ((s2.startCluster d).domainScopeUp d).resetEndpoints d
  else
    let s3 := { s2 with test := { s2.test with adcFresh := s2.test.adcFresh.filter (fun x => x != d - 16) ++ [d - 16] } }
    (s3.reviveGroup (d - 16)).domainScopeUp d

/-- The code of a request in slot `p`: op 1 RESET, 2 RELEASE; 0 when it acts. -/
def State.rstCode (s : State) (p op d : Nat) (r : Req) : Nat :=
  if ownerDenies (s.rd (.pwrown d)) r then 0x24
  else if 48 ≤ d then 0x27
  else if s.domBusy p d then 0x01
  else if !s.powered d then 0x2A
  else if s.inReset d then 0
  else if op = 2 then 0x29
  else if s.domInUse d then 0x26
  else 0

/-- RSTREQ in slot `p`, which only PID `p` reaches. A domain in service is cleaned first. -/
def State.rstRequest (s : State) (r : Req) (p op d : Nat) : State :=
  let c := s.rstCode p op d r
  let s1 := s.wr (.rstreq p) (keyedPair (op + d * 256))
  let s2 := s1.wr (.rstreqs p) (BitVec.ofNat 64 c)
  if c = 0x24 then s2.refuse r 0x7F0 (Reg.pwrown d).addr 0
  else if c ≠ 0 then s2
  else if s.inReset d then s2.releaseDomain d
  else (s2.cleanDomain d).releaseDomain d

/-- A write of RSTREQ as a register. -/
def State.writeRstreq (s : State) (r : Req) (p n : Nat) (v : W64) : State :=
  if r.pid.toNat ≠ p then s.refuse r 0x7F0 (Reg.rstreq p).addr 0
  else if s.flag (.rstreqs p) Fld.rstreqsBusy || !keyedOk (.rstreq p) n v then s.reject r (.rstreq p)
  else s.rstRequest r p (bitsOf v 7 0) (bitsOf v 15 8)

def execDomainReset (r : Req) (d : BitVec 8) (s : State) : Result :=
  .next (s.writeRstreq r r.pid.toNat 8 (keyedPair (1 + d.toNat * 256)))
def execDomainRelease (r : Req) (d : BitVec 8) (s : State) : Result :=
  .next (s.writeRstreq r r.pid.toNat 8 (keyedPair (2 + d.toNat * 256)))

/-! ### Start-up (18 R472) -/

/-- The phases that are not retired: the first 8 in service, the rest spare. -/
def State.startPhases (s : State) : State :=
  let ps := (List.range 9).filter (fun p => s.phase p != 3)
  let s1 := (List.range ps.length).foldl (fun t i => t.setPhase (ps.getD i 0) (if i < 8 then 0 else 1)) s
  s1.putFld .pwrstat Fld.pwrstatPhases s1.phasesOn

/-- The frequency of PLLs 16-23 in MHz (18 Table 1). -/
def pllFreq (n : Nat) : Nat := if n < 18 then 2000 else if n < 20 then 1200 else 800

/-- PLLs 16-23 lock; PLL 17 stays in standby. -/
def State.startPlls (s : State) : State :=
  (List.range 8).foldl (fun t i =>
    let n := 16 + i
    if t.pllState n = 5 then t
    else (t.setPll n (if n = 17 && t.pllState 16 != 5 then 3 else 2)).putFld (.clkpll n) Fld.clkpllFreq (pllFreq n)) s

/-- The fuses and the repair record are applied: their remaps and retirements are in force, and the elements they retire are out of use
(19 R484). -/
def State.applyRepairs (s0 : State) : State :=
  let s := { s0 with test := { s0.test with inForce := s0.otp.fuses.map (fun e => repairOfWord e.2) ++ s0.test.repairs } }
  let gone := fun (n i : Nat) => s.test.repairs.any (fun e => e.action == 2 && e.unit == scopeUnit n i)
  let s1 := (List.range 52).foldl (fun t n => ((List.range 9).filter (gone n)).foldl (fun u i => u.putBit (.carscope n) Fld.carscopeRetired i true) t) s
  ((List.range 9).filter (gone 50)).foldl (fun t p => t.setPhase p 3) s1

/-- Whether the ROM accepts the firmware in flash 0x0000_0000-0x007F_FFFF (15 R388). -/
def State.firmwareOk (s : State) : Bool :=
  Config.firmwareOk (s.st.flash.filter (fun (e : Nat × Byte) => e.1 < 0x800000)) ((List.range 4).filterMap s.signerKey)

/-- VIN valid: VBUS has stayed at or above 36 V for 1 ms, in the normal band (17 R438); before the first sample VBUS counts as steady. -/
def State.vinValid (s : State) : Bool := s.pwr.band == 0 && 360 ≤ s.pwr.vbus && (s.sinceAt 4 == 0 || s.heldFor 4 1000000)

/-- Up to the Trust Core's firmware: repairs, phases, PLLs, and the domains that every state powers first. -/
def State.powerUp (s : State) : State :=
  let s1 := ((s.finishErasure.applyRepairs).startPhases).startPlls
  let s2 := ((List.range 13).map (48 + ·)).foldl State.powerOn s1
  { s2 with clk := { s2.clk with started := true }, trust := { s2.trust with startedAt := s2.mtime } }

/-- The Trust Core's part: trims and the image. -/
def State.bootTrust (s : State) : State :=
  let s1 := s.trustRuns.loadTrims.loadImages
  if s1.sinceAt 11 = 0 then s1 else (s1.clearSince 11).raiseId 1147

/-- START_UP: from VIN valid to the logical cores' start. What the tests of the unspared arrays find is free (log entry 131). Firmware that
fails leaves the Trust Core starting, and no image loads. A wake from Standby makes it with a module reset before. -/
def State.startUp (s : State) : State :=
  if s.clk.started || s.clk.maker || s.dbg.scan || s.pwr.standby || !s.vinValid then s
  else
    let s0 := if s.sinceAt 11 = 0 then s else s.moduleReset Fld.rstcauseWake
    let s1 := (s0.powerUp.startTests (Config.startFaults s.fresh)).used
    if s1.arrayGone 0x700 0xE then ((s1.putFld .tsstat Fld.tsstatState 3).raiseId 1125).noImage
    else if s1.firmwareOk then s1.bootTrust else s1.noImage

def execStartUp (s : State) : Result := .next s.startUp

end Sys2Proof.Machine
end

