-- ==== Sys2Proof/Machine/Tally.lean ====
section
/-! DEFINITION. Tally (21 R516-R524): ticks, snapshots, views, and its registers. -/
namespace Sys2Proof.Machine

/-! ### Snapshots (21 R521-R523) -/

/-- An entry of 128 bytes: word 0 with SEQ, and words 1-15. -/
def snapEntry (seq low : Nat) (ws : List Nat) : List Byte :=
  toBytes 8 (seq * 2 ^ 32 + low) ++ (padTo 15 0 ws).flatMap (toBytes 8)

/-- Whether partition `p` is carried: set in TALMASK and not of world 1 (21 R520, R522). -/
def State.snapHas (s : State) (p : Nat) : Bool := s.bitIn (.talmask (p / 64)) Fld.talmaskMask (p % 64) && !s.pidWorld p

/-- The entries of a snapshot of the tick at `t` (21 Table 4). -/
def State.snapshot (s : State) (seq : Nat) (t : W64) : List Byte :=
  let ps := (List.range 256).filter s.snapHas
  let block := fun (b : Nat) => snapEntry seq (b * 65536 + 2)
    ((List.range 15).map (fun i => if 15 * b + i < 32 then s.fld (.talbv (15 * b + i)) Fld.talbvCount else 0))
  let part := fun (p : Nat) => snapEntry seq (p * 256 + 3) ((List.range 9).map (fun k => s.fld (.talacc p k) Fld.talaccCount))
  snapEntry seq 1 [t.toNat, ps.length] ++ (List.range 3).flatMap block ++ ps.flatMap part

/-- The tick period in nanoseconds. -/
def State.tickPeriod (s : State) : Nat := s.fld .talcfg Fld.talcfgPer * 1000

/-- SNAPSHOT_TICK: the latest multiple of the period has been reached and has not ticked. While a snapshot is in progress the tick
is skipped and counted; otherwise every logical core flushes and the snapshot is taken. -/
def State.snapTick (s : State) : State :=
  let per := s.tickPeriod
  let t := s.mtime.toNat / per * per
  if !s.talOn || per = 0 || t < s.tal.next.toNat then s
  else
    let s1 := { s with tal := { s.tal with next := BitVec.ofNat 64 (t + 1) } }
    if s.flag .talstat Fld.talstatBusy then s1.bump .talstat Fld.talstatSkip 1
    else
      let s2 := s1.flushWhere (fun _ => true)
      let snap := s2.snapshot (Config.snapshotSeq s.tal.seq).toNat (BitVec.ofNat 64 t)
      { s2.putFlag .talstat Fld.talstatBusy true with tal := { s2.tal with
          seq := s.tal.seq + 1
          snap := snap } }

def execSnapshotTick (s : State) : Result := .next s.snapTick

/-- The entries of the ring, and how many of them software has not consumed. -/
def State.ringSize (s : State) : Nat := 32 * s.fld .talbuf Fld.talbufSize
def State.ringUsed (s : State) : Nat := (s.fld .talri Fld.talriHead + 65536 - s.fld .talri Fld.talriTail) % 65536

/-- Write entries from HEAD on; false when a line failed. -/
def State.snapWrite : Nat → Nat → List Byte → State → State × Bool
  | 0, _, _, s => (s, true)
  | n + 1, i, bs, s =>
    let at_ := s.fld .talbuf Fld.talbufBase * 4096 + (s.fld .talri Fld.talriHead + i) % 65536 % s.ringSize * 128
    let r := s.ioWriteN 0x7F0 0 false at_ (bs.take 128)
    match r.2 with
    | some (pa, _, _) => (r.1.log 0x7F0 clsContained 0 false pa 0, false)
    | none => State.snapWrite n (i + 1) (bs.drop 128) r.1

/-- SNAPSHOT_COMPLETE: the snapshot stands in the ring and HEAD advances; core-local ID 4 becomes pending with SNAPIE. Without room none of
it is written; a failed line clears EN. -/
def State.snapDone (s : State) : State :=
  if !s.flag .talstat Fld.talstatBusy then s
  else
    let n := s.tal.snap.length / 128
    let s1 := { s.putFlag .talstat Fld.talstatBusy false with tal := { s.tal with snap := [] } }
    if s.ringSize < s.ringUsed + n then s1.bump .talri Fld.talriLost 1
    else
      let w := State.snapWrite n 0 s.tal.snap s1
      if !w.2 then w.1.putFlag .talcfg Fld.talcfgEn false
      else
        let s2 := w.1.putFld .talri Fld.talriHead ((s.fld .talri Fld.talriHead + n) % 65536)
        if s2.flag .talcfg Fld.talcfgSnapie then s2.raisePriv (s2.fld .talcfg Fld.talcfgLcore) 4 else s2

def execSnapshotComplete (s : State) : Result := .next s.snapDone

/-! ### Views (21 R519, R520) -/

/-- A load from TALVIEW k: the partition's cores flush, and its accumulator answers; PID 255 reads zero. -/
def State.talLoad (s : State) (p k : Nat) : State × W64 :=
  if p = 255 then (s, 0)
  else
    let s1 := s.flushWhere (fun l => bitsOf ((s.lc l).creg 0x48) 7 0 == p)
    (s1, BitVec.ofNat 64 (s1.fld (.talacc p k) Fld.talaccCount))

/-- TALVIEW: the answer stands at the register. -/
def execTalview (r : Req) (k : Fin 9) (s : State) : Result :=
  let a := s.talLoad r.pid.toNat k.val
  .next (a.1.wr (.talview k.val) a.2)

/-- A load of TALACC: zero for a partition of world 1, but for PID 255 with WORLD 1 (21 R520). -/
def State.accLoad (s : State) (r : Req) (p k : Nat) : W64 :=
  if s.flag (.ptent p) Fld.ptentWorld && !(r.pid == 255 && r.world) then 0 else s.rd (.talacc p k)

/-- Who reads a TAL register (21 R524). -/
def readsTal (r : Req) (k : RegKind) : Bool := isHost r || k == .talview

/-! ### Writes (21 R524) -/

/-- TALCFG: EN from 0 to 1 clears HEAD and TAIL, and ticks count from now. -/
def State.writeTalcfg (s : State) (o n : Nat) (v : W64) : State :=
  let s1 := s.wr .talcfg (mergeReg RegKind.talcfg.fields (laneMask o n) (v <<< (8 * o)) (s.rd .talcfg))
  if s1.talOn && !s.talOn then
    { (s1.putFld .talri Fld.talriHead 0).putFld .talri Fld.talriTail 0 with tal := { s.tal with next := s.mtime } }
  else s1

/-- A write of a TAL register. -/
def State.writeTal (s : State) (r : Req) (rg : Reg) (o n : Nat) (v : W64) : State :=
  let no := s.refuse r 0x7F0 rg.addr 0
  match rg.kind with
  | .talcfg => if isHost r then s.writeTalcfg o n v else no
  | .talbuf => if isHost r && !s.talOn then s.writePlain r rg o n v else no
  | .talri => if isHost r || 2 ≤ o then s.writePlain r rg o n v else no
  | .talmask | .talsel | .talblk | .talbv => if isHost r then s.writePlain r rg o n v else no
  | _ => s.writePlain r rg o n v

end Sys2Proof.Machine
end

