-- ==== Sys2Proof/Machine/Bus.lean ====
section
/-! DEFINITION. Loads and writes of the blocks' addresses by a requester: who reaches which register, and the value a register shows
(00_scope R4, R9, R10; 01 R12-R17; the access rules of every chapter). -/
namespace Sys2Proof.Machine

/-! ### Loads -/

/-- The 32 bytes of slot `i` of the ring: the k-th latest entry where k = WRITTEN - i; zero where none is held. -/
def State.elogEntryAt (s : State) (i : Nat) : List Byte :=
  let k := (s.fld .elogptr Fld.elogptrWritten + 1024 - i - 1) % 1024
  if k < s.elog.length then s.elog.getD (s.elog.length - 1 - k) [] else List.replicate 32 0

/-- Whether a requester loads a register. -/
def State.readsReg (s : State) (r : Req) (rg : Reg) : Bool :=
  match rg.kind with
  | .qpcfg | .qprxr | .qptxr | .qpwin | .qprxt | .qptxt | .qpictl => isHost r || r.pid.toNat == s.qpPid rg.i rg.j
  | .portid | .pctrl | .pstat | .perr | .pirq | .canmode | .canbt | .canswf | .canswm | .canswd | .canswdm | .lincfg | .t1scfg | .t1cfg
  | .macaddr | .trkcfg | .snscfg | .sercfg | .fldcfg | .fldpwm | .fldadc | .pcicfg | .pciwin | .pcimsi | .pxaddr | .pxlocal | .pxcmd =>
    s.reachesPort r.pid.toNat (rg.i * 16 + rg.j)
  | .dbbits | .dbcfg | .dbring => isHost r || r.pid.toNat == rg.j
  | .svarg | .svcmd | .svres => slotServes r rg.i
  | .tsstat | .talview => true
  | .tswin => s.readsTswin r rg.i
  | .pwrreq | .pwrreqs | .rstreq | .rstreqs => r.pid.toNat == rg.i
  | _ => isHost r

/-- Write-only fields read as zero. -/
def blankWo (fs : List Field) (v : W64) : W64 := fs.foldl (fun w f => if f.acc = .wo then w &&& ~~~ f.mask else w) v

/-- The value a register shows. -/
def State.regValue (s : State) (r : Req) (rg : Reg) : W64 :=
  match rg.kind with
  | .ircfg => if rg.j < 32 then 0 else s.rd rg
  | .irstate => if rg.j < 32 then 0 else s.rd rg
  | .l1ctl => if (s.coreAt rg.i rg.j).isSome then s.rd rg else 0
  | .portid => withBits (s.rd rg) 31 24 (s.ifc (rg.i * 16 + rg.j))
  | .pstat => s.statusWord (rg.i * 16 + rg.j)
  | .laycnt => withBits (s.rd rg) 41 32 s.otp.counter
  | .mtnow => s.mtime
  | .lcdid => s.otp.id
  | .lcdstat => s.lcdWord
  | .talacc => s.accLoad r rg.i rg.j
  | .vnstat | .vnhlth => s.vnWord rg
  | .fwcrc => BitVec.ofNat 64 (s.stagedCrc rg.i * 2 ^ 32 + s.activeCrc rg.i)
  | k => blankWo k.fields (s.rd rg)

/-- A load of a register that answers. -/
def State.regLoad (s : State) (r : Req) (rg : Reg) : State × RdAns :=
  if !s.readsReg r rg then (s, .denied)
  else match rg.kind with
    | .talview => let a := s.talLoad r.pid.toNat rg.i; (a.1, .val a.2)
    | _ => (s, .val (s.regValue r rg))

/-- A load of `n` bytes at `a` of a block that answers; the address is mapped. -/
def State.blockRead (s : State) (r : Req) (a n : Nat) : State × RdAns :=
  let bytes := fun (ok : Bool) (bs : List Byte) => if ok then RdAns.val (BitVec.ofNat 64 (ofBytes (bs.take n))) else .denied
  match msecAt a, otpAt a, mailAt a, elogAt a, s.lmemAt a with
  | some k, _, _, _, _ => (s, bytes (r.pid == 255) (KV.getAll 0 s.st.msec k n))
  | _, some k, _, _, _ => (s, bytes (isHost r) (KV.getAll 0 s.otp.window k n))
  | _, _, some (m, o), _, _ => s.mbRead r m o n
  | _, _, _, some (i, o), _ => (s, bytes (isHost r) ((s.elogEntryAt i).drop o))
  | _, _, _, _, some (l, o) =>
    (s, if (s.lmemPoison (l * 65536 + o) n).isSome then .poison else bytes true (KV.getAll 0 s.st.lmem (l * 65536 + o) n))
  | _, _, _, _, _ =>
    if inWindow a then (s, bytes (isHost r) (s.readWindow ((a - 0x0800000000) / 0x1000000) (a % 0x8000) n))
    else if inRtTable a then (s, bytes (isHost r) (toBytes 8 ((KV.get 0 s.regs (a / 8 * 8)) ^^^ 0xFFFFFFFF00000000).toNat |>.drop (a % 8)))
    else match s.regAt (a / 8 * 8) with
      | some rg =>
        let x := s.regLoad r rg
        (x.1, match x.2 with
          | .val v => .val (v >>> (8 * (a % 8)))
          | y => y)
      | none => (s, .absent)

/-- Cut a value to `n` bytes. -/
def RdAns.cut (n : Nat) : RdAns → RdAns
  | .val v => .val (BitVec.ofNat 64 (v.toNat % 2 ^ (8 * n)))
  | y => y

/-- A load of `n` bytes at `a`, within 8 aligned bytes, by a requester: Absent where nothing answers, with the entry of an unmapped
address (01 R13); Absent after a denial by a group's unit (15 R397). -/
def State.busRead (s : State) (r : Req) (a n : Nat) : State × RdAns :=
  if s.isUnmapped r.pid.toNat a then (s.logUnmapped r.unit.toNat r.pid.toNat r.world a, .absent)
  else if a < 0x80000000 then
    let x := s.ioReadN r.unit.toNat r.pid.toNat r.world a n
    (x.1, match x.2.2 with
      | none => .val (BitVec.ofNat 64 (ofBytes x.2.1))
      | some (_, .absent) => .absent
      | some (_, .poison) => .poison
      | some (_, .denied) => .denied)
  else if !s.answers a then (s, .absent)
  else if !s.groupPasses r a false then (s.groupDenied r a false, .absent)
  else let x := s.blockRead r a n; (x.1, x.2.cut n)

/-! ### Writes -/

/-- A write of a register that has a rule of its own here; the others follow `regWrite`. -/
def State.regStore (s : State) (r : Req) (rg : Reg) (a n : Nat) (v : W64) : State :=
  let o := a % 8
  let no := s.refuse r (unitAt a) a 0
  match rg.kind with
  | .laycmd => s.writeLaycmd r n v
  | .svarg => if slotServes r rg.i then s.writePlain r rg o n v else no
  | .svcmd => s.writeSvcmd r rg.i n v
  | .svres => if slotServes r rg.i then s else no
  | .dbbits => if isHost r || r.pid.toNat = rg.j then s.writePlain r rg o n v else no
  | .dbring => if isHost r then s.ring rg.i rg.j (if o < 4 then v.toNat * 2 ^ (8 * o) % 2 ^ (8 * (o + n)) else 0) else no
  | .tswin => s.writeTswin r rg.i o n v
  | .tsstat => s
  | .rstcmd => if isHost r then (if keyedOk rg n v then s.rstcmd r else s.reject r rg) else no
  | .rstreq => s.writeRstreq r rg.i n v
  | .rstreqs => if r.pid.toNat = rg.i then s else no
  | .lcdctl => s.writeLcdctl r n v
  | .lcdtrc => s.writeLcdtrc r rg.i (s.merged rg o n v)
  | .lcdtrb => s.writeLcdtrb r rg.i o n v
  | .lcdsafe => s.trustWrite r rg o n v
  | .talcfg | .talbuf | .talri | .talstat | .talmask | .talsel | .talblk | .talbv | .talacc | .talview => s.writeTal r rg o n v
  | .vnstat | .vnint | .vnin | .vnxcmd | .vnxstat | .vnhlth => s.writeVn r rg o n v
  | _ => s.regWrite r rg a n v

/-- A write of `n` bytes at `a` in a block that answers, at a mapped address. `otp`: the slots of the OTP window that take it, for a debug
port at reach ALL. -/
def State.blockStore (s : State) (r : Req) (otp : List Nat) (a n : Nat) (v : W64) : State :=
  match msecAt a, otpAt a, elogAt a, s.lmemAt a with
  | some k, _, _, _ =>
    if r.pid = 255 then { s with st := { s.st with msec := KV.setAll 0 s.st.msec k (toBytes n v.toNat) } } else s.refuse r (phyUnit 31) a 0
  | _, some k, _, _ => s.otpWrite r otp k (toBytes n v.toNat)
  | _, _, some _, _ => if isHost r then s else s.refuse r 0x7F0 a 0
  | _, _, _, some (l, o) => s.writeWindowLmem l o a (toBytes n v.toNat)
  | _, _, _, _ =>
    if inWindow a || inRtTable a || (mailAt a).isSome then s.blockWrite r a n v
    else match s.regAt (a / 8 * 8) with
      | some rg => s.regStore r rg a n v
      | none => s

/-- A write of `n` bytes at `a`, within 8 aligned bytes; whether it was performed, or refused with an entry: false for Absent. -/
def State.busWrite (s : State) (r : Req) (otp : List Nat) (a n : Nat) (v : W64) : State × Bool :=
  if s.isUnmapped r.pid.toNat a || (0x80000000 ≤ a && !s.answers a) then (s, false)
  else if a < 0x80000000 then
    let x := s.ioWriteN r.unit.toNat r.pid.toNat r.world a (toBytes n v.toNat)
    (x.1, x.2.isNone)
  else if !s.groupPasses r a true then (s.groupDenied r a true, false)
  else (s.blockStore r otp a n v, true)

/-- REGISTER_WRITE: an aligned write of 1, 2, 4 or 8 bytes; one that receives Absent follows the lost-store path. -/
def State.registerWrite (s : State) (r : Req) (a n : Nat) (v : W64) : State :=
  let x := s.busWrite r [] (a / n * n) n v
  if x.2 then x.1 else x.1.loseStore r (a / n * n)

def execRegisterWrite (r : Req) (a : PAddr) (sz : ASize) (v : W64) (s : State) : Result :=
  .next (s.registerWrite r a.toNat (bytesOf sz) v)

end Sys2Proof.Machine
end

