-- ==== Sys2Proof/Machine/Calls.lean ====
section
/-! DEFINITION. CALLM, CALLMR and RETM (04 R110-R112), the return stack (05 R140, R141). -/
namespace Sys2Proof.Machine

/-- The registers a mask names, in ascending order: bit i names g(16 + i) (03 R67). -/
def maskRegs (mask : Nat) : List Nat :=
  (List.range 15).filterMap (fun i => if mask / 2 ^ i % 2 = 1 then some (16 + i) else none)

/-- The stack pointer. -/
def Core.sp (c : Core) : W64 := c.greg 31

/-- Push a return address (05 R140). -/
def Core.rasPush (c : Core) (a : W64) : Core :=
  let t := c.pred.top + 1
  { c with pred := { c.pred with top := t, ras := KV.set 0 c.pred.ras t.toNat (a.truncate 48) } }

/-- The address the return stack predicts, and the core with it popped. -/
def Core.rasPop (c : Core) : W64 × Core :=
  (sext 48 (KV.get 0 c.pred.ras c.pred.top.toNat).toNat, { c with pred := { c.pred with top := c.pred.top - 1 } })

/-- The aligned words of a frame at `a`, checked before the first access: watchpoints over all of it, translation, Firebreak
(04 R112). -/
def State.checkFrame (s : State) (e : Engine) (pc a : W64) (words : Nat) (need : Need) : Checked :=
  let c := s.core e
  match c.watch e a (8 * words) (need == .read) (need == .write) with
  | some w => .exc (Exc.of 0x0F w pc)
  | none =>
    match s.xlateParts e need pc ((List.range words).map (fun i => (a + BitVec.ofNat 64 (8 * i), 8))) with
    | .ok ps => (match s.deniedPart e need ps with
      | some (w, _) => .exc (denialExc 1 w pc)
      | none => .ok ps)
    | r => r

/-- The words of the frame a CALLM pushes, from the lowest address: return address, frame word, registers ascending. -/
def Core.frameWords (c : Core) (ret : W64) (mask : Nat) : List W64 :=
  [ret, BitVec.ofNat 64 mask] ++ (maskRegs mask).map c.greg

/-- Stack limit of CALLM: EVAL is the lowest address the frame would occupy, or sp when it is misaligned (04 R112; when both
hold the limit is reported, log entry 36). -/
def Core.stackFault (c : Core) (n : Nat) : Option W64 :=
  let size := 8 * (n + 2)
  if c.sp.toNat < size || c.sp.toNat - size < (c.creg 2).toNat then some (c.sp - BitVec.ofNat 64 size)
  else if c.sp.toNat % 8 != 0 then some c.sp
  else none

/-- The call itself: sp, the return stack, the pc, and the cost. -/
def Core.callTo (c : Core) (e : Engine) (on : Bool) (ret dest sp : W64) (n : Nat) : Core :=
  let k := (if isJug e then 4 else 2) + (n + 1) / 2
  let d := (c.put false 31 sp k).goTo dest
  (if isJug e then d else d.rasPush ret).cost on false k

/-- CALLM and CALLMR to a target (04 R110). DESIGN CHOICE: one that raises an exception leaves no push of its F2 on the return stack, nor a
RETM its pop; the spec names a restoration after a misprediction only (05 R140, R141; log entry 168). -/
def State.call (s : State) (x : Iss) (mask : Nat) (target : Core → W64) : State :=
  s.issue x .s .all false none (fun s =>
    let e := x.eng
    let c := s.core e
    let n := (maskRegs mask).length
    let ret := c.pc + BitVec.ofNat 64 x.len.val
    let sp := c.sp - BitVec.ofNat 64 (8 * (n + 2))
    let ws := c.frameWords ret mask
    match c.stackFault n with
    | some a => s.raise e (Exc.of 0x10 a c.pc)
    | none =>
      if isJug e then
        match jugBeyond sp (8 * (n + 2)) with
        | some a => s.raise e (Exc.of 6 a c.pc)
        | none =>
          let s1 := s.setCore e ((s.entered x .s).callTo e false ret (target c) sp n)
          s1.jugWrite e sp.toNat (ws.flatMap (fun w => toBytes 8 w.toNat))
      else
        match s.checkFrame e c.pc sp (n + 2) .write with
        | .ok ps =>
          let on := s.talFor e
          let s1 := s.setCore e (c.promoteParts e on ps)
          let d := (s1.entered x .s).callTo e on ret (target c) sp n
          let es := (ps.zip ws).reverse.map (fun p => s1.entryOf e p.1.2.2 (toBytes 8 p.2.toNat) false false)
          let d1 := d.buffer on es
          (s1.setCore e (d1.shield on (ps.any (fun p => d1.windowHit e p.2.2 8)))).traced e 1 0
        | r => s.stopAt e .write r)

def execCallm (x : Iss) (disp : W64) (mask : BitVec 15) (s : State) : Result :=
  .next (s.call x mask.toNat (fun c => c.pc + disp))
def execCallmr (x : Iss) (src1 : Fin 32) (mask : BitVec 15) (s : State) : Result :=
  .next (s.call x mask.toNat (fun c => c.greg src1.val))

/-- The return itself: registers from the frame, sp, the pc, and the cost by the return stack's prediction (04 R111). A RETM that the return
stack mispredicts restores it from the RETM's own checkpoint, taken before its pop (05 R141; log entry 37). -/
def Core.returnWith (c : Core) (e : Engine) (on : Bool) (sp : W64) (mask : Nat) (ws : List W64) : Core :=
  let rs := maskRegs mask
  let n := rs.length
  let k := (if isJug e then 5 else 3) + (n + 1) / 2
  let ret := ws.getD 0 0
  let c1 := (rs.zip (ws.drop 2)).foldl (fun d p => d.put false p.1 p.2 k) c
  let c2 := (c1.put false 31 (sp + BitVec.ofNat 64 (8 * (n + 2))) k).goTo ret
  if isJug e then c2.cost false false k
  else
    let p := c2.rasPop
    if p.1 == ret then p.2.cost on false k
    else
      let c3 := c2.cost on false k
      ({ c3 with nxt := c3.nxt + 6 }.oweWasted on 6).count on 6 1

/-- The words of parts that are all there. -/
def partWords (ps : List Piece) : List W64 := ps.map (fun p => BitVec.ofNat 64 (ofBytes (p.got.getD [])))

/-- RETM goes on: first the return address and the frame word, then, once the frame is known, all of it is checked before the rest is read
(04 R111, R112). Poison is raised after those checks (04 R98), but for a frame word that is itself poisoned and names no frame. -/
def State.resumeRet (s : State) (e : Engine) (a : PendAcc) (full again : Bool) : State :=
  let on := s.talFor e
  let finish := fun (t : State) (ps : List Piece) (cost : Nat) =>
    let t1 := t.setCore e { t.core e with frozen := none }
    match poisoned ps with
    | some va => t1.raise e (Exc.of 9 va (t1.core e).pc)
    | none =>
      (t1.setCore e (((t1.entered a.iss .s).returnWith e on (t1.core e).sp (bitsOf ((partWords ps).getD 1 0) 14 0) (partWords ps)).oweBack on cost)).traced
        e 1 0
  let r := s.serveParts e a.pid a.world false again a.pieces
  let cost := a.extra + r.2.2
  match missing r.2.1 with
  | some _ => r.1.holdAccess e { a with pieces := r.2.1, kind := .ret full, extra := cost, asked := true } false
  | none =>
    let c := r.1.core e
    let n := (maskRegs (bitsOf ((partWords r.2.1).getD 1 0) 14 0)).length
    if full || n = 0 || (r.2.1[1]?.bind (·.poison)).isSome then finish r.1 r.2.1 cost
    else
      match r.1.checkFrame e c.pc c.sp (n + 2) .read with
      | .ok ps =>
        let s1 := r.1.setCore e (c.promoteParts e on ps)
        let q := s1.serveParts e a.pid a.world false false (r.2.1 ++ piecesOf (ps.drop 2))
        (match missing q.2.1 with
        | some _ => q.1.holdAccess e { a with pieces := q.2.1, kind := .ret true, extra := cost + q.2.2, asked := true } false
        | none => finish q.1 q.2.1 (cost + q.2.2))
      | k => (r.1.setCore e { r.1.core e with frozen := none }).stopAt e .read k

/-- RETM. -/
def execRetm (x : Iss) (s : State) : Result :=
  .next (s.issue x .s .all false none (fun s =>
    let e := x.eng
    let c := s.core e
    if c.sp.toNat % 8 != 0 then s.raise e (Exc.of 0x10 c.sp c.pc)
    else if isJug e then
      match jugBeyond c.sp 16 with
      | some a => s.raise e (Exc.of 5 a c.pc)
      | none =>
        let word := fun (i : Nat) => BitVec.ofNat 64 (ofBytes (s.jugRead e false (c.sp.toNat + 8 * i) 8).1)
        let mask := bitsOf (word 1) 14 0
        let n := (maskRegs mask).length
        match jugBeyond c.sp (8 * (n + 2)) with
        | some a => s.raise e (Exc.of 5 a c.pc)
        | none =>
          if (s.jugRead e false c.sp.toNat (8 * (n + 2))).2 then s.raise e (Exc.of 9 c.sp c.pc)
          else s.setCore e ((s.entered x .s).returnWith e false c.sp mask ((List.range (n + 2)).map word))
    else
      match s.checkFrame e c.pc c.sp 2 .read with
      | .ok ps =>
        let s1 := s.setCore e (c.promoteParts e (s.talFor e) ps)
        s1.resumeRet e { kind := .ret false, pieces := piecesOf ps, upd := none, rep := false, iss := x, old := false, pid := c.pid e,
                         world := s.worldOf e, late := none, extra := 0, asked := false } false false
      | r => s.stopAt e .read r))

/-- LOAD_DATA_ARRIVAL: an access that holds the core goes on as far as its data are there, and ends when all are (05 R131). -/
def execLoadDataArrival (eng : Engine) (s : State) : Result :=
  .next (match (s.core eng).frozen with
    | some (.access a) =>
      let t := match a.kind with
        | .ret full => s.resumeRet eng a full true
        | _ => s.resumeAccess eng a true
      if (t.core eng).frozen.isNone then t.freezeEnd eng false else t
    | _ => s)

end Sys2Proof.Machine
end

