-- ==== Sys2Proof/Machine/CtrlRegs.lean ====
section
/-! DEFINITION. MFCR and MTCR (04 R93, R115, R120; 06 R165, R166), mode shadows (05 R153), claims through control registers. -/
namespace Sys2Proof.Machine

/-- The rights of U, S and H on a control register: 0 none, 1 read, 2 write, 3 both (06 Table 1). -/
structure CrRow where
  u : Nat
  s : Nat
  h : Nat
  mode : Bool
deriving DecidableEq, Repr

/-- 06 Table 1. -/
def crRow : Nat → Option CrRow
  | 0x01 => some ⟨0, 3, 3, true⟩
  | 0x02 => some ⟨1, 3, 3, false⟩
  | 0x03 => some ⟨0, 1, 1, false⟩
  | 0x08 => some ⟨0, 3, 3, false⟩
  | 0x09 => some ⟨0, 3, 3, false⟩
  | 0x0A => some ⟨0, 3, 3, false⟩
  | 0x0B => some ⟨0, 3, 3, false⟩
  | 0x0C => some ⟨0, 3, 3, false⟩
  | 0x10 => some ⟨0, 3, 3, true⟩
  | 0x20 => some ⟨3, 3, 3, true⟩
  | 0x21 => some ⟨3, 3, 3, false⟩
  | 0x30 => some ⟨1, 1, 1, false⟩
  | 0x31 => some ⟨0, 3, 3, false⟩
  | 0x32 => some ⟨0, 3, 3, false⟩
  | 0x38 => some ⟨0, 3, 3, true⟩
  | 0x39 => some ⟨0, 1, 1, false⟩
  | 0x3A => some ⟨0, 2, 2, false⟩
  | 0x40 => some ⟨0, 0, 3, false⟩
  | 0x41 => some ⟨0, 0, 3, false⟩
  | 0x42 => some ⟨0, 0, 3, false⟩
  | 0x43 => some ⟨0, 0, 3, false⟩
  | 0x44 => some ⟨0, 0, 3, false⟩
  | 0x45 => some ⟨0, 0, 1, false⟩
  | 0x48 => some ⟨0, 0, 3, true⟩
  | 0x49 => some ⟨0, 0, 3, true⟩
  | 0x4A => some ⟨0, 0, 3, true⟩
  | 0x4B => some ⟨0, 0, 3, false⟩
  | 0x50 => some ⟨0, 0, 3, false⟩
  | 0x51 => some ⟨0, 0, 3, false⟩
  | 0x58 => some ⟨0, 0, 3, true⟩
  | 0x59 => some ⟨0, 0, 1, false⟩
  | 0x5A => some ⟨0, 0, 2, false⟩
  | 0x60 => some ⟨0, 3, 3, false⟩
  | 0x61 => some ⟨0, 3, 3, false⟩
  | 0x62 => some ⟨0, 3, 3, false⟩
  | 0x63 => some ⟨0, 3, 3, false⟩
  | _ => none

/-- The fields software may write, with their allowed values; `h`: only at H. -/
structure CrField where
  hi : Nat
  lo : Nat
  h  : Bool
  ok : List (Nat × Nat)
deriving DecidableEq, Repr

/-- A whole 64-bit register. -/
def crWhole : List CrField := [⟨63, 0, false, []⟩]

/-- The writable fields of the control registers that are not keyed. -/
def crFields : Nat → List CrField
  | 0x01 => [⟨9, 9, true, []⟩, ⟨8, 7, true, [(0, 2)]⟩, ⟨6, 6, false, []⟩, ⟨5, 4, false, [(0, 1)]⟩, ⟨3, 3, true, []⟩, ⟨2, 2, false, []⟩]
  | 0x08 => [⟨63, 8, false, []⟩]
  | 0x40 => [⟨63, 8, false, []⟩]
  | 0x0A => [⟨63, 63, false, []⟩, ⟨59, 48, false, []⟩, ⟨37, 32, false, []⟩, ⟨27, 25, false, []⟩, ⟨24, 24, false, []⟩, ⟨23, 16, false, []⟩, ⟨7, 0, false, []⟩]
  | 0x42 => [⟨63, 63, false, []⟩, ⟨59, 48, false, []⟩, ⟨37, 32, false, []⟩, ⟨28, 28, false, []⟩, ⟨27, 25, false, []⟩, ⟨24, 24, false, []⟩, ⟨23, 16, false, []⟩, ⟨7, 0, false, []⟩]
  | 0x10 => [⟨63, 48, false, []⟩, ⟨39, 12, false, []⟩, ⟨1, 0, false, [(0, 1)]⟩]
  | 0x4A => [⟨39, 12, false, []⟩, ⟨1, 0, false, [(0, 1)]⟩]
  | 0x20 => [⟨14, 12, false, [(0, 4)]⟩, ⟨9, 0, false, []⟩]
  | 0x32 => [⟨13, 8, false, []⟩, ⟨0, 0, false, []⟩]
  | 0x51 => [⟨13, 8, false, []⟩, ⟨0, 0, false, []⟩]
  | 0x38 => [⟨5, 0, false, []⟩]
  | 0x58 => [⟨13, 8, false, []⟩, ⟨5, 0, false, []⟩]
  | 0x4B => [⟨16, 14, false, []⟩, ⟨12, 8, false, []⟩, ⟨6, 1, false, []⟩]
  | 0x61 => [⟨15, 15, false, []⟩, ⟨11, 6, false, [(0, 47)]⟩, ⟨5, 5, true, []⟩, ⟨4, 0, false, []⟩]
  | 0x63 => [⟨15, 15, false, []⟩, ⟨11, 6, false, [(0, 47)]⟩, ⟨5, 5, true, []⟩, ⟨4, 0, false, []⟩]
  | 0x03 => []
  | 0x30 => []
  | 0x39 => []
  | 0x45 => []
  | 0x59 => []
  | _ => crWhole

/-- A write field by field: a reserved value keeps the old one (00_scope R3). -/
def crMerge (atH : Bool) (old v : W64) (fs : List CrField) : W64 :=
  fs.foldl (fun w f => if (f.h && !atH) || !inRanges f.ok (bitsOf v f.hi f.lo) then w else withBits w f.hi f.lo (bitsOf v f.hi f.lo)) old

/-- The value of a register that reading does not change, as a reader at H or above sees it (`atH`), or one at S or U. -/
def State.crShow (s : State) (e : Engine) (atH : Bool) (n : Nat) : W64 :=
  let c := s.core e
  match n with
  | 0x01 =>
    let m := if isTrust e then withBits (c.creg 1) 1 0 3 else c.creg 1
    if atH then m else withBits (withBits m 9 7 0) 3 3 0
  | 0x03 => (match e with
    | .lcore l => BitVec.ofNat 64 (l.val + c.cluster * 256 + c.lead * 4096)
    | _ => 0)
  | 0x30 => s.mtime
  | 0x3A => 0
  | 0x5A => 0
  | 0x61 => if atH then c.creg n else withBits (c.creg n) 5 5 0
  | 0x63 => if atH then c.creg n else withBits (c.creg n) 5 5 0
  | _ => c.creg n

/-- The value MFCR reads of it. -/
def State.crRead (s : State) (e : Engine) (n : Nat) : W64 := s.crShow e (2 ≤ (s.core e).level e) n

/-- Whether HCTX accepts a partition on a core: 0, or a PID whose run set holds the core, on a core of the trusted world when
its PART record has world 1 (14 R369, 15 R401). The Trust Core's PID is fixed. -/
def State.hctxTakes (s : State) (e : Engine) (p : Nat) : Bool :=
  match e with
  | .lcore l =>
    p = 0 || (p < 255 && s.bitIn (.ptcore p (l.val / 64)) Fld.ptcoreCores (l.val % 64)
      && (!s.pidWorld p || s.bitIn (.clworld (s.lc l.val).cluster) Fld.clworldTcore (s.windowOf l.val)))
  | _ => false

/-- Clean and invalidate an L1D, and invalidate the L1I, of a core (15 R401). -/
def State.flushL1 (s : State) (l : Nat) : State :=
  let c := (s.lc l).cluster
  let lines := (List.range 64).flatMap (fun set => (List.range 8).filterMap (fun w =>
    let d := s.lineAt (128 + l) set w
    if d.st = .i then none else some d.line))
  let s1 := lines.foldl (fun t n => (t.mergeL1 c n).dropL1 (128 + l) n) s
  { s1 with lines := s1.lines.filter (fun e => e.1 / 65536 != l) }

/-- A keyed control register rejects a write: an entry of class contained names the core and the register's number (00_scope R6). -/
def State.rejectCr (s : State) (e : Engine) (n : Nat) : State :=
  s.log (s.unitOf e) clsContained ((s.core e).pid e) (s.worldOf e) n 0

/-- A write of HCTX: rejected, or the pair with the flush of a world change. -/
def State.putHctx (s : State) (e : Engine) (v : W64) : State :=
  let c := s.core e
  let p := bitsOf v 7 0
  if !pairOk v || bitsOf v 31 8 != 0 || !s.hctxTakes e p then s.rejectCr e 0x48
  else
    let change := s.pidWorld p != s.pidWorld (bitsOf (c.creg 0x48) 7 0)
    let same := p == bitsOf (c.creg 0x48) 7 0
    let s1 := s.setCore e { c.setCreg 0x48 v with stride := if same then c.stride else [] }
    if !change then s1
    else
      let s2 := match e with
        | .lcore l => s1.flushL1 l.val
        | _ => s1
      (s2.setCore e { s2.core e with pred := Pred.reset }).freezeEnd e false

/-- A write of a control register by a writer at H or above (`atH`), or at S or U. -/
def State.crStore (s : State) (e : Engine) (atH : Bool) (n : Nat) (v : W64) : State :=
  let c := s.core e
  match n with
  | 0x21 => if bitOf v 0 then s.setCore e (c.setCreg 0x21 (withBits (c.creg 0x21) 0 0 0)) else s
  | 0x3A => s.endIrq e false (bitsOf v 11 0)
  | 0x5A => s.endIrq e true (bitsOf v 11 0)
  | 0x48 => s.putHctx e v
  | 0x49 => if pairOk v && !bitOf v 0 && bitsOf v 31 28 == 0 then s.setCore e (c.setCreg 0x49 v) else s.rejectCr e 0x49
  | _ => s.setCore e (c.setCreg n (crMerge atH (c.creg n) v (crFields n)))

/-- The effect of MTCR on a register, the shadow apart. -/
def State.crWrite (s : State) (e : Engine) (n : Nat) (v : W64) : State := s.crStore e (2 ≤ (s.core e).level e) n v

/-- The remaining cycles MFCR and MTCR on FSTAT wait (04 R93). -/
def Core.fstatWait (c : Core) : Nat := c.fpEnd + 1 - c.cyc

/-- The check of a control-register number: RSV_VALUE where the engine has none of it (03 R67, 04 R120). -/
def crCheck (e : Engine) (n : Nat) : Option Nat :=
  if isJug e then (if n = 2 || n = 3 || n = 0x30 then none else some subValue)
  else if (crRow n).isSome then none else some subValue

/-- The right of an engine on a register: read (bit 0), write (bit 1). The Trust Core has those of H (04 R115). -/
def Core.crRight (c : Core) (e : Engine) (n : Nat) : Nat :=
  match crRow n with
  | none => 0
  | some r => match c.level e with
    | 0 => r.u
    | 1 => r.s
    | _ => r.h

/-- JID of a Juggler: k, gg and the position it serves (04 R120); the position number is `pos`. -/
def jidWord (e : Engine) (pos : Nat) : W64 :=
  match e with
  | .juggler g k => BitVec.ofNat 64 (k.val + g.val * 256 + pos * 65536)
  | _ => 0

/-- The position a Juggler serves; one that serves none reads 0. -/
def State.jugPos (s : State) (e : Engine) : Nat := (s.served e).getD 0

/-- MFCR (04 R115). -/
def State.mfcr (s : State) (x : Iss) (d : Fin 32) (n : Nat) : State :=
  s.issue x .s .all false (crCheck x.eng n) (fun s =>
    let e := x.eng
    let c := s.core e
    if isJug e then
      let v := if n = 2 then c.creg 2 else if n = 3 then jidWord e (s.jugPos e) else s.mtime
      s.setCore e ((s.entered x .s).put false d.val v (if n = 0x30 then 1 else 2))
    else if c.crRight e n = 0 then s.raise e (Exc.of 2 0 c.pc)
    else
      let d0 := s.entered x .s
      if n = 0x39 || n = 0x59 then
        let r := s.claimIrq e (n = 0x59)
        let d1 := { d0 with privPend := (r.1.core e).privPend, privAct := (r.1.core e).privAct }
        r.1.setCore e (d1.put false d.val r.2 2)
      else if n = 0x20 then
        let k := 1 + d0.fstatWait
        s.setCore e ((d0.put false d.val (c.creg 0x20) k).cost (s.talFor e) false k)
      else s.setCore e (d0.put false d.val (if c.crRight e n = 2 then 0 else s.crRead e n) 2))

/-- MTCR (04 R115): a mode-bearing register opens a shadow of three instructions under the old registers (05 R153). -/
def State.mtcr (s : State) (x : Iss) (n : Nat) (a : Fin 32) : State :=
  s.issue x .s .all false (crCheck x.eng n) (fun s =>
    let e := x.eng
    let c := s.core e
    let v := c.greg a.val
    if isJug e then
      let d := s.entered x .s
      s.setCore e (if n = 2 then d.setCreg 2 v else d)
    else if c.crRight e n = 0 then s.raise e (Exc.of 2 0 c.pc)
    else
      let d0 := s.entered x .s
      let d1 := if n = 0x20 then d0.cost (s.talFor e) false (1 + d0.fstatWait) else d0
      let s1 := s.setCore e d1
      let s2 := if c.crRight e n = 1 then s1 else s1.crWrite e n v
      match crRow n with
      | some r => if r.mode && c.crRight e n ≠ 1 then s2.setCore e { s2.core e with shadow := 3, oldCr := c.cr } else s2
      | none => s2)

def execMfcr (x : Iss) (dst : Fin 32) (n : BitVec 16) (s : State) : Result := .next (s.mfcr x dst n.toNat)
def execMtcr (x : Iss) (n : BitVec 16) (src1 : Fin 32) (s : State) : Result := .next (s.mtcr x n.toNat src1)
/-- MTCR to HCTX, number 0x0048. -/
def execHctxWrite (x : Iss) (src1 : Fin 32) (s : State) : Result := .next (s.mtcr x 0x48 src1)
/-- MFCR of ICLAIM, number 0x0039. -/
def execIclaim (x : Iss) (dst : Fin 32) (s : State) : Result := .next (s.mfcr x dst 0x39)
/-- MFCR of HICLAIM, number 0x0059. -/
def execHiclaim (x : Iss) (dst : Fin 32) (s : State) : Result := .next (s.mfcr x dst 0x59)
/-- MTCR to IEOI, number 0x003A. -/
def execIeoi (x : Iss) (src1 : Fin 32) (s : State) : Result := .next (s.mtcr x 0x3A src1)
/-- MTCR to HIEOI, number 0x005A. -/
def execHieoi (x : Iss) (src1 : Fin 32) (s : State) : Result := .next (s.mtcr x 0x5A src1)

end Sys2Proof.Machine
end

