-- ==== Sys2Proof/Machine/Remote.lean ====
section
/-! DEFINITION. Device and Remote accesses on the fabric (08 R241, R246, 10 R272), the remote windows on both sides (22 R533-R535), and
the start of a time-slot frame (10 R280). -/
namespace Sys2Proof.Machine

/-! ### The requester's side of the trunk (22 R533, R535) -/

/-- The payload of a remote frame (22 Table 2). -/
def remoteBytes (cmd src dst tag off mask : Nat) (data : List Byte) : List Byte :=
  toBytes 1 cmd ++ toBytes 1 (src % 8 + dst % 8 * 16) ++ toBytes 2 tag ++ toBytes 5 (off % 2 ^ 36) ++ toBytes 8 mask ++ toBytes 7 0
    ++ padTo 64 0 data

/-- A message put in the queue of what leaves the module. -/
def State.sendOut (s : State) (x : Sent) : State := { s with vn := { s.vn with outbox := s.vn.outbox ++ [x] } }

/-- Group 31 sends a request of a remote window in one frame, and waits for its response. -/
def State.remoteOut (s : State) (m : Msg) (d : Nat) : State :=
  let off := m.addr % 2 ^ 36
  let tag := s.vn.nextTag % 65536
  let data := if m.kind = .dwr then List.replicate (off % 64) 0 ++ m.data else []
  let s1 := s.sendOut (.remote d (remoteBytes (if m.kind = .dwr then 0x21 else 0x20) s.otp.slot d tag off (maskAt (off % 64) m.mask) data))
  { s1 with vn := { s1.vn with nextTag := (tag + 1) % 65536, remotes := s1.vn.remotes ++ [⟨tag, d, m, s.mtime⟩] } }

/-- The answer to a device request: from the block's attachment to the requester's. -/
def State.devAnswer (s : State) (m : Msg) (kind : MsgKind) (data : List Byte) (refused : Bool) : State :=
  s.send { m with kind := kind, src := m.dst, dst := m.src, data := data, refused := refused }

/-- A response frame, or Absent in its place; one that comes late is dropped. -/
def State.remoteBack (s : State) (tag : Nat) (data : Option (List Byte)) : State :=
  match s.vn.remotes.find? (fun x => x.tag == tag) with
  | none => s
  | some x =>
    let s1 := { s with vn := { s.vn with remotes := s.vn.remotes.erase x } }
    match data with
    | none => s1.devAnswer x.msg .absent [] false
    | some bs => s1.devAnswer x.msg .drsp (if x.msg.kind = .drd then (bs.drop (x.msg.addr % 64)).take x.msg.mask else []) false

/-- REMOTE_RESPONSE_TIMEOUT: 30 µs after the request left. -/
def execRemoteResponseTimeout (tag : BitVec 16) (s : State) : Result :=
  .next (match s.vn.remotes.find? (fun x => x.tag == tag.toNat) with
    | some x => if s.mtime.toNat < x.left.toNat + 30000 then s else s.remoteBack tag.toNat none
    | none => s)

/-! ### The target's side (22 R534) -/

/-- The unit ID of the trunk group's router. -/
def trunkUnit : Nat := 0x300 + 31 * 8 + 5

/-- Whether a write to the mailbox pool or MSGIRQ is one its register accepts from a partition. -/
def State.remoteTakes (s : State) (p a v : Nat) : Bool :=
  match mailAt a with
  | some (m, o) => epPid (s.mbSep m) == some p && (0x40 ≤ o || (0x18 ≤ o && o < 0x20 && m != 1023))
  | none => s.msgTakes p ((a - 0x0900000000) / 0x100000) (v % 4096)

/-- The bytes that a mask selects, the others zero. -/
def masked (mask : Nat) (bs : List Byte) : List Byte :=
  (List.range 64).map (fun i => if mask / 2 ^ i % 2 = 1 then bs.getD i 0 else 0)

/-- The first byte of a mask and its count of bytes, when they are contiguous and lie within 8 aligned bytes. -/
def maskRun (mask : Nat) : Option (Nat × Nat) :=
  match lowBit 64 mask with
  | some k =>
    let n := popCount 64 mask
    if mask = maskAt k n && k % 8 + n ≤ 8 then some (k, n) else none
  | none => none

/-- Perform a remote request with the PID that VNIN gives its source: the data of the response, or none for Absent. A request
refused is logged with class contained. -/
def State.remoteServe (s : State) (f : RemoteFrame) : State × Option (List Byte) :=
  let vin := Reg.vnin f.source.val
  let pid := s.fld vin Fld.vninPid
  let off := f.offset.toNat
  let line := off / 64
  let mask := f.mask.toNat
  let refused := fun (t : State) => (t.log trunkUnit clsContained pid false (off % 2 ^ 40) 0, none)
  if !s.flag vin Fld.vninEn || !remoteOffset off || mask = 0 then refused s
  else if off < 0x80000000 then
    match s.lineFail pid false f.write (line * 64) with
    | some .denied => (s.failNote trunkUnit pid false f.write (line * 64) .denied, none)
    | some _ => refused s
    | none =>
      if f.write then (s.lineWriteMask line mask (padTo 64 0 f.data) 0, some [])
      else
        let x := s.lineGet line
        if (List.range 64).any (fun i => mask / 2 ^ i % 2 == 1 && x.2.2.getLsbD (i / 8)) then refused x.1
        else (x.1, some (masked mask x.2.1))
  else match maskRun mask with
    | none => refused s
    | some (k, n) =>
      let a := line * 64 + k
      let r : Req := ⟨BitVec.ofNat 8 pid, false, BitVec.ofNat 12 trunkUnit, none⟩
      if f.write then
        let v := ofBytes ((f.data.drop k).take n)
        if !s.remoteTakes pid a v then refused s
        else
          let x := s.busWrite r [] a n (BitVec.ofNat 64 v)
          if x.2 then (x.1, some []) else refused x.1
      else
        let x := s.busRead r a n
        match x.2 with
        | .val v => (x.1, some (List.replicate k 0 ++ toBytes n v.toNat))
        | _ => refused x.1

/-- REMOTE_REQUEST: a frame for another module is relayed; an isolated module, or one whose group 31 is off, serves none. -/
def State.remoteIn (s : State) (f : RemoteFrame) : State :=
  let own := s.otp.slot
  let bytes := fun (cmd src dst : Nat) (data : List Byte) => remoteBytes cmd src dst f.tag.toNat f.offset.toNat f.mask.toNat data
  if !s.alive 47 || s.vnRole = 3 then s
  else if f.target.val ≠ own then
    s.sendOut (.remote f.target.val (bytes (if f.write then 0x21 else 0x20) f.source.val f.target.val (if f.write then f.data else [])))
  else
    let x := s.remoteServe f
    match x.2 with
    | some d => x.1.sendOut (.remote f.source.val (bytes 0x22 own f.source.val d))
    | none => x.1.sendOut (.remote f.source.val (bytes 0x10 own f.source.val []))

def execRemoteRequest (f : RemoteFrame) (s : State) : Result := .next (s.remoteIn f)

/-- A remote frame by its bytes: a request, a response, Absent. -/
def State.remoteFrame (s : State) (b : List Byte) : State :=
  let at_ := fun (i n : Nat) => ofBytes ((b.drop i).take n)
  let cmd := at_ 0 1
  let f : RemoteFrame :=
    { write := cmd == 0x21
      source := Fin.ofNat 8 (at_ 1 1)
      target := Fin.ofNat 8 (at_ 1 1 / 16)
      tag := BitVec.ofNat 16 (at_ 2 2)
      offset := BitVec.ofNat 36 (at_ 4 5)
      mask := BitVec.ofNat 64 (at_ 9 8)
      data := (b.drop 24).take 64 }
  if cmd = 0x20 || cmd = 0x21 then s.remoteIn f
  else if !s.alive 47 || s.vnRole = 3 then s
  else if f.target.val ≠ s.otp.slot then s.sendOut (.remote f.target.val (b.take 88))
  else if cmd = 0x22 then s.remoteBack f.tag.toNat (some f.data)
  else if cmd = 0x10 then s.remoteBack f.tag.toNat none
  else s

/-- ETHERNET_FRAME_RECEIVE: a frame the port accepts goes to the router; on a trunk port one of EtherType 0x88B5 is remote-window
traffic (22 R535). -/
def execEthernetFrameReceive (p : PortId) (frame : List Byte) (fcsOk secured secOk : Bool) (s : State) : Result :=
  let t := s.etherReceive p.code frame fcsOk secured secOk
  .next (if s.ifc p.code = 5 && etherKey frame = 0x88B5 * 65536 && (t.group 31).accept.length ≠ (s.group 31).accept.length
    then s.remoteFrame ((frame.drop 14).take (frame.length - 18)) else t)

/-! ### Device messages (08 R241, 10 R272) -/

/-- The engine a requester's answers go to. -/
def reqKey (r : Req) : Option Nat :=
  match r.lcore with
  | some l => some l.val
  | none => if r.pid = 255 then some 128 else none

/-- The message of a requester that is under way. -/
def State.devMsg (s : State) (k : MsgKind) (r : Req) (a tag : Nat) : Option Msg :=
  s.net.find? (fun m => m.kind == k && m.addr == a && m.tag == tag && m.pid == r.pid.toNat && m.lcore == reqKey r)

/-- Whether no earlier Device or Remote access of the same attachments is under way: the fabric keeps their order. -/
def State.devFirst (s : State) (m : Msg) : Bool :=
  s.net.find? (fun x => (x.kind == .drd || x.kind == .dwr) && x.src == m.src && x.dst == m.dst) == some m

/-- An access reaches its target: the block answers with data, an acknowledgement, a refusal, or Absent. -/
def State.devServe (s : State) (m : Msg) (r : Req) : State :=
  match s.target m.addr with
  | .remote d => if s.answers m.addr then s.remoteOut m d else s.devAnswer m .absent [] false
  | _ =>
    if m.kind = .drd then
      let x := s.busRead r m.addr m.mask
      match x.2 with
      | .val v => x.1.devAnswer m .drsp (toBytes m.mask v.toNat) false
      | .poison => x.1.send { m with kind := .drsp, src := m.dst, dst := m.src, data := [], poison := 1 }
      | .denied => x.1.devAnswer m .drsp [] true
      | .absent => x.1.devAnswer m .absent [] false
    else
      let x := s.busWrite r [] m.addr m.mask (BitVec.ofNat 64 (ofBytes m.data))
      x.1.devAnswer m (if x.2 then .drsp else .absent) [] false

/-- A message under way is taken and served; one that is not is an access whose requester waits for nothing. -/
def State.devArrives (s : State) (k : MsgKind) (r : Req) (a tag : Nat) (alone : State → State) : State :=
  match s.devMsg k r a tag with
  | none => alone s
  | some m => if !s.devFirst m then s else (s.consume (fun x => x == m)).1.devServe m r

/-- DRD: a read reaches its target block. -/
def execDrd (r : Req) (a : PAddr) (sz : ASize) (tag : BitVec 10) (s : State) : Result :=
  let b := a.toNat / bytesOf sz * bytesOf sz
  .next (s.devArrives .drd r a.toNat tag.toNat (fun t => (t.busRead r b (bytesOf sz)).1))

/-- DWR: a write reaches its target block. -/
def execDwr (r : Req) (a : PAddr) (sz : ASize) (v : W64) (tag : BitVec 10) (s : State) : Result :=
  .next (s.devArrives .dwr r a.toNat tag.toNat (fun t => t.registerWrite r a.toNat (bytesOf sz) v))

/-- A load that a target's access rules refused raises Firebreak denial (DETAIL 1). -/
def State.deniedLoad (s : State) (e : Engine) (pa : Nat) : State :=
  let c := s.core e
  match c.frozen with
  | some (.access a) =>
    (match a.pieces.find? (fun p => p.got.isNone && p.pa == pa) with
    | some p => s.setCore e (c.failAccess a (denialExc 1 p.va))
    | none => s)
  | _ => s

/-- A load whose data came back poisoned raises Data poison. -/
def State.poisonedLoad (s : State) (e : Engine) (pa : Nat) : State :=
  let c := s.core e
  match c.frozen with
  | some (.access a) =>
    (match a.pieces.find? (fun p => p.got.isNone && p.pa == pa) with
    | some p => s.setCore e (c.failAccess a (Exc.of 9 p.va))
    | none => s)
  | _ => s

/-- Read data reach the load that waits for them. -/
def State.loadBytes (s : State) (e : Engine) (pa : Nat) (bs : List Byte) : State :=
  let c := s.core e
  match c.frozen with
  | some (.access a) =>
    s.setCore e { c with frozen := some (.access { a with pieces := a.pieces.map (fun (p : Piece) =>
      if p.got.isNone && p.pa = pa then { p with got := some bs } else p) }) }
  | _ => s

/-- DRSP: read data or a write's acknowledgement return to the requester. -/
def State.devReturns (s : State) (r : Req) (a tag : Nat) : State :=
  match s.devMsg .drsp r a tag, reqKey r with
  | some m, some k =>
    let t := (s.consume (fun x => x == m)).1
    let e := engOf k
    let c := t.core e
    if m.grant = 1 then t.setCore e { c with devOut := c.devOut - 1 }
    else if m.refused then t.deniedLoad e a
    else if m.poison ≠ 0 then t.poisonedLoad e a
    else t.loadBytes e a m.data
  | _, _ => s

def execDrsp (r : Req) (a : PAddr) (tag : BitVec 10) (s : State) : Result := .next (s.devReturns r a.toNat tag.toNat)

/-! ### Time-slot frames (10 R280) -/

/-- TIME_SLOT_FRAME_START: the frame is counted, and what its rule ties to this frame start acts in every home and unit together. -/
def State.frameStart (s : State) : State :=
  if !s.powered 56 && !s.powered 57 then s
  else
    let s1 := { s with fab := { s.fab with frames := s.fab.frames + 1 } }.planSwitch
    (List.range 40).foldl (fun t u => t.firebreakSwitch u) s1

def execTimeSlotFrameStart (s : State) : Result := .next s.frameStart

end Sys2Proof.Machine
end

