-- ==== Sys2Proof/Machine/Debug.lean ====
section
/-! DEFINITION. The commands of the two debug ports (20 R491, R492, R496-R508). -/
namespace Sys2Proof.Machine

/-! ### Frames and answers (20 R496, R497) -/

/-- Status codes (20 Table 3). -/
def dbgOk : Nat := 0x00
def dbgBusy : Nat := 0x01
def dbgServiceDown : Nat := 0x13
def dbgDenied : Nat := 0x24
def dbgOff : Nat := 0x2A
def dbgCrcErr : Nat := 0x2C
def dbgBadCmd : Nat := 0x2D
def dbgNotHalted : Nat := 0x2E
def dbgAbsent : Nat := 0x2F
def dbgFault : Nat := 0x30
def dbgNoNonce : Nat := 0x31

/-- What a command comes to: the state, the status, the response payload. -/
abbrev DbgEnd := State × Nat × List Byte

/-- Whether a port answers frames: VBUS above the Off band, and the port is no test access port (20 R502, R508). -/
def State.dbgAnswers (s : State) (p : DbgPort) : Bool := s.pwr.band != 4 && !(p && s.dbg.scan)

/-- The port sends a response and keeps it; a command that runs on goes on. -/
def State.dbgReply (s : State) (p : DbgPort) (tag status : Nat) (payload : List Byte) : State :=
  let d := s.dbgPort p
  s.setDbg p { d.reply tag status payload with step := d.step }

/-- One frame: a bad CRC and a port whose command still runs turn it away; below the least reach it is denied; otherwise the command runs
to its response. -/
def State.dbgRun (s : State) (d : DbgReq) (least : Nat) (f : State → DbgEnd) : State :=
  let tag := d.tag.toNat
  if !s.dbgAnswers d.port then s
  else if !d.crcOk then s.dbgReply d.port tag dbgCrcErr []
  else if (s.dbgPort d.port).step.isSome then s.dbgReply d.port tag dbgBusy []
  else if s.reach d.port < least then s.dbgReply d.port tag dbgDenied []
  else
    let x := f s
    x.1.dbgReply d.port tag x.2.1 x.2.2

/-- An end without a payload. -/
def dbgEnd (s : State) (status : Nat) : DbgEnd := (s, status, [])

/-! ### IDENT, CHALLENGE, AUTH, DEAUTH, GETRES (20 R497-R500) -/

/-- IDENT: LCDID and LCDSTAT. -/
def execIdent (d : DbgReq) (s : State) : Result :=
  .next (s.dbgRun d reachId (fun s => (s, dbgOk, toBytes 8 s.otp.id.toNat ++ toBytes 8 s.lcdWord.toNat)))

/-- CHALLENGE: a fresh nonce replaces the port's earlier one. -/
def State.dbgChallenge (s : State) (p : DbgPort) : DbgEnd :=
  let w0 := s.takeFree
  let w1 := w0.2.takeFree
  let w2 := w1.2.takeFree
  let w3 := w2.2.takeFree
  let n := w0.1.toNat + w1.1.toNat * 2 ^ 64 + w2.1.toNat * 2 ^ 128 + w3.1.toNat * 2 ^ 192
  (w3.2.setDbg p { w3.2.dbgPort p with nonce := some (n, s.mtime) }, dbgOk, toBytes 32 n)

def execChallenge (d : DbgReq) (s : State) : Result := .next (s.dbgRun d reachId (fun s => s.dbgChallenge d.port))

/-- The valid nonce of a port. -/
def State.dbgNonce (s : State) (p : DbgPort) : Option Nat :=
  match (s.dbgPort p).nonce with
  | some (n, t) => if t.toNat + 60000000000 ≤ s.mtime.toNat then none else some n
  | none => none

/-- A token's fields (20 Table 4). -/
structure Token where
  level : Nat
  flags : Nat
  pid   : Nat
deriving DecidableEq, Repr

/-- The keys a token is verified against (20 R499). -/
def State.tokenKeys (s : State) (level key : Nat) : Option (List Byte × List Byte) :=
  if level = 3 then (if s.otpHeld 0 && s.otp.revoked % 2 = 0 then some (s.slotKeys 0) else none) else s.signerKey key

/-- The token's fields when its layout, module ID and nonce are right and its state grants its level a reach; signatures apart. -/
def State.tokenFields (s : State) (nonce : Nat) (b : List Byte) : Option Token :=
  let at_ := fun (i n : Nat) => ofBytes ((b.drop i).take n)
  let level := at_ 4 1
  let flags := at_ 5 1
  let pid := at_ 6 1
  if b.length ≠ 3453 || at_ 0 4 ≠ 0x54445A56 || level = 0 || 3 < level || 3 < flags then none
  else if (level = 1 && (pid = 0 || pid = 255)) || (level ≠ 1 && pid ≠ 0) || 3 < at_ 7 1 || (level = 3 && at_ 7 1 ≠ 0) then none
  else if at_ 8 8 ≠ s.otp.id.toNat || at_ 16 32 ≠ nonce then none
  else if (reachTable s.lifeCycle level).isNone || (level = 1 && s.pidWorld pid) then none
  else some ⟨level, flags, pid⟩

/-- A token passes when its fields do and both signatures verify over bytes 0-47. -/
def State.tokenOf (s : State) (nonce : Nat) (b : List Byte) : Option Token :=
  match s.tokenFields nonce b with
  | none => none
  | some t => match s.tokenKeys t.level ((b.getD 7 0).toNat) with
    | none => none
    | some k => if Config.ecdsaOk k.1 (b.take 48) ((b.drop 48).take 96) && Config.mldsaOk k.2 (b.take 48) (b.drop 144) then some t else none

/-- AUTH: the nonce is consumed; a token that passes replaces the port's authorisation. -/
def State.dbgAuth (s : State) (p : DbgPort) (b : List Byte) : DbgEnd :=
  let d := s.dbgPort p
  let s1 := s.setDbg p { d with nonce := none }
  match s.dbgNonce p with
  | none => dbgEnd s1 dbgNoNonce
  | some n =>
    if s.trustAway then dbgEnd s1 dbgServiceDown
    else match s.tokenOf n b with
      | none => dbgEnd s1 dbgDenied
      | some t => dbgEnd (s.setDbg p { d with nonce := none, level := t.level, pid := t.pid }) dbgOk

def execAuth (d : DbgReq) (token : List Byte) (s : State) : Result := .next (s.dbgRun d reachId (fun s => s.dbgAuth d.port token))

/-- DEAUTH: the port's authorisation ends. -/
def execDeauth (d : DbgReq) (s : State) : Result :=
  .next (s.dbgRun d reachId (fun s => dbgEnd (s.setDbg d.port (s.dbgPort d.port).noAuth) dbgOk))

/-- A response that the port sends and does not keep. -/
def State.dbgSay (s : State) (p : DbgPort) (tag status : Nat) (payload : List Byte) : State :=
  s.setDbg p { s.dbgPort p with sent := dbgBytes tag status payload }

/-- GETRES: the stored response while its TAG matches. -/
def State.dbgGetres (s : State) (d : DbgReq) (tag : Nat) : State :=
  match (s.dbgPort d.port).last with
  | some (t, status, payload) =>
    if t = tag then s.dbgSay d.port d.tag.toNat dbgOk (dbgBytes t status payload) else s.dbgSay d.port d.tag.toNat dbgBadCmd []
  | none => s.dbgSay d.port d.tag.toNat dbgBadCmd []

def execGetres (d : DbgReq) (of : BitVec 8) (s : State) : Result :=
  .next (if s.dbgAnswers d.port && d.crcOk && (s.dbgPort d.port).step.isNone then s.dbgGetres d of.toNat
    else s.dbgRun d reachId (fun s => dbgEnd s dbgOk))

/-- NONCE_EXPIRY: 60 s after CHALLENGE. -/
def execNonceExpiry (p : DbgPort) (s : State) : Result :=
  .next (if (s.dbgPort p).nonce.isSome && (s.dbgNonce p).isNone then s.setDbg p { s.dbgPort p with nonce := none } else s)

/-! ### READ and WRITE (20 R501) -/

/-- The requester that a port is: its identity depends on its reach. -/
def State.dbgReq (s : State) (p : DbgPort) : Req :=
  let n := s.reach p
  let pid := if n = reachAll then 255 else if n = reachPart then (s.dbgPort p).pid else 0
  ⟨BitVec.ofNat 8 pid, if n = reachAll then true else if n = reachPart then s.pidWorld pid else false, 0x7F0, none⟩

/-- The sizes of the accesses of a transfer: 64-bit when it is aligned and a multiple of 8 bytes, byte accesses otherwise. -/
def dbgSize (a n : Nat) : Nat := if a % 8 = 0 && n % 8 = 0 then 8 else 1

/-- The blocks that reach LOG reads: PWR, CAR, CAL, LCD, ELOG. -/
def dbgLogBlock (a : Nat) : Bool :=
  (a / 0x10000 == 0x0C0001) || (a / 0x10000 == 0x0C0004) || (a / 0x10000 == 0x0C0008) || (a / 0x10000 == 0x0C0009) || (a / 0x10000 == 0x0C000A)

/-- Read `k` accesses of `w` bytes, ascending, up to the first failure. -/
def State.dbgLoads (s : State) (r : Req) (w : Nat) : Nat → Nat → List Byte → DbgEnd
  | 0, _, acc => (s, dbgOk, acc)
  | k + 1, a, acc =>
    let x := s.busRead r a w
    match x.2 with
    | .val v => x.1.dbgLoads r w k (a + w) (acc ++ toBytes w v.toNat)
    | .denied => (x.1, dbgFault, acc)
    | .poison => (x.1, dbgFault, acc)
    | .absent => (x.1, dbgAbsent, acc)

/-- READ. At reach LOG only the blocks it lists. -/
def State.dbgRead (s : State) (p : DbgPort) (a n : Nat) : DbgEnd :=
  if n = 0 || 4096 < n then dbgEnd s dbgBadCmd
  else if s.reach p = reachLog && !(dbgLogBlock a && dbgLogBlock (a + n - 1)) then dbgEnd s dbgDenied
  else s.dbgLoads (s.dbgReq p) (dbgSize a n) (n / dbgSize a n) a []

def execRead (d : DbgReq) (a : BitVec 64) (n : Nat) (s : State) : Result :=
  .next (s.dbgRun d reachLog (fun s => s.dbgRead d.port a.toNat n))

/-- Whether a write was refused: its step ended with an entry of class contained that names the requester. -/
def State.refusedIn (s t : State) (r : Req) : Bool :=
  s.fld .elogptr Fld.elogptrWritten != t.fld .elogptr Fld.elogptrWritten && (match t.elog.getLast? with
    | some e => elogClass e == clsContained && (e.getD 12 0).toNat == r.pid.toNat
    | none => false)

/-- One write access: the status it ends with. -/
def State.dbgStore (s : State) (r : Req) (otp : List Nat) (a w : Nat) (bs : List Byte) : State × Nat :=
  if s.isUnmapped r.pid.toNat a then (s.logUnmapped r.unit.toNat r.pid.toNat r.world a, dbgAbsent)
  else if a < 0x80000000 then
    let x := s.ioWriteN r.unit.toNat r.pid.toNat r.world a bs
    (x.1, match x.2 with
      | none => dbgOk
      | some (_, _, .absent) => dbgAbsent
      | some _ => dbgFault)
  else
    let x := s.busWrite r otp a w (BitVec.ofNat 64 (ofBytes bs))
    (x.1, if !x.2 then dbgAbsent else if s.refusedIn x.1 r then dbgFault else dbgOk)

/-- Write accesses of `w` bytes, ascending, up to the first failure. -/
def State.dbgStores (s : State) (r : Req) (otp : List Nat) (w : Nat) : Nat → Nat → List Byte → DbgEnd
  | 0, _, _ => dbgEnd s dbgOk
  | k + 1, a, bs =>
    let x := s.dbgStore r otp a w (bs.take w)
    if x.2 = dbgOk then x.1.dbgStores r otp w k (a + w) (bs.drop w) else dbgEnd x.1 x.2

/-- WRITE. The OTP window takes writes at reach ALL, in the slots that hold no programmed bit when the command begins. -/
def State.dbgWrite (s : State) (p : DbgPort) (a : Nat) (data : List Byte) : DbgEnd :=
  let n := data.length
  let w := dbgSize a n
  if n = 0 || 4088 < n then dbgEnd s dbgBadCmd
  else s.dbgStores (s.dbgReq p) (if s.reach p = reachAll then (List.range 7).filter s.otpTakes else []) w (n / w) a data

def execWrite (d : DbgReq) (a : BitVec 64) (data : List Byte) (s : State) : Result :=
  .next (s.dbgRun d reachPart (fun s => s.dbgWrite d.port a.toNat data))

/-! ### Cores (20 R502-R507) -/

/-- The engine that a core byte names. -/
def dbgEng (c : DbgCore) : Option Engine :=
  if h : c.toNat < 128 then some (.lcore ⟨c.toNat, h⟩) else if c = 0x80 then some .trust else none

/-- Whether a core is off for the debug port: its cluster off, or the module in Doze. -/
def State.dbgCoreOff (s : State) (e : Engine) : Bool :=
  match e with
  | .lcore l => s.pwr.dozing || (s.lc l.val).place.isNone || !s.powered (s.lc l.val).cluster
  | .trust => !s.powered 60
  | .juggler _ _ => true

/-- A core command: the byte names a core, the Trust Core only at reach ALL, and the core is on. -/
def State.onCore (s : State) (p : DbgPort) (c : DbgCore) (f : Engine → DbgEnd) : DbgEnd :=
  match dbgEng c with
  | none => dbgEnd s dbgBadCmd
  | some e =>
    if isTrust e && s.reach p ≠ reachAll then dbgEnd s dbgDenied
    else if s.dbgCoreOff e then dbgEnd s dbgOff
    else f e

/-- Whether HALT and STEP of a core are denied: it is in the run set of a safety partition, outside service mode (20 R506). -/
def State.dbgSafe (s : State) (e : Engine) : Bool :=
  match e with
  | .lcore l => s.safeCore l.val && !s.flag .lcdctl Fld.lcdctlServicemode
  | _ => false

/-- The partition in which a halt by this port acts; none: anywhere. -/
def State.haltScope (s : State) (p : DbgPort) : Option Nat := if s.reach p = reachPart then some (s.dbgPort p).pid else none

/-- A halt of a core: at once at a boundary where it acts, otherwise pending. -/
def State.askHalt (s : State) (e : Engine) (scope : Option Nat) : State :=
  if (s.core e).halted then s
  else
    let c := { s.core e with haltPend := some scope }
    let s1 := s.setCore e c
    if s1.atBoundary e && c.haltActs e then s1.haltNow e else s1

/-- HALT. -/
def State.dbgHalt (s : State) (p : DbgPort) (c : DbgCore) : DbgEnd :=
  s.onCore p c (fun e => if s.dbgSafe e then dbgEnd s dbgDenied else dbgEnd (s.askHalt e (s.haltScope p)) dbgOk)

def execHalt (d : DbgReq) (c : DbgCore) (s : State) : Result := .next (s.dbgRun d reachPart (fun s => s.dbgHalt d.port c))

/-- RESUME: a halted core goes on, a pending halt is cancelled; the Trust Core's heartbeat is watched afresh. -/
def State.dbgResume (s : State) (p : DbgPort) (c : DbgCore) : DbgEnd :=
  s.onCore p c (fun e =>
    let s1 := s.resumeCore e
    dbgEnd (if isTrust e then { s1 with lko := { s1.lko with trustBeat := s1.mtime } } else s1) dbgOk)

def execDebugResume (d : DbgReq) (c : DbgCore) (s : State) : Result := .next (s.dbgRun d reachPart (fun s => s.dbgResume d.port c))

/-- STEP: the core issues one group and halts again; the response follows when it has halted. -/
def State.dbgStep (s : State) (p : DbgPort) (tag : Nat) (e : Engine) : State :=
  let s1 := s.setCore e { s.core e with halted := false, haltPend := some (s.haltScope p), stepFree := true, issuedAt := s.mtime }
  s1.setDbg p { s1.dbgPort p with step := some (tag, engKey e) }

/-- The core a STEP lets go, when nothing turns the command away. -/
def State.stepTarget (s : State) (p : DbgPort) (c : DbgCore) : Option Engine :=
  match dbgEng c with
  | none => none
  | some e =>
    if (isTrust e && s.reach p ≠ reachAll) || s.dbgCoreOff e || s.dbgSafe e || !(s.core e).halted then none else some e

/-- The status of a STEP that is turned away. -/
def State.stepRefused (s : State) (p : DbgPort) (c : DbgCore) : DbgEnd :=
  s.onCore p c (fun e => if s.dbgSafe e then dbgEnd s dbgDenied else dbgEnd s dbgNotHalted)

def execStep (d : DbgReq) (c : DbgCore) (s : State) : Result :=
  .next (match s.stepTarget d.port c with
    | none => s.dbgRun d reachPart (fun s => s.stepRefused d.port c)
    | some e =>
      if s.dbgAnswers d.port && d.crcOk && (s.dbgPort d.port).step.isNone && reachPart ≤ s.reach d.port
      then s.dbgStep d.port d.tag.toNat e else s.dbgRun d reachPart (fun s => dbgEnd s dbgOk))

/-- The right of a port on a control register: those of S at reach PART, those of H above. -/
def State.dbgRight (s : State) (p : DbgPort) (n : Nat) : Option Nat :=
  match crRow n with
  | none => none
  | some r => some (if s.reach p = reachPart then r.s else r.h)

/-- The value of a control register, as MFCR gives it; a claim register claims. -/
def State.dbgCrRead (s : State) (e : Engine) (atH : Bool) (right n : Nat) : DbgEnd :=
  if n = 0x39 || n = 0x59 then
    let r := s.claimIrq e (n = 0x59)
    (r.1, dbgOk, toBytes 8 r.2.toNat)
  else (s, dbgOk, toBytes 8 (if right = 2 then (0 : W64) else s.crShow e atH n).toNat)

/-- REGRD of a halted core. -/
def State.dbgRegrd (s : State) (p : DbgPort) (e : Engine) (n : Nat) : DbgEnd :=
  let c := s.core e
  if !c.halted then dbgEnd s dbgNotHalted
  else if n < 32 then (s, dbgOk, toBytes 8 (c.greg n).toNat)
  else if 0x100 ≤ n && n < 0x120 then (s, dbgOk, toBytes 8 (c.freg (n - 0x100)).toNat)
  else if n = 0x200 then (s, dbgOk, toBytes 8 c.pc.toNat)
  else if n < 0x1000 then dbgEnd s dbgBadCmd
  else match s.dbgRight p (n - 0x1000) with
    | none => dbgEnd s dbgBadCmd
    | some 0 => dbgEnd s dbgDenied
    | some r => s.dbgCrRead e (s.reach p ≠ reachPart) r (n - 0x1000)

def execRegrd (d : DbgReq) (c : DbgCore) (n : BitVec 16) (s : State) : Result :=
  .next (s.dbgRun d reachPart (fun s => s.onCore d.port c (fun e => s.dbgRegrd d.port e n.toNat)))

/-- REGWR of a halted core: both cores of a pair hold the value. -/
def State.dbgRegwr (s : State) (p : DbgPort) (e : Engine) (n : Nat) (v : W64) : DbgEnd :=
  let c := s.core e
  if !c.halted then dbgEnd s dbgNotHalted
  else if n < 32 then dbgEnd (s.setCore e (if n = 0 then c else { c with g := KV.set 0 c.g n v })) dbgOk
  else if 0x100 ≤ n && n < 0x120 then dbgEnd (s.setCore e { c with f := KV.set 0 c.f (n - 0x100) v }) dbgOk
  else if n = 0x200 then dbgEnd (s.setCore e { c with pc := v, win := none, atVec := false }) dbgOk
  else if n < 0x1000 then dbgEnd s dbgBadCmd
  else match s.dbgRight p (n - 0x1000) with
    | none => dbgEnd s dbgBadCmd
    | some 0 => dbgEnd s dbgDenied
    | some 1 => dbgEnd s dbgOk
    | some _ => dbgEnd (s.crStore e (s.reach p ≠ reachPart) (n - 0x1000) v) dbgOk

def execRegwr (d : DbgReq) (c : DbgCore) (n : BitVec 16) (v : W64) (s : State) : Result :=
  .next (s.dbgRun d reachPart (fun s => s.onCore d.port c (fun e => s.dbgRegwr d.port e n.toNat v)))

/-! ### RESET, IMGLOAD, LCADV, SCAN -/

/-- RESET: the response, then a module reset. -/
def execDebugReset (d : DbgReq) (s : State) : Result :=
  .next (s.dbgRun d reachMod (fun s => dbgEnd (s.moduleReset Fld.rstcauseDebug) dbgOk))

/-- IMGLOAD: offset 0 first erases the slot; offsets then ascend. -/
def State.dbgImgload (s : State) (p : DbgPort) (slot off : Nat) (data : List Byte) : DbgEnd :=
  let d := s.dbgPort p
  if 1 < slot || flashSize < off + data.length || (off ≠ 0 && off < KV.get 0 d.next slot) then dbgEnd s dbgBadCmd
  else
    let s1 := if off = 0 then s.eraseSlot (slot == 1) else s
    let s2 := { s1 with st := { s1.st with flash := KV.setAll 0xFF s1.st.flash (flashSlot (slot == 1) + off) data } }
    dbgEnd (s2.setDbg p { d with next := KV.set 0 d.next slot (off + 1) }) dbgOk

def execImgload (d : DbgReq) (slot : BitVec 8) (off : BitVec 32) (data : List Byte) (s : State) : Result :=
  .next (s.dbgRun d reachMod (fun s => s.dbgImgload d.port slot.toNat off.toNat data))

/-- The token a transition needs: its level and the flags it must have; none when Table 1 has no such transition (20 R491). -/
def lcNeeds (from_ dest : Nat) : Option (Nat × Nat) :=
  match from_, dest with
  | 0, 1 => some (0, 0)
  | 1, 2 => some (3, 0)
  | 2, 3 => some (2, 0)
  | 2, 4 => some (3, 1)
  | 3, 4 => some (3, 1)
  | 3, 5 => some (2, 2)
  | 4, 5 => some (3, 2)
  | _, _ => none

/-- Whether a port presents the authorisation a transition needs. -/
def State.lcAuthorised (s : State) (p : DbgPort) (need : Nat × Nat) (token : List Byte) : Bool :=
  if need.1 = 0 then true
  else if s.trustAway then false
  else match s.dbgNonce p with
    | none => false
    | some n => (match s.tokenOf n token with
      | none => false
      | some t => t.level == need.1 && Nat.land t.flags need.2 == need.2)

/-- The precondition of a transition. -/
def State.lcReady (s : State) (dest : Nat) : Bool :=
  if dest = 1 then s.otpHeld 0 && s.otpHeld 1
  else if dest = 2 then (s.otpHeld 2 || s.otpHeld 3 || s.otpHeld 4 || s.otpHeld 5) && KV.get 0 s.otp.window 0x3800 != 0
  else true

/-- What BLANK to MAKER writes besides: the module ID and the device key. -/
def State.newModule (s : State) : State :=
  let w0 := s.takeFree
  let w1 := w0.2.takeFree
  { w1.2 with otp := { w1.2.otp with id := w0.1, devKey := w1.1.toNat } }

/-- A transition: the fuse, the erasure, DONE, the module reset (20 R492). -/
def State.lcAdvance (s : State) (dest : Nat) : State :=
  let was := s.lifeCycle
  let s1 := if dest = 1 then s.newModule else s
  let s2 := { s1 with otp := { s1.otp with lcFuse := Nat.lor s1.otp.lcFuse (2 ^ (dest - 1)) } }
  (((s2.eraseFor dest was).blowDone).dropAuth).moduleReset Fld.rstcauseDebug

/-- LCADV. -/
def State.dbgLcadv (s : State) (p : DbgPort) (dest : Nat) (token : List Byte) : DbgEnd :=
  match lcNeeds s.lifeCycle dest with
  | none => dbgEnd s dbgDenied
  | some need => if s.lcAuthorised p need token && s.lcReady dest then dbgEnd (s.lcAdvance dest) dbgOk else dbgEnd s dbgDenied

def execLcadv (d : DbgReq) (target : BitVec 8) (token : List Byte) (s : State) : Result :=
  .next (s.dbgRun d reachId (fun s => s.dbgLcadv d.port target.toNat token))

/-- SCAN: the module is held in a module reset, and P31.07 becomes a test access port. -/
def execScan (d : DbgReq) (s : State) : Result :=
  .next (s.dbgRun d reachAll (fun s =>
    let s1 := s.moduleReset Fld.rstcauseDebug
    dbgEnd { s1 with dbg := { s1.dbg with scan := true } } dbgOk))

end Sys2Proof.Machine
end

