-- ==== Sys2Proof/Machine/System.lean ====
section
/-! DEFINITION. The system instructions (04 R113-R117), fences and their completion (08 R243), TLBI (06 R177), waits. -/
namespace Sys2Proof.Machine

/-- An instruction that a level permits from `min` up; below it Privileged instruction (04 R115). -/
def State.system (s : State) (x : Iss) (cell : Cell) (min : Nat) (chk : Option Nat) (f : State → State) : State :=
  s.issue x .s cell false chk (fun s =>
    let c := s.core x.eng
    if !isJug x.eng && c.level x.eng < min then s.raise x.eng (Exc.of 2 0 c.pc) else f s)

/-- SC: System call, EPC the next instruction. -/
def execSc (x : Iss) (s : State) : Result :=
  .next (s.system x .core 0 none (fun s =>
    let d := s.entered x .s
    s.setCore x.eng (d.raiseExc (Exc.of 0x0C 0 d.pc))))

/-- BRK: Breakpoint, EPC the instruction itself. -/
def execBrk (x : Iss) (s : State) : Result :=
  .next (s.system x .all 0 none (fun s => s.raise x.eng (Exc.of 0x0B 0 (s.core x.eng).pc)))

/-- HC: Hypervisor call, EPC the next instruction. -/
def execHc (x : Iss) (s : State) : Result :=
  .next (s.system x .core 1 none (fun s =>
    let d := s.entered x .s
    s.setCore x.eng (d.raiseExc (Exc.of 0x0D 0 d.pc))))

/-- Whether an ERET would enter U or S without a partition (06 R165). -/
def Core.eretIllegal (c : Core) (e : Engine) : Bool :=
  c.level e == 2 && bitsOf (c.creg 1) 8 7 < 2 && c.hpid e == 0

/-- ERET: the drain, the return from the present level's exception, 7 cycles after the drain (05 R151, 06 R168). -/
def execEret (x : Iss) (s : State) : Result :=
  .next (s.issue x .s .core false (if (s.core x.eng).eretIllegal x.eng then some subValue else none) (fun s =>
    let e := x.eng
    let c := s.core e
    if c.level e = 0 then s.raise e (Exc.of 2 0 c.pc)
    else
      let d := s.entered x .s
      let on := s.talFor e
      let t := d.drainEnd
      let d1 := ({ d.drain with nxt := t + 6 }).oweWasted on (t + 6 - d.nxt)
      let r := d1.eretFrom (2 ≤ c.level e)
      (s.setCore e { r.goTo r.pc with afterEret := true, win := none }).traced e 3 0))

/-- Whether an interrupt is pending above its class's threshold, or an asynchronous exception that can be taken (04 R116). -/
def State.wakes (s : State) (e : Engine) : Bool :=
  let c := s.core e
  let higher := fun (h : Bool) => (s.pendingOf e h).any (fun k => k.prio > c.thr h)
  higher true || higher false || c.recovery || c.lostStore.isSome

/-- A slot has ended: the position that a Juggler serves waits for its next start (11 R296, JSTAT). -/
def State.slotEnded (s : State) (e : Engine) : State :=
  match e, s.served e with
  | .juggler g _, some p => s.putFld (.jstat g.val p) Fld.jstatState 2
  | _, _ => s

/-- WFI: the engine waits until an interrupt becomes pending; a Juggler until its next slot start (04 R116, 11 R296). -/
def execWfi (x : Iss) (s : State) : Result :=
  .next (s.system x .all 1 none (fun s =>
    let d := s.entered x .s
    (s.setCore x.eng { d with wait := if !isJug x.eng && s.wakes x.eng then none else some .wfi }).slotEnded x.eng))

/-- A waiting WFI ends when an interrupt is pending above the threshold; the interrupt is then taken, or the next instruction
runs. A Juggler's wait ends at the slot start (SLOT_START). -/
def execWfiWake (eng : Engine) (s : State) : Result :=
  .next (let c := s.core eng
    if c.wait == some .wfi && !isJug eng && s.wakes eng then s.setCore eng { c with wait := none, issuedAt := s.mtime } else s)

/-- PREDCLR: counters, history and return stack cleared; 2,048 cycles (04 Table 6). -/
def execPredclr (x : Iss) (s : State) : Result :=
  .next (s.system x .core 2 none (fun s =>
    s.setCore x.eng { (s.entered x .s).cost (s.talFor x.eng) false 2048 with pred := Pred.reset }))

/-- A TLBI that keeps the entries that pass (06 Table 7). -/
def State.tlbi (s : State) (x : Iss) (cycles : Nat) (keep : Core → Bool → TlbE → Bool) : State :=
  s.system x .core 1 none (fun s =>
    let c := s.core x.eng
    let d := (s.entered x .s).cost (s.talFor x.eng) false cycles
    s.setCore x.eng (d.tlbKeep (keep c (2 ≤ c.level x.eng))))

/-- TLBI.ALL: every entry with the current PID at S, every entry at H. -/
def execTlbiAll (x : Iss) (s : State) : Result :=
  .next (s.tlbi x 64 (fun c h t => if h then false else t.h || t.pid != c.hpid x.eng))

/-- TLBI.VA: the entries covering SRC1 of the PID, with the ASID in SRC2 or global; at H PID 0 names the H regime. -/
def execTlbiVa (x : Iss) (a b : Fin 32) (s : State) : Result :=
  .next (s.tlbi x 4 (fun c h t =>
    let va := (c.greg a.val).toNat
    let v := c.greg b.val
    let pid := if h then bitsOf v 23 16 else c.hpid x.eng
    let regime := if h && pid = 0 then t.h else !t.h && t.pid == pid && (t.glob || t.asid == bitsOf v 15 0)
    !(regime && va / 2 ^ t.bits == t.vpn)))

/-- TLBI.ASID: the entries of the PID with the ASID; global ones stay, but for ASID 0xFFFF at H. The H regime's entries carry the PID of its
accesses and ASID 0. -/
def execTlbiAsid (x : Iss) (a : Fin 32) (s : State) : Result :=
  .next (s.tlbi x 32 (fun c h t =>
    let v := c.greg a.val
    let pid := if h then bitsOf v 23 16 else c.hpid x.eng
    let asid := bitsOf v 15 0
    let mine := t.pid == pid
    !(mine && ((h && asid = 0xFFFF) || (!t.glob && t.asid == asid)))))

/-! ### Fences -/

/-- Whether every earlier Device or Remote store has been acknowledged or has received Absent. -/
def Core.ioQuiet (c : Core) : Bool := c.devOut == 0 && !c.sbuf.any (·.dev)

/-- A fence: it completes at once when nothing is outstanding, otherwise the core freezes (04 R113). -/
def State.fenceInst (s : State) (x : Iss) (io : Bool) : State :=
  s.issue x .s .core false none (fun s =>
    let d := s.entered x .s
    let done := if io then d.ioQuiet else d.quiet
    s.setCore x.eng (if done then d else { d with frozen := some (.fence io) }))

/-- FENCE: every earlier load and store is performed. -/
def execFence (x : Iss) (s : State) : Result := .next (s.fenceInst x false)
/-- FENCE.SL: every earlier store is performed; loads before it are, as a load holds the core until its value is bound. -/
def execFenceSl (x : Iss) (s : State) : Result := .next (s.fenceInst x false)
/-- FENCE.IO: every earlier Device or Remote store has been acknowledged or has received Absent. -/
def execFenceIo (x : Iss) (s : State) : Result := .next (s.fenceInst x true)

/-- A wait of a fence, or of an access under REL, ends once what it waits for is performed (08 R242, R243, R247). -/
def execFenceCompletion (eng : Engine) (s : State) : Result :=
  .next (let c := s.core eng
    let done := match c.frozen with
      | some (.fence io) => if io then c.ioQuiet else c.quiet
      | some .release => c.quiet
      | _ => false
    if done then (s.setCore eng { c with frozen := none }).freezeEnd eng false else s)

/-- ISYNC: the fetch window is discarded, the next instruction is fetched anew after 11 cycles. -/
def execIsync (x : Iss) (s : State) : Result :=
  .next (s.issue x .s .core false none (fun s =>
    let d := (s.entered x .s).cost (s.talFor x.eng) false 11
    s.setCore x.eng { d with win := none }))

end Sys2Proof.Machine
end

