-- ==== Sys2Proof/Machine/Encoding.lean ====
section
/-! DEFINITION. The decode checks of 03 R54-R81: which illegal-instruction subcode, if any, the bytes of an instruction raise on
an engine. -/
namespace Sys2Proof.Machine

/-- Formats (03 Table 4). -/
inductive Fmt where
  | z | r | i | sh | m | b | bi | j | jr | callm | callmr | cr | rr
deriving DecidableEq, Repr

/-- What a format-M cell does: load or store of general or FP registers, LEA, PREF, atomics, line maintenance. -/
inductive MemOf where
  | no | ld | st | fld | fst | lea | pref | atom | maint
deriving DecidableEq, Repr

/-- An instruction cell: format, class, the lead bytes of 03 Table 2 it takes as a set of bits (GROUP and XREG apart), the
reserved register fields of format R (bit 0 DST, 1 SRC1, 2 SRC2) or other reserved descriptor fields, its memory operation,
whether a Juggler decodes it, and whether it is shadow-safe. -/
structure OpCell where
  fmt  : Fmt
  cls  : Cls
  lead : Nat
  rsv  : Nat
  mem  : MemOf
  jug  : Bool
  safe : Bool
deriving DecidableEq, Repr

/-- What a byte of a page holds. -/
inductive PageCell where
  | ill
  | rsv
  /-- A reserved cell of the Fotin-J block. -/
  | jrsv
  /-- A Juggler port instruction. -/
  | port (o : OpCell)
  | op (o : OpCell)
deriving DecidableEq, Repr

def leadRep : Nat := 2
def leadNarrow : Nat := 4
def leadStream : Nat := 8
def leadAcq : Nat := 16
def leadRel : Nat := 32
def leadXreg : Nat := 64
def leadHint : Nat := 128

def opZ (cls : Cls) (jug safe : Bool) : PageCell := .op ⟨.z, cls, 0, 0, .no, jug, safe⟩

/-- The one-byte page (03 Table 10). -/
def pageOne (op : Nat) : PageCell :=
  if op = 0x00 || op = 0xFF then .ill
  else if op = 1 then opZ .i true true
  else if op ≤ 8 then opZ .s (op = 6 || op = 8) false
  else if op ≤ 0x0F then .rsv
  else if op ≤ 0x1F then
    .op ⟨.r, .i, if [0x10, 0x11, 0x15, 0x16, 0x17, 0x18, 0x1A, 0x1B, 0x1C, 0x1D].contains op then leadNarrow else 0, 0, .no, true, true⟩
  else if op ≤ 0x57 then .op ⟨.m, .m, leadRep + leadStream + leadAcq, 0, .ld, true, false⟩
  else if op ≤ 0x5F then .op ⟨.m, .m, 0, 0, .lea, true, false⟩
  else if op ≤ 0x7F then .op ⟨.m, .m, leadRep + leadStream + leadRel, 0, .st, true, false⟩
  else if op ≤ 0x8F then .op ⟨.i, .i, if op ≤ 0x83 then leadNarrow else 0, 0, .no, true, false⟩
  else if op ≤ 0x92 then .op ⟨.sh, .i, leadNarrow, 0, .no, true, false⟩
  else if op = 0x93 then .rsv
  else if op ≤ 0x9F then .op ⟨.i, .i, 0, if 0x9C ≤ op then 2 else 0, .no, true, false⟩
  else if op ≤ 0xB7 then (if op % 4 = 3 then .rsv else .op ⟨.b, .b, leadHint, 0, .no, true, false⟩)
  else if op ≤ 0xBA then .op ⟨.j, .b, 0, 0, .no, true, false⟩
  else if op = 0xBC then .op ⟨.jr, .b, 0, 0, .no, true, false⟩
  else if op = 0xBD then .op ⟨.callm, .s, 0, 0, .no, true, false⟩
  else if op = 0xBE then .op ⟨.callmr, .s, 0, 0, .no, true, false⟩
  else if op ≤ 0xBF then .rsv
  else if op ≤ 0xDA then .op ⟨.r, .f, 0, if [0xC4, 0xCC, 0xD3, 0xD4, 0xD5, 0xD6, 0xD7, 0xD8, 0xD9, 0xDA].contains op then 4 else 0, .no, false, false⟩
  else if op = 0xF0 || op = 0xF1 then .op ⟨.cr, .s, 0, 0, .no, true, false⟩
  else .rsv

/-- The fields that the port instructions 0x0F 0xC0 to 0xCB do not name (04 Table 8). -/
def portRsv (op : Nat) : Nat :=
  match op with
  | 0xC0 => 5
  | 0xC1 => 6
  | 0xC2 => 4
  | 0xC3 => 0
  | 0xC4 => 4
  | 0xC5 => 1
  | 0xC6 => 4
  | 0xC7 => 1
  | 0xC8 => 0
  | 0xC9 => 4
  | 0xCA => 1
  | _ => 4

/-- The escape page (03 Table 11). -/
def pageTwo (op : Nat) : PageCell :=
  if op = 0x00 || op = 0xFF then .ill
  else if op ≤ 5 then opZ .s (op = 2) false
  else if op ≤ 7 then .op ⟨.rr, .s, 0, if op = 7 then 4 else 0, .no, false, false⟩
  else if op ≤ 0x0F then .rsv
  else if op ≤ 0x1F then .op ⟨.m, .m, leadRep + leadStream + leadAcq, 0, .fld, false, false⟩
  else if op ≤ 0x2F then .op ⟨.m, .m, leadRep + leadStream + leadRel, 0, .fst, false, false⟩
  else if op ≤ 0x37 then .op ⟨.m, .m, leadStream + leadHint, 0, .pref, false, false⟩
  else if op ≤ 0x3F then .op ⟨.m, .m, leadAcq, 0, .atom, false, false⟩
  else if op ≤ 0x47 then .op ⟨.m, .m, leadRel, 0, .atom, false, false⟩
  else if op ≤ 0x5B then .op ⟨.m, .m, leadAcq + leadRel, 0, .atom, false, false⟩
  else if op ≤ 0x5F then .rsv
  else if op ≤ 0x6F then .op ⟨.m, .m, 0, 0, .maint, false, false⟩
  else if op ≤ 0x7F then .rsv
  else if op ≤ 0x8F then (if op % 4 = 3 then .rsv else .op ⟨.bi, .b, leadHint, 0, .no, true, false⟩)
  else if op ≤ 0xBF then .rsv
  else if op ≤ 0xCB then .port ⟨.r, if op = 0xC0 then .s else .m, 0, portRsv op, .no, true, false⟩
  else if op ≤ 0xCF then .jrsv
  else .rsv

/-- The bytes of an ISZ code, and of a DSZ or BSZ code (03 Table 5). -/
def isz (c : Nat) : Nat := 2 ^ c
def dsz (c : Nat) : Nat := if c = 0 then 0 else 2 ^ (c - 1)

/-- Whether a format-M cell has an index byte: opcode bit 2, but atomics and maintenance hold X = 0 cells only. -/
def hasIndex (o : OpCell) (op : Nat) : Bool := o.fmt = .m && o.mem != .atom && o.mem != .maint && op / 4 % 2 = 1

/-- The bytes after the opcode; format BI reads its descriptor (03 R56). -/
def tailBytes (o : OpCell) (op : Nat) (desc : Option Byte) : Option Nat :=
  match o.fmt with
  | .z => some 0
  | .r => some 2
  | .i => some (1 + isz (op % 4))
  | .sh => some 2
  | .m => some (1 + (if hasIndex o op then 1 else 0) + dsz (op % 4))
  | .b => some (1 + isz (op % 4))
  | .bi => desc.map (fun d => 1 + isz (op % 4) + isz (d.toNat % 4))
  | .j => some (isz (op % 4))
  | .jr => some 1
  | .callm => some 6
  | .callmr => some 3
  | .cr => some 3
  | .rr => some 1

/-- What the length routine finds: a stage-A subcode, with the number of bytes that establish it; an instruction with its page, lead bytes,
length and tail; or too few bytes. -/
inductive Scan where
  | bad (sub need : Nat)
  | got (o : OpCell) (two : Bool) (op seen len : Nat) (tail : List Byte)
  | short
deriving DecidableEq, Repr

/-- The lead bytes before the opcode: the set seen and what follows; a subcode with its byte's place. -/
def scanLead : Nat → Nat → Nat → List Byte → (Nat × Nat) ⊕ (Nat × Nat × List Byte) ⊕ Unit
  | _, _, _, [] => .inr (.inr ())
  | 0, _, _, _ => .inr (.inr ())
  | fuel + 1, n, seen, b :: bs =>
    let v := b.toNat
    if v < 0xE0 || 0xF0 ≤ v then .inr (.inl (n, seen, b :: bs))
    else if 0xE8 ≤ v then .inl (0x01, n)
    else if seen / 2 ^ (v - 0xE0) % 2 = 1 then .inl (0x02, n)
    else if n = 4 then .inl (0x03, n)
    else scanLead fuel (n + 1) (seen + 2 ^ (v - 0xE0)) bs

/-- The cell at the opcode, and what follows. -/
def scanCell (jug : Bool) (c : PageCell) : Nat ⊕ OpCell :=
  match c with
  | .ill => .inl 0x04
  | .rsv => .inl 0x05
  | .jrsv => .inl (if jug then 0x05 else subSubset)
  | .port o => if jug then .inr o else .inl subSubset
  | .op o => if jug && !o.jug then .inl subSubset else .inr o

/-- The length routine of 03 R56 on the bytes at the instruction address. -/
def scanBytes (jug : Bool) (bs : List Byte) : Scan :=
  match scanLead 8 0 0 bs with
  | .inl (sub, i) => .bad sub (i + 1)
  | .inr (.inr _) => .short
  | .inr (.inl (n, seen, rest)) =>
    let go := fun (used : Nat) (two : Bool) (op : Nat) (tl : List Byte) =>
      match scanCell jug (if two then pageTwo op else pageOne op) with
      | .inl k => Scan.bad k used
      | .inr o =>
        match tailBytes o op tl.head? with
        | none => .short
        | some k =>
          if 16 < used + k then .bad 0x07 (if o.fmt = .bi then used + 1 else used)
          else if tl.length < k then .short else .got o two op seen (used + k) (tl.take k)
    match rest with
    | [] => .short
    | b :: r1 =>
      if b = 0x0F then
        match r1 with
        | [] => .short
        | b2 :: r2 => go (n + 2) true b2.toNat r2
      else go (n + 1) false b.toNat r1

/-- The number a compact field names under XREG (03 R64). -/
def compact (xreg : Bool) (n : Nat) : Nat := if xreg then n + 16 else n

/-- The register a BASE code names; none is the pc (03 Table 8). -/
def baseReg (code : Nat) : Option Nat :=
  if code = 0 then none else if code = 14 then some 30 else if code = 15 then some 31 else some code

/-- The register an INDEX code names (03 Table 8). -/
def indexReg (xreg : Bool) (code : Nat) : Nat := if xreg then (if code = 15 then 31 else if code = 14 then 30 else code + 16) else code

/-- A reserved bit or field that is not zero (03 RSV_FIELD). -/
def fieldBad (o : OpCell) (op seen : Nat) (t : List Byte) : Bool :=
  let b := fun i => (t.getD i 0).toNat
  let d := b 0
  match o.fmt with
  | .r =>
    b 1 % 2 = 1 || (o.rsv % 2 = 1 && (d / 16 != 0 || b 1 / 4 % 2 = 1)) || (o.rsv / 2 % 2 = 1 && (d % 16 != 0 || b 1 / 2 % 2 = 1))
      || (o.rsv / 4 % 2 = 1 && b 1 / 8 != 0)
  | .i => o.rsv = 2 && d % 16 != 0
  | .sh => 64 ≤ b 1 || (seen / leadNarrow % 2 = 1 && b 1 / 32 % 2 = 1)
  | .m => ((o.mem = .pref || o.mem = .maint) && d / 16 != 0) || (hasIndex o op && b 1 % 4 != 0 && b 1 / 4 != 0)
  | .bi => d / 4 % 4 != 0
  | .jr => d % 16 != 0
  | .callm => 128 ≤ b 5
  | .callmr => d % 16 != 0 || 128 ≤ b 2
  | .cr => d % 16 != 0
  | .rr => o.rsv = 4 && d % 16 != 0
  | _ => false

/-- A reserved value, or a form or operand combination not permitted (03 RSV_VALUE). -/
def valueBad (e : Engine) (c : Core) (o : OpCell) (op seen : Nat) (t : List Byte) : Bool :=
  let b := fun i => (t.getD i 0).toNat
  let d := b 0
  let xreg := seen / leadXreg % 2 = 1
  match o.fmt with
  | .i => seen / leadNarrow % 2 = 1 && op = 0x83
  | .m =>
    if !hasIndex o op then false
    else
      let form := b 1 % 4
      let upd := form != 0
      d % 16 = 0 || (form = 0 && b 1 / 16 = 0) || ((form = 1 || form = 3) && op % 4 != 0) || (form = 2 && op % 4 = 0)
        || ((o.mem = .lea || o.mem = .pref) && upd)
        || (upd && o.mem = .ld && some (compact xreg (d / 16)) == baseReg (d % 16))
  | .cr => (crCheck e (b 1 + 256 * b 2)).isSome
  | .z => op = 1 && o.cls = .s && !o.jug && c.eretIllegal e
  | _ => false

/-- A lead byte not permitted here (03 PREFIX_CLASS; 04 R119 in a Juggler). -/
def leadBad (jug : Bool) (o : OpCell) (op seen : Nat) : Bool :=
  let xok : Bool := match o.fmt with
    | .i => true
    | .sh => true
    | .m => !(o.mem = .maint || (o.mem = .pref && !hasIndex o op))
    | .b => true
    | .bi => true
    | .jr => true
    | .callmr => true
    | .cr => true
    | .rr => true
    | _ => false
  [leadRep, leadNarrow, leadStream, leadAcq, leadRel, leadHint].any (fun k => seen / k % 2 = 1
      && (o.lead / k % 2 = 0 || (jug && (k = leadStream || k = leadAcq || k = leadRel))))
    || (seen / leadXreg % 2 = 1 && !xok)

/-- A repeated instruction that names g29 in REG or INDEX (03 R61). -/
def repBad (o : OpCell) (op seen : Nat) (t : List Byte) : Bool :=
  let b := fun i => (t.getD i 0).toNat
  let xreg := seen / leadXreg % 2 = 1
  seen / leadRep % 2 = 1 && (((o.mem = .ld || o.mem = .st) && compact xreg (b 0 / 16) = 29)
    || (hasIndex o op && b 1 % 4 = 0 && indexReg xreg (b 1 / 16) = 29))

/-- The subcode that the bytes at an engine's pc raise, when they raise one (03 R78-R80). -/
def illegalBytes (e : Engine) (c : Core) (bs : List Byte) : Option Nat :=
  match scanBytes (isJug e) bs with
  | .bad n _ => some n
  | .short => none
  | .got o _ op seen _ t =>
    let rep := seen / leadRep % 2 = 1
    let k : Cls := if rep then .s else o.cls
    if fieldBad o op seen t then some subField
    else if valueBad e c o op seen t then some subValue
    else if leadBad (isJug e) o op seen then some subPrefix
    else if repBad o op seen t then some subRepRc
    else if seen % 2 = 1 && !c.group.ctl && !c.group.takes k then some subGroup
    else if c.shadow > 0 && !o.safe then some subShadow
    else none

/-- Whether a Juggler's fetch of the bytes that its decode checks need passes code address 0xFFFF: Fetch translation fault then has priority
(03 R80, 04 R121). -/
def fetchBeyond (e : Engine) (c : Core) (bs : List Byte) : Bool :=
  isJug e && (match scanBytes true bs with
    | .bad _ n => decide (0x10000 < c.pc.toNat + n)
    | .got _ _ _ _ n _ => decide (0x10000 < c.pc.toNat + n)
    | .short => false)

/-- ILLEGAL_INSTRUCTION: bytes that fail a decode check raise Illegal instruction with its subcode and change nothing
(03 R78, R81); bytes that pass every check are no such event and change nothing at all. -/
def execIllegalInstruction (eng : Engine) (bytes : List Byte) (s : State) : Result :=
  .next (let c := s.core eng
    if !c.ready then s
    else match illegalBytes eng c bytes with
      | some n => s.setCore eng (c.raiseAhead (if fetchBeyond eng c bytes then codeEnd c else Exc.illegal n c.pc))
      | none => s)

end Sys2Proof.Machine
end

