-- ==== Sys2Proof/Machine/Fp.lean ====
section
/-! DEFINITION. IEEE 754 arithmetic of 04 R89-R92: binary32 and binary64, computed exactly and rounded once. Flags are
FSTAT's [4:0]: NV 16, DZ 8, OF 4, UF 2, NX 1. -/
namespace Sys2Proof.Machine

/-- A format: exponent bits and fraction bits. -/
structure FpFmt where
  eb : Nat
  mb : Nat
deriving DecidableEq, Repr

def fmtD : FpFmt := ⟨11, 52⟩
def fmtS : FpFmt := ⟨8, 23⟩

def FpFmt.bias (f : FpFmt) : Int := 2 ^ (f.eb - 1) - 1
def FpFmt.emin (f : FpFmt) : Int := 1 - f.bias
def FpFmt.signBit (f : FpFmt) : Nat := 2 ^ (f.eb + f.mb)
/-- Positive infinity. -/
def FpFmt.inf (f : FpFmt) : Nat := (2 ^ f.eb - 1) * 2 ^ f.mb
/-- The canonical quiet NaN (04 R90). -/
def FpFmt.nan (f : FpFmt) : Nat := f.inf + 2 ^ (f.mb - 1)

/-- A value: NaN (signalling or not), infinity, or (-1)^s * m * 2^e. -/
inductive FpV where
  | nan (sig : Bool)
  | inf (s : Bool)
  | fin (s : Bool) (m : Nat) (e : Int)
deriving DecidableEq, Repr

/-- The value of an encoding. -/
def FpFmt.unpack (f : FpFmt) (v : Nat) : FpV :=
  let s := v / f.signBit % 2 == 1
  let e := v / 2 ^ f.mb % 2 ^ f.eb
  let m := v % 2 ^ f.mb
  if e = 2 ^ f.eb - 1 then
    if m = 0 then .inf s else .nan (m < 2 ^ (f.mb - 1))
  else if e = 0 then .fin s m (f.emin - f.mb)
  else .fin s (2 ^ f.mb + m) (e - f.bias - f.mb)

def signOf (f : FpFmt) (s : Bool) : Nat := if s then f.signBit else 0

/-- Whether a magnitude is rounded away from zero: the mode, the sign, whether the kept part is odd, and the discarded part
against one half (`none`: nothing discarded). Modes are FSTAT.RM's. -/
def roundUp (rm : Nat) (s odd : Bool) (c : Option Ordering) : Bool :=
  match c with
  | none => false
  | some o =>
    match rm with
    | 1 => false
    | 2 => s
    | 3 => !s
    | 4 => o != .lt
    | _ => o == .gt || (o == .eq && odd)

/-- The discarded part `r` of `2^d`, with a further sticky part, against one half. -/
def halfCmp (r d : Nat) (sticky : Bool) : Option Ordering :=
  if r = 0 && !sticky then none
  else if d = 0 then some .lt
  else
    let h := 2 ^ (d - 1)
    if r < h then some .lt else if h < r then some .gt else if sticky then some .gt else some .eq

/-- `m * 2^e` (and a sticky part below it) rounded to a multiple of `2^q`: the multiple, and whether it is inexact. -/
def roundAt (rm : Nat) (s : Bool) (m : Nat) (e q : Int) (sticky : Bool) : Nat × Bool :=
  if q ≤ e then (m * 2 ^ (e - q).toNat, sticky)
  else
    let d := (q - e).toNat
    let n := m / 2 ^ d
    let c := halfCmp (m % 2 ^ d) d sticky
    (if roundUp rm s (n % 2 == 1) c then n + 1 else n, c.isSome)

/-- The encoding and flags of a non-zero magnitude `m * 2^e`, rounded once; tininess is detected after rounding. -/
def FpFmt.pack (f : FpFmt) (rm : Nat) (s : Bool) (m : Nat) (e : Int) (sticky : Bool) : Nat × Nat :=
  let big : Int := e + (Nat.log2 m : Int)
  let q0 := big - f.mb
  let qm := f.emin - f.mb
  let q := if q0 < qm then qm else q0
  let a := roundAt rm s m e q sticky
  let n := if a.1 = 2 ^ (f.mb + 1) then 2 ^ f.mb else a.1
  let q := if a.1 = 2 ^ (f.mb + 1) then q + 1 else q
  let u := roundAt rm s m e q0 sticky
  let tiny := big < f.emin && !(big + 1 == f.emin && u.1 == 2 ^ (f.mb + 1))
  let nx := if a.2 then 1 else 0
  let uf := if tiny && a.2 then 2 else 0
  if n < 2 ^ f.mb then (signOf f s + n, nx + uf)
  else
    let ef := q + f.mb + f.bias
    if ef ≥ 2 ^ f.eb - 1 then
      let toInf := match rm with
        | 1 => false
        | 2 => s
        | 3 => !s
        | _ => true
      (signOf f s + (if toInf then f.inf else f.inf - 1), 5)
    else (signOf f s + ef.toNat * 2 ^ f.mb + (n - 2 ^ f.mb), nx + uf)

/-- A signed exact value as an encoding; `z` is the sign a zero result takes. -/
def FpFmt.packInt (f : FpFmt) (rm : Nat) (v : Int) (e : Int) (z : Bool) : Nat × Nat :=
  if v = 0 then (signOf f z, 0) else f.pack rm (v < 0) v.natAbs e false

/-- NV for a signalling operand. -/
def sigNv : List FpV → Nat
  | [] => 0
  | .nan true :: _ => 16
  | _ :: l => sigNv l

/-- A signed mantissa brought to exponent `e`. -/
def alignTo (s : Bool) (m : Nat) (e0 e : Int) : Int :=
  let v : Int := m * 2 ^ (e0 - e).toNat
  if s then -v else v

/-- Sum of two values (04 R90). -/
def FpFmt.addV (f : FpFmt) (rm : Nat) (a b : FpV) : Nat × Nat :=
  match a, b with
  | .nan _, _ => (f.nan, sigNv [a, b])
  | _, .nan _ => (f.nan, sigNv [a, b])
  | .inf s, .inf t => if s = t then (signOf f s + f.inf, 0) else (f.nan, 16)
  | .inf s, _ => (signOf f s + f.inf, 0)
  | _, .inf t => (signOf f t + f.inf, 0)
  | .fin s m e, .fin t n d =>
    let g := if e < d then e else d
    let z := if m = 0 && n = 0 && s = t then s else rm == 2
    f.packInt rm (alignTo s m e g + alignTo t n d g) g z

/-- The negative of a value. -/
def FpV.neg : FpV → FpV
  | .nan s => .nan s
  | .inf s => .inf (!s)
  | .fin s m e => .fin (!s) m e

/-- Product, as an exact value; `none` when invalid. -/
def mulV (a b : FpV) : Option FpV :=
  match a, b with
  | .nan _, _ => some (.nan false)
  | _, .nan _ => some (.nan false)
  | .inf s, .inf t => some (.inf (s != t))
  | .inf s, .fin t n _ => if n = 0 then none else some (.inf (s != t))
  | .fin s m _, .inf t => if m = 0 then none else some (.inf (s != t))
  | .fin s m e, .fin t n d => some (.fin (s != t) (m * n) (e + d))

def FpFmt.mul (f : FpFmt) (rm : Nat) (a b : FpV) : Nat × Nat :=
  match mulV a b with
  | none => (f.nan, 16)
  | some (.nan _) => (f.nan, sigNv [a, b])
  | some (.inf s) => (signOf f s + f.inf, 0)
  | some (.fin s m e) => if m = 0 then (signOf f s, 0) else f.pack rm s m e false

/-- a * b + c with one rounding (04 Table 2). -/
def FpFmt.fma (f : FpFmt) (rm : Nat) (a b c : FpV) : Nat × Nat :=
  match mulV a b with
  | none =>
    match c with
    | .nan false => (f.nan, if Config.fmaNanInvalid then 16 else 0)
    | _ => (f.nan, 16)
  | some p =>
    match p, c with
    | .nan _, _ => (f.nan, sigNv [a, b, c])
    | _, .nan _ => (f.nan, sigNv [a, b, c])
    | _, _ => f.addV rm p c

def FpFmt.div (f : FpFmt) (rm : Nat) (a b : FpV) : Nat × Nat :=
  match a, b with
  | .nan _, _ => (f.nan, sigNv [a, b])
  | _, .nan _ => (f.nan, sigNv [a, b])
  | .inf _, .inf _ => (f.nan, 16)
  | .inf s, .fin t _ _ => (signOf f (s != t) + f.inf, 0)
  | .fin s _ _, .inf t => (signOf f (s != t), 0)
  | .fin s m e, .fin t n d =>
    if n = 0 then (if m = 0 then (f.nan, 16) else (signOf f (s != t) + f.inf, 8))
    else if m = 0 then (signOf f (s != t), 0)
    else
      let k := f.mb + 4 + Nat.log2 n
      let q := m * 2 ^ k / n
      f.pack rm (s != t) q (e - d - k) (m * 2 ^ k % n != 0)

def FpFmt.sqrt (f : FpFmt) (rm : Nat) (a : FpV) : Nat × Nat :=
  match a with
  | .nan _ => (f.nan, sigNv [a])
  | .inf s => if s then (f.nan, 16) else (f.inf, 0)
  | .fin s m e =>
    if m = 0 then (signOf f s, 0)
    else if s then (f.nan, 16)
    else
      let k := 2 * (f.mb + 4) + (if e % 2 = 0 then 0 else 1)
      let v := m * 2 ^ k
      let r := isqrt v
      f.pack rm false r ((e - k) / 2) (r * r != v)

/-- a < b for values that are not NaN. -/
def ltV (a b : FpV) : Bool :=
  match a, b with
  | .nan _, _ => false
  | _, .nan _ => false
  | .inf s, .inf t => s && !t
  | .inf s, .fin _ _ _ => s
  | .fin _ _ _, .inf t => !t
  | .fin s m e, .fin t n d =>
    let g := if e < d then e else d
    alignTo s m e g < alignTo t n d g

def eqV (a b : FpV) : Bool :=
  match a, b with
  | .nan _, _ => false
  | _, .nan _ => false
  | .inf s, .inf t => s == t
  | .inf _, _ => false
  | _, .inf _ => false
  | .fin s m e, .fin t n d =>
    let g := if e < d then e else d
    alignTo s m e g == alignTo t n d g

def FpV.isNan : FpV → Bool
  | .nan _ => true
  | _ => false

/-- FMIN and FMAX on encodings (04 Table 2): -0 counts as less than +0. -/
def FpFmt.minMax (f : FpFmt) (max : Bool) (x y : Nat) : Nat × Nat :=
  let a := f.unpack x
  let b := f.unpack y
  let nv := sigNv [a, b]
  if a.isNan && b.isNan then (f.nan, nv)
  else if a.isNan then (y, nv)
  else if b.isNan then (x, nv)
  else
    let less := ltV a b || (eqV a b && x / f.signBit % 2 == 1)
    (if less != max then x else y, nv)

/-- Round a finite value to an integer by RM: magnitude and whether inexact. -/
def toIntMag (rm : Nat) (s : Bool) (m : Nat) (e : Int) : Nat × Bool := roundAt rm s m e 0 false

/-- FCVT.L.D (04 Table 2). -/
def cvtLD (rm : Nat) (a : FpV) : Nat × Nat :=
  match a with
  | .nan _ => (0x7FFFFFFFFFFFFFFF, 16)
  | .inf s => (if s then 0x8000000000000000 else 0x7FFFFFFFFFFFFFFF, 16)
  | .fin s m e =>
    if e > 64 && m != 0 then (if s then 0x8000000000000000 else 0x7FFFFFFFFFFFFFFF, 16)
    else
      let r := toIntMag rm s m e
      if s then
        if r.1 > 2 ^ 63 then (0x8000000000000000, 16) else ((2 ^ 64 - r.1) % 2 ^ 64, if r.2 then 1 else 0)
      else if r.1 ≥ 2 ^ 63 then (0x7FFFFFFFFFFFFFFF, 16) else (r.1, if r.2 then 1 else 0)

/-- FCVT.D.L. -/
def cvtDL (rm : Nat) (v : W64) : Nat × Nat := fmtD.packInt rm v.toInt 0 false

/-- Conversion between formats. -/
def cvtFmt (g : FpFmt) (rm : Nat) (a : FpV) : Nat × Nat :=
  match a with
  | .nan _ => (g.nan, sigNv [a])
  | .inf s => (signOf g s + g.inf, 0)
  | .fin s m e => if m = 0 then (signOf g s, 0) else g.pack rm s m e false

end Sys2Proof.Machine
end

