-- ==== Sys2Proof/Machine/Flags.lean ====
section
/-! DEFINITION. FSTAT: the rounding mode, the sticky flags NV, DZ, OF, UF, NX, and their traps (04 R92, R93). -/
namespace Sys2Proof.Machine

/-- FSTAT.RM. -/
def Core.rm (c : Core) : Nat := bitsOf (c.creg 0x20) 14 12

/-- Set FSTAT flags, given as [4:0]. -/
def Core.setFlags (c : Core) (fl : Nat) : Core := c.setCreg 0x20 (c.creg 0x20 ||| BitVec.ofNat 64 (fl % 32))

/-- The raised flags whose enable bit is 1. -/
def Core.trapped (c : Core) (fl : Nat) : Nat := Nat.land fl (bitsOf (c.creg 0x20) 9 5)

/-- The flag reported of several that trap: the highest of FSTAT's [4:0] (log entry 24). -/
def topFlag (t : Nat) : Nat :=
  match topBit 5 t with
  | some i => 2 ^ i
  | none => 0

/-- FSTAT.DZ of an integer division by zero; a Juggler records none (04 R88, R123). -/
def Core.intDz (c : Core) (e : Engine) (zero : Bool) : Core := if zero && !isJug e then c.setFlags 8 else c

/-- Complete an FP instruction: flags, and either the result or FP exception (04 R92), which is raised in the cycle of the result (05 R148,
06 R169). `c` is the core before the instruction, `d` after it has been issued. -/
def fpDone (c d : Core) (fp : Bool) (dst : Nat) (r : Nat × Nat) (lat : Nat) : Core :=
  let t := c.trapped r.2
  let last := d.cyc + lat - 1
  let w := if bitsOf (c.creg 0x20) 9 5 = 0 then d.fpWin else max d.fpWin last
  let d1 := { d with fpEnd := max d.fpEnd last, fpWin := w }
  if t = 0 then (d1.setFlags r.2).put fp dst (BitVec.ofNat 64 r.1) lat
  else
    let x : Exc := { Exc.of 0x0E 0 c.pc with detail := topFlag t, det := last }
    { d1 with doom := some (d1.doom.getD ⟨x, (c.setFlags r.2).undoRec⟩) }

end Sys2Proof.Machine
end

