-- ==== Sys2Proof/Machine/FpOps.lean ====
section
/-! DEFINITION. The FP instructions (04 R89-R92, Table 2). No Juggler decodes them (04 R118). -/
namespace Sys2Proof.Machine

/-- An FP register as an operand of a format: binary32 takes [31:0] (04 R89). -/
def Core.fval (c : Core) (f : FpFmt) (r : Fin 32) : FpV := f.unpack ((c.freg r.val).toNat % (2 * f.signBit))

/-- An FP register's encoding in a format. -/
def Core.fbits (c : Core) (f : FpFmt) (r : Fin 32) : Nat := (c.freg r.val).toNat % (2 * f.signBit)

/-- An FP instruction whose encoding and flags are `f` of the core at issue. -/
def State.fpOp (s : State) (x : Iss) (toFp : Bool) (d : Fin 32) (lat : Nat) (f : Core → Nat × Nat) : State :=
  s.issue x .f .core false none
    (fun s => let c := s.entered x .f; s.setCore x.eng (fpDone (s.core x.eng) c toFp d.val (f c) lat))

def State.fp2 (s : State) (x : Iss) (f : FpFmt) (d a b : Fin 32) (lat : Nat) (op : Nat → FpV → FpV → Nat × Nat) : State :=
  s.fpOp x true d lat (fun c => op c.rm (c.fval f a) (c.fval f b))

def execFaddD (x : Iss) (d a b : Fin 32) (s : State) : Result := .next (s.fp2 x fmtD d a b 4 fmtD.addV)
def execFsubD (x : Iss) (d a b : Fin 32) (s : State) : Result :=
  .next (s.fp2 x fmtD d a b 4 (fun rm u v => fmtD.addV rm u v.neg))
def execFmulD (x : Iss) (d a b : Fin 32) (s : State) : Result := .next (s.fp2 x fmtD d a b 4 fmtD.mul)
def execFdivD (x : Iss) (d a b : Fin 32) (s : State) : Result := .next (s.fp2 x fmtD d a b 16 fmtD.div)
def execFsqrtD (x : Iss) (d a : Fin 32) (s : State) : Result :=
  .next (s.fpOp x true d 20 (fun c => fmtD.sqrt c.rm (c.fval fmtD a)))
def execFmaD (x : Iss) (d a b : Fin 32) (s : State) : Result :=
  .next (s.fpOp x true d 5 (fun c => fmtD.fma c.rm (c.fval fmtD a) (c.fval fmtD b) (c.fval fmtD d)))
def execFminD (x : Iss) (d a b : Fin 32) (s : State) : Result :=
  .next (s.fpOp x true d 4 (fun c => fmtD.minMax false (c.fbits fmtD a) (c.fbits fmtD b)))
def execFmaxD (x : Iss) (d a b : Fin 32) (s : State) : Result :=
  .next (s.fpOp x true d 4 (fun c => fmtD.minMax true (c.fbits fmtD a) (c.fbits fmtD b)))
def execFaddS (x : Iss) (d a b : Fin 32) (s : State) : Result := .next (s.fp2 x fmtS d a b 4 fmtS.addV)
def execFsubS (x : Iss) (d a b : Fin 32) (s : State) : Result :=
  .next (s.fp2 x fmtS d a b 4 (fun rm u v => fmtS.addV rm u v.neg))
def execFmulS (x : Iss) (d a b : Fin 32) (s : State) : Result := .next (s.fp2 x fmtS d a b 4 fmtS.mul)
def execFdivS (x : Iss) (d a b : Fin 32) (s : State) : Result := .next (s.fp2 x fmtS d a b 16 fmtS.div)
def execFsqrtS (x : Iss) (d a : Fin 32) (s : State) : Result :=
  .next (s.fpOp x true d 20 (fun c => fmtS.sqrt c.rm (c.fval fmtS a)))
def execFmaS (x : Iss) (d a b : Fin 32) (s : State) : Result :=
  .next (s.fpOp x true d 5 (fun c => fmtS.fma c.rm (c.fval fmtS a) (c.fval fmtS b) (c.fval fmtS d)))
def execFminS (x : Iss) (d a b : Fin 32) (s : State) : Result :=
  .next (s.fpOp x true d 4 (fun c => fmtS.minMax false (c.fbits fmtS a) (c.fbits fmtS b)))
def execFmaxS (x : Iss) (d a b : Fin 32) (s : State) : Result :=
  .next (s.fpOp x true d 4 (fun c => fmtS.minMax true (c.fbits fmtS a) (c.fbits fmtS b)))

/-- A comparison's result. FCMP is no .S instruction (04 R89), so it compares binary64 values. -/
def b2n (b : Bool) : Nat := if b then 1 else 0
/-- NV of an ordered comparison: any NaN (04 Table 2). -/
def anyNanNv (a b : FpV) : Nat := if a.isNan || b.isNan then 16 else 0

def execFcmpEq (x : Iss) (d a b : Fin 32) (s : State) : Result :=
  .next (s.fpOp x false d 2 (fun c => let u := c.fval fmtD a; let v := c.fval fmtD b
                                      (b2n (eqV u v), sigNv [u, v])))
def execFcmpLt (x : Iss) (d a b : Fin 32) (s : State) : Result :=
  .next (s.fpOp x false d 2 (fun c => let u := c.fval fmtD a; let v := c.fval fmtD b
                                      (b2n (ltV u v), anyNanNv u v)))
def execFcmpLe (x : Iss) (d a b : Fin 32) (s : State) : Result :=
  .next (s.fpOp x false d 2 (fun c => let u := c.fval fmtD a; let v := c.fval fmtD b
                                      (b2n (ltV u v || eqV u v), anyNanNv u v)))
def execFcvtDS (x : Iss) (d a : Fin 32) (s : State) : Result :=
  .next (s.fpOp x true d 4 (fun c => cvtFmt fmtD c.rm (c.fval fmtS a)))
def execFcvtSD (x : Iss) (d a : Fin 32) (s : State) : Result :=
  .next (s.fpOp x true d 4 (fun c => cvtFmt fmtS c.rm (c.fval fmtD a)))
def execFcvtDL (x : Iss) (d a : Fin 32) (s : State) : Result :=
  .next (s.fpOp x true d 4 (fun c => cvtDL c.rm (c.greg a.val)))
def execFcvtLD (x : Iss) (d a : Fin 32) (s : State) : Result :=
  .next (s.fpOp x false d 4 (fun c => cvtLD c.rm (c.fval fmtD a)))
def execFmovG (x : Iss) (d a : Fin 32) (s : State) : Result :=
  .next (s.fpOp x false d 2 (fun c => ((c.freg a.val).toNat, 0)))
def execFmovF (x : Iss) (d a : Fin 32) (s : State) : Result :=
  .next (s.fpOp x true d 2 (fun c => ((c.greg a.val).toNat, 0)))
def execFnegD (x : Iss) (d a : Fin 32) (s : State) : Result :=
  .next (s.fpOp x true d 1 (fun c => ((c.freg a.val ^^^ 0x8000000000000000).toNat, 0)))
def execFabsD (x : Iss) (d a : Fin 32) (s : State) : Result :=
  .next (s.fpOp x true d 1 (fun c => ((c.freg a.val &&& 0x7FFFFFFFFFFFFFFF).toNat, 0)))

end Sys2Proof.Machine
end

