-- ==== Sys2Proof/Machine/IntAlu.lean ====
section
/-! DEFINITION. The integer instructions (04 R85-R88). -/
namespace Sys2Proof.Machine

/-- A 32-bit result sign-extended from bit 31 (04 R85). -/
def wide32 (v : BitVec 32) : W64 := v.signExtend 64

/-- An operation that NARROW performs on [31:0] of both sources (04 R85). -/
def narrow2 (n : Bool) (f : W64 → W64 → W64) (g : BitVec 32 → BitVec 32 → BitVec 32) (a b : W64) : W64 :=
  if n then wide32 (g (a.truncate 32) (b.truncate 32)) else f a b

def addV (n : Bool) : W64 → W64 → W64 := narrow2 n (· + ·) (· + ·)
def subV (n : Bool) : W64 → W64 → W64 := narrow2 n (· - ·) (· - ·)
def shlV (n : Bool) : W64 → W64 → W64 := narrow2 n (fun a b => a <<< (b.toNat % 64)) (fun a b => a <<< (b.toNat % 32))
def shrV (n : Bool) : W64 → W64 → W64 := narrow2 n (fun a b => a >>> (b.toNat % 64)) (fun a b => a >>> (b.toNat % 32))
def sarV (n : Bool) : W64 → W64 → W64 :=
  narrow2 n (fun a b => a.sshiftRight (b.toNat % 64)) (fun a b => a.sshiftRight (b.toNat % 32))
def mulVal (n : Bool) : W64 → W64 → W64 := narrow2 n (· * ·) (· * ·)

/-- [127:64] of the signed product. -/
def mulhVal (a b : W64) : W64 := BitVec.ofInt 64 (a.toInt * b.toInt / 2 ^ 64)

/-- Signed quotient toward zero; all ones for a zero divisor; the most negative value by -1 gives itself (04 R88). -/
def divW {w : Nat} (a b : BitVec w) : BitVec w := if b = 0 then BitVec.allOnes w else BitVec.ofInt w (a.toInt.tdiv b.toInt)
/-- Signed remainder with the sign of the dividend; the dividend for a zero divisor (04 R88). -/
def remW {w : Nat} (a b : BitVec w) : BitVec w := if b = 0 then a else BitVec.ofInt w (a.toInt.tmod b.toInt)
def divuW {w : Nat} (a b : BitVec w) : BitVec w := if b = 0 then BitVec.allOnes w else BitVec.ofNat w (a.toNat / b.toNat)
def remuW {w : Nat} (a b : BitVec w) : BitVec w := if b = 0 then a else BitVec.ofNat w (a.toNat % b.toNat)

/-- Whether the divisor an instruction sees is zero. -/
def zeroDiv (n : Bool) (b : W64) : Bool := if n then (b.truncate 32 : BitVec 32) == 0 else b == 0

def sltV (a b : W64) : W64 := if a.toInt < b.toInt then 1 else 0
def sltuV (a b : W64) : W64 := if a.toNat < b.toNat then 1 else 0

/-- Two general sources, one general destination. -/
def State.alu2 (s : State) (x : Iss) (safe : Bool) (d a b : Fin 32) (lat : Nat) (f : W64 → W64 → W64) : State :=
  s.issuePure x .i .all safe none (fun c => c.put false d.val (f (c.greg a.val) (c.greg b.val)) lat)

/-- One general source and an immediate. -/
def State.aluImm (s : State) (x : Iss) (d a : Fin 32) (f : W64 → W64) : State :=
  s.issuePure x .i .all false none (fun c => c.put false d.val (f (c.greg a.val)) 1)

/-- A division: the result after 20 cycles, and FSTAT.DZ for a zero divisor. -/
def State.division (s : State) (x : Iss) (n : Bool) (d a b : Fin 32) (f : W64 → W64 → W64) : State :=
  s.issuePure x .i .all true none
    (fun c => ({ c with fpEnd := max c.fpEnd (c.cyc + 19) }.intDz x.eng (zeroDiv n (c.greg b.val))).put false d.val (f (c.greg a.val) (c.greg b.val)) 20)

def execNop (x : Iss) (s : State) : Result := .next (s.issuePure x .i .all true none id)
def execAdd (x : Iss) (n : Bool) (d a b : Fin 32) (s : State) : Result := .next (s.alu2 x true d a b 1 (addV n))
def execSub (x : Iss) (n : Bool) (d a b : Fin 32) (s : State) : Result := .next (s.alu2 x true d a b 1 (subV n))
def execAnd (x : Iss) (d a b : Fin 32) (s : State) : Result := .next (s.alu2 x true d a b 1 (· &&& ·))
def execOr (x : Iss) (d a b : Fin 32) (s : State) : Result := .next (s.alu2 x true d a b 1 (· ||| ·))
def execXor (x : Iss) (d a b : Fin 32) (s : State) : Result := .next (s.alu2 x true d a b 1 (· ^^^ ·))
def execShl (x : Iss) (n : Bool) (d a b : Fin 32) (s : State) : Result := .next (s.alu2 x true d a b 1 (shlV n))
def execShr (x : Iss) (n : Bool) (d a b : Fin 32) (s : State) : Result := .next (s.alu2 x true d a b 1 (shrV n))
def execSar (x : Iss) (n : Bool) (d a b : Fin 32) (s : State) : Result := .next (s.alu2 x true d a b 1 (sarV n))
def execMul (x : Iss) (n : Bool) (d a b : Fin 32) (s : State) : Result := .next (s.alu2 x true d a b 3 (mulVal n))
def execMulh (x : Iss) (d a b : Fin 32) (s : State) : Result := .next (s.alu2 x true d a b 3 mulhVal)
def execDiv (x : Iss) (n : Bool) (d a b : Fin 32) (s : State) : Result :=
  .next (s.division x n d a b (narrow2 n divW divW))
def execDivu (x : Iss) (n : Bool) (d a b : Fin 32) (s : State) : Result :=
  .next (s.division x n d a b (narrow2 n divuW divuW))
def execRem (x : Iss) (n : Bool) (d a b : Fin 32) (s : State) : Result :=
  .next (s.division x n d a b (narrow2 n remW remW))
def execRemu (x : Iss) (n : Bool) (d a b : Fin 32) (s : State) : Result :=
  .next (s.division x n d a b (narrow2 n remuW remuW))
def execSlt (x : Iss) (d a b : Fin 32) (s : State) : Result := .next (s.alu2 x true d a b 1 sltV)
def execSltu (x : Iss) (d a b : Fin 32) (s : State) : Result := .next (s.alu2 x true d a b 1 sltuV)
def execAddi (x : Iss) (n : Bool) (d a : Fin 32) (i : W64) (s : State) : Result :=
  .next (s.aluImm x d a (fun v => addV n v i))
def execAndi (x : Iss) (d a : Fin 32) (i : W64) (s : State) : Result := .next (s.aluImm x d a (· &&& i))
def execOri (x : Iss) (d a : Fin 32) (i : W64) (s : State) : Result := .next (s.aluImm x d a (· ||| i))
def execXori (x : Iss) (d a : Fin 32) (i : W64) (s : State) : Result := .next (s.aluImm x d a (· ^^^ i))
/-- Under NARROW bit 5 of the shift amount is reserved (03 R66). -/
def shiftCheck (n : Bool) (sh : Fin 64) : Option Nat := if n && 32 ≤ sh.val then some subField else none
def State.shiftImm (s : State) (x : Iss) (n : Bool) (d a : Fin 32) (sh : Fin 64) (f : W64 → W64 → W64) : State :=
  s.issuePure x .i .all false (shiftCheck n sh)
    (fun c => c.put false d.val (f (c.greg a.val) (BitVec.ofNat 64 sh.val)) 1)
def execShli (x : Iss) (n : Bool) (d a : Fin 32) (sh : Fin 64) (s : State) : Result :=
  .next (s.shiftImm x n d a sh (shlV n))
def execShri (x : Iss) (n : Bool) (d a : Fin 32) (sh : Fin 64) (s : State) : Result :=
  .next (s.shiftImm x n d a sh (shrV n))
def execSari (x : Iss) (n : Bool) (d a : Fin 32) (sh : Fin 64) (s : State) : Result :=
  .next (s.shiftImm x n d a sh (sarV n))
def execSlti (x : Iss) (d a : Fin 32) (i : W64) (s : State) : Result := .next (s.aluImm x d a (fun v => sltV v i))
def execSltiu (x : Iss) (d a : Fin 32) (i : W64) (s : State) : Result := .next (s.aluImm x d a (fun v => sltuV v i))
def execLi (x : Iss) (d : Fin 32) (i : W64) (s : State) : Result :=
  .next (s.issuePure x .i .all false none (fun c => c.put false d.val i 1))

end Sys2Proof.Machine
end

