-- ==== Sys2Proof/Machine/Dispatch.lean ====
section
/-! DEFINITION. One arm per command: its meaning, or its name where it has none yet. -/
namespace Sys2Proof.Machine

/-- The effect of a command on everything but the queue. -/
def exec (i : Instr) (s : State) : Host.Outcome State Fault Refusal :=
  match i with
  | .registerWrite r a sz v => Sys2Proof.Machine.execRegisterWrite r a sz v s
  | .elogRdWrite r rd => Sys2Proof.Machine.execElogRdWrite r rd s
  | .imageLoad => Sys2Proof.Machine.execImageLoad s
  | .writeRecord sec a v => Sys2Proof.Machine.execWriteRecord sec a v s
  | .kwriteRecord sec a v c => Sys2Proof.Machine.execKwriteRecord sec a v c s
  | .fillRecord sec a data => Sys2Proof.Machine.execFillRecord sec a data s
  | .claimRecord sec cls owner first count => Sys2Proof.Machine.execClaimRecord sec cls owner first count s
  | .partRecord sec pid world tol mask entry => Sys2Proof.Machine.execPartRecord sec pid world tol mask entry s
  | .stage r => Sys2Proof.Machine.execStage r s
  | .deltaVerifyDone => Sys2Proof.Machine.execDeltaVerifyDone s
  | .activate r => Sys2Proof.Machine.execActivate r s
  | .cancel r => Sys2Proof.Machine.execCancel r s
  | .commit r => Sys2Proof.Machine.execCommit r s
  | .deltaActivation => Sys2Proof.Machine.execDeltaActivation s
  | .fabricPlanSwitch => Sys2Proof.Machine.execFabricPlanSwitch s
  | .routerBankSwap g => Sys2Proof.Machine.execRouterBankSwap g s
  | .illegalInstruction eng bytes => Sys2Proof.Machine.execIllegalInstruction eng bytes s
  | .nop x => Sys2Proof.Machine.execNop x s
  | .isync x => Sys2Proof.Machine.execIsync x s
  | .fence x => Sys2Proof.Machine.execFence x s
  | .fenceSl x => Sys2Proof.Machine.execFenceSl x s
  | .fenceIo x => Sys2Proof.Machine.execFenceIo x s
  | .fenceCompletion eng => Sys2Proof.Machine.execFenceCompletion eng s
  | .retm x => Sys2Proof.Machine.execRetm x s
  | .sc x => Sys2Proof.Machine.execSc x s
  | .brk x => Sys2Proof.Machine.execBrk x s
  | .add x narrow dst src1 src2 => Sys2Proof.Machine.execAdd x narrow dst src1 src2 s
  | .sub x narrow dst src1 src2 => Sys2Proof.Machine.execSub x narrow dst src1 src2 s
  | .and x dst src1 src2 => Sys2Proof.Machine.execAnd x dst src1 src2 s
  | .or x dst src1 src2 => Sys2Proof.Machine.execOr x dst src1 src2 s
  | .xor x dst src1 src2 => Sys2Proof.Machine.execXor x dst src1 src2 s
  | .shl x narrow dst src1 src2 => Sys2Proof.Machine.execShl x narrow dst src1 src2 s
  | .shr x narrow dst src1 src2 => Sys2Proof.Machine.execShr x narrow dst src1 src2 s
  | .sar x narrow dst src1 src2 => Sys2Proof.Machine.execSar x narrow dst src1 src2 s
  | .mul x narrow dst src1 src2 => Sys2Proof.Machine.execMul x narrow dst src1 src2 s
  | .mulh x dst src1 src2 => Sys2Proof.Machine.execMulh x dst src1 src2 s
  | .div x narrow dst src1 src2 => Sys2Proof.Machine.execDiv x narrow dst src1 src2 s
  | .divu x narrow dst src1 src2 => Sys2Proof.Machine.execDivu x narrow dst src1 src2 s
  | .rem x narrow dst src1 src2 => Sys2Proof.Machine.execRem x narrow dst src1 src2 s
  | .remu x narrow dst src1 src2 => Sys2Proof.Machine.execRemu x narrow dst src1 src2 s
  | .slt x dst src1 src2 => Sys2Proof.Machine.execSlt x dst src1 src2 s
  | .sltu x dst src1 src2 => Sys2Proof.Machine.execSltu x dst src1 src2 s
  | .addi x narrow dst src1 imm => Sys2Proof.Machine.execAddi x narrow dst src1 imm s
  | .andi x dst src1 imm => Sys2Proof.Machine.execAndi x dst src1 imm s
  | .ori x dst src1 imm => Sys2Proof.Machine.execOri x dst src1 imm s
  | .xori x dst src1 imm => Sys2Proof.Machine.execXori x dst src1 imm s
  | .shli x narrow dst src1 sh => Sys2Proof.Machine.execShli x narrow dst src1 sh s
  | .shri x narrow dst src1 sh => Sys2Proof.Machine.execShri x narrow dst src1 sh s
  | .sari x narrow dst src1 sh => Sys2Proof.Machine.execSari x narrow dst src1 sh s
  | .slti x dst src1 imm => Sys2Proof.Machine.execSlti x dst src1 imm s
  | .sltiu x dst src1 imm => Sys2Proof.Machine.execSltiu x dst src1 imm s
  | .li x dst imm => Sys2Proof.Machine.execLi x dst imm s
  | .ldB x m rd => Sys2Proof.Machine.execLdB x m rd s
  | .ldBu x m rd => Sys2Proof.Machine.execLdBu x m rd s
  | .ldH x m rd => Sys2Proof.Machine.execLdH x m rd s
  | .ldHu x m rd => Sys2Proof.Machine.execLdHu x m rd s
  | .ldW x m rd => Sys2Proof.Machine.execLdW x m rd s
  | .ldWu x m rd => Sys2Proof.Machine.execLdWu x m rd s
  | .ldD x m rd => Sys2Proof.Machine.execLdD x m rd s
  | .lea x f rd => Sys2Proof.Machine.execLea x f rd s
  | .stB x m rs => Sys2Proof.Machine.execStB x m rs s
  | .stH x m rs => Sys2Proof.Machine.execStH x m rs s
  | .stW x m rs => Sys2Proof.Machine.execStW x m rs s
  | .stD x m rs => Sys2Proof.Machine.execStD x m rs s
  | .faddD x dst src1 src2 => Sys2Proof.Machine.execFaddD x dst src1 src2 s
  | .fsubD x dst src1 src2 => Sys2Proof.Machine.execFsubD x dst src1 src2 s
  | .fmulD x dst src1 src2 => Sys2Proof.Machine.execFmulD x dst src1 src2 s
  | .fdivD x dst src1 src2 => Sys2Proof.Machine.execFdivD x dst src1 src2 s
  | .fsqrtD x dst src1 => Sys2Proof.Machine.execFsqrtD x dst src1 s
  | .fmaD x dst src1 src2 => Sys2Proof.Machine.execFmaD x dst src1 src2 s
  | .fminD x dst src1 src2 => Sys2Proof.Machine.execFminD x dst src1 src2 s
  | .fmaxD x dst src1 src2 => Sys2Proof.Machine.execFmaxD x dst src1 src2 s
  | .faddS x dst src1 src2 => Sys2Proof.Machine.execFaddS x dst src1 src2 s
  | .fsubS x dst src1 src2 => Sys2Proof.Machine.execFsubS x dst src1 src2 s
  | .fmulS x dst src1 src2 => Sys2Proof.Machine.execFmulS x dst src1 src2 s
  | .fdivS x dst src1 src2 => Sys2Proof.Machine.execFdivS x dst src1 src2 s
  | .fsqrtS x dst src1 => Sys2Proof.Machine.execFsqrtS x dst src1 s
  | .fmaS x dst src1 src2 => Sys2Proof.Machine.execFmaS x dst src1 src2 s
  | .fminS x dst src1 src2 => Sys2Proof.Machine.execFminS x dst src1 src2 s
  | .fmaxS x dst src1 src2 => Sys2Proof.Machine.execFmaxS x dst src1 src2 s
  | .fcmpEq x dst src1 src2 => Sys2Proof.Machine.execFcmpEq x dst src1 src2 s
  | .fcmpLt x dst src1 src2 => Sys2Proof.Machine.execFcmpLt x dst src1 src2 s
  | .fcmpLe x dst src1 src2 => Sys2Proof.Machine.execFcmpLe x dst src1 src2 s
  | .fcvtDS x dst src1 => Sys2Proof.Machine.execFcvtDS x dst src1 s
  | .fcvtSD x dst src1 => Sys2Proof.Machine.execFcvtSD x dst src1 s
  | .fcvtDL x dst src1 => Sys2Proof.Machine.execFcvtDL x dst src1 s
  | .fcvtLD x dst src1 => Sys2Proof.Machine.execFcvtLD x dst src1 s
  | .fmovG x dst src1 => Sys2Proof.Machine.execFmovG x dst src1 s
  | .fmovF x dst src1 => Sys2Proof.Machine.execFmovF x dst src1 s
  | .fnegD x dst src1 => Sys2Proof.Machine.execFnegD x dst src1 s
  | .fabsD x dst src1 => Sys2Proof.Machine.execFabsD x dst src1 s
  | .beq x hint src1 src2 disp => Sys2Proof.Machine.execBeq x hint src1 src2 disp s
  | .bne x hint src1 src2 disp => Sys2Proof.Machine.execBne x hint src1 src2 disp s
  | .blt x hint src1 src2 disp => Sys2Proof.Machine.execBlt x hint src1 src2 disp s
  | .bge x hint src1 src2 disp => Sys2Proof.Machine.execBge x hint src1 src2 disp s
  | .bltu x hint src1 src2 disp => Sys2Proof.Machine.execBltu x hint src1 src2 disp s
  | .bgeu x hint src1 src2 disp => Sys2Proof.Machine.execBgeu x hint src1 src2 disp s
  | .beqi x hint src1 imm disp => Sys2Proof.Machine.execBeqi x hint src1 imm disp s
  | .bnei x hint src1 imm disp => Sys2Proof.Machine.execBnei x hint src1 imm disp s
  | .blti x hint src1 imm disp => Sys2Proof.Machine.execBlti x hint src1 imm disp s
  | .bgei x hint src1 imm disp => Sys2Proof.Machine.execBgei x hint src1 imm disp s
  | .j x disp => Sys2Proof.Machine.execJ x disp s
  | .jr x src1 => Sys2Proof.Machine.execJr x src1 s
  | .callm x disp mask => Sys2Proof.Machine.execCallm x disp mask s
  | .callmr x src1 mask => Sys2Proof.Machine.execCallmr x src1 mask s
  | .mfcr x dst n => Sys2Proof.Machine.execMfcr x dst n s
  | .mtcr x n src1 => Sys2Proof.Machine.execMtcr x n src1 s
  | .hctxWrite x src1 => Sys2Proof.Machine.execHctxWrite x src1 s
  | .iclaim x dst => Sys2Proof.Machine.execIclaim x dst s
  | .hiclaim x dst => Sys2Proof.Machine.execHiclaim x dst s
  | .ieoi x src1 => Sys2Proof.Machine.execIeoi x src1 s
  | .hieoi x src1 => Sys2Proof.Machine.execHieoi x src1 s
  | .eret x => Sys2Proof.Machine.execEret x s
  | .wfi x => Sys2Proof.Machine.execWfi x s
  | .wfiWake eng => Sys2Proof.Machine.execWfiWake eng s
  | .predclr x => Sys2Proof.Machine.execPredclr x s
  | .hc x => Sys2Proof.Machine.execHc x s
  | .tlbiAll x => Sys2Proof.Machine.execTlbiAll x s
  | .tlbiVa x src1 src2 => Sys2Proof.Machine.execTlbiVa x src1 src2 s
  | .tlbiAsid x src1 => Sys2Proof.Machine.execTlbiAsid x src1 s
  | .fldS x m rd => Sys2Proof.Machine.execFldS x m rd s
  | .fldD x m rd => Sys2Proof.Machine.execFldD x m rd s
  | .fstS x m rs => Sys2Proof.Machine.execFstS x m rs s
  | .fstD x m rs => Sys2Proof.Machine.execFstD x m rs s
  | .pref x f hint stream => Sys2Proof.Machine.execPref x f hint stream s
  | .ldrD x f acq rd => Sys2Proof.Machine.execLdrD x f acq rd s
  | .ldrW x f acq rd => Sys2Proof.Machine.execLdrW x f acq rd s
  | .stcD x f rel rd => Sys2Proof.Machine.execStcD x f rel rd s
  | .stcW x f rel rd => Sys2Proof.Machine.execStcW x f rel rd s
  | .amoaddD x f acq rel rd => Sys2Proof.Machine.execAmoaddD x f acq rel rd s
  | .amoswapD x f acq rel rd => Sys2Proof.Machine.execAmoswapD x f acq rel rd s
  | .amoandD x f acq rel rd => Sys2Proof.Machine.execAmoandD x f acq rel rd s
  | .amoorD x f acq rel rd => Sys2Proof.Machine.execAmoorD x f acq rel rd s
  | .amomaxuD x f acq rel rd => Sys2Proof.Machine.execAmomaxuD x f acq rel rd s
  | .dccl x f => Sys2Proof.Machine.execDccl x f s
  | .dcil x f => Sys2Proof.Machine.execDcil x f s
  | .dcfl x f => Sys2Proof.Machine.execDcfl x f s
  | .icil x f => Sys2Proof.Machine.execIcil x f s
  | .twait x src1 => Sys2Proof.Machine.execTwait x src1 s
  | .twaitEnd g k => Sys2Proof.Machine.execTwaitEnd g k s
  | .tnow x dst => Sys2Proof.Machine.execTnow x dst s
  | .prx x dst src1 => Sys2Proof.Machine.execPrx x dst src1 s
  | .ptx x dst src1 src2 => Sys2Proof.Machine.execPtx x dst src1 src2 s
  | .pst x dst src1 => Sys2Proof.Machine.execPst x dst src1 s
  | .pctl x src1 src2 => Sys2Proof.Machine.execPctl x src1 src2 s
  | .pin x dst src1 => Sys2Proof.Machine.execPin x dst src1 s
  | .pout x src1 src2 => Sys2Proof.Machine.execPout x src1 src2 s
  | .frput x dst src1 src2 => Sys2Proof.Machine.execFrput x dst src1 src2 s
  | .frget x dst src1 => Sys2Proof.Machine.execFrget x dst src1 s
  | .tset x src1 src2 => Sys2Proof.Machine.execTset x src1 src2 s
  | .tchk x dst src1 => Sys2Proof.Machine.execTchk x dst src1 s
  | .groupTimerFire g t => Sys2Proof.Machine.execGroupTimerFire g t s
  | .loadDataArrival eng => Sys2Proof.Machine.execLoadDataArrival eng s
  | .fetchFill eng va => Sys2Proof.Machine.execFetchFill eng va s
  | .storeBufferDrain eng => Sys2Proof.Machine.execStoreBufferDrain eng s
  | .tableWalk eng va fetch store => Sys2Proof.Machine.execTableWalk eng va fetch store s
  | .exceptionEntry eng => Sys2Proof.Machine.execExceptionEntry eng s
  | .interruptEntry eng => Sys2Proof.Machine.execInterruptEntry eng s
  | .guestTimer l => Sys2Proof.Machine.execGuestTimer l s
  | .hTimer l => Sys2Proof.Machine.execHTimer l s
  | .msgirq r c id => Sys2Proof.Machine.execMsgirq r c id s
  | .intmsg id => Sys2Proof.Machine.execIntmsg id s
  | .clean r c t => Sys2Proof.Machine.execClean r c t s
  | .inval r c t incl => Sys2Proof.Machine.execInval r c t incl s
  | .flush r c t incl => Sys2Proof.Machine.execFlush r c t incl s
  | .lock r c t pid => Sys2Proof.Machine.execLock r c t pid s
  | .unlock r c t => Sys2Proof.Machine.execUnlock r c t s
  | .abort r c => Sys2Proof.Machine.execAbort r c s
  | .skidderDone c => Sys2Proof.Machine.execSkidderDone c s
  | .cacheControlWrite r c which v => Sys2Proof.Machine.execCacheControlWrite r c which v s
  | .cacheDisableDone c which => Sys2Proof.Machine.execCacheDisableDone c which s
  | .ageParityError c => Sys2Proof.Machine.execAgeParityError c s
  | .arrayError a pa correctable => Sys2Proof.Machine.execArrayError a pa correctable s
  | .arrayPatrolRead a pa => Sys2Proof.Machine.execArrayPatrolRead a pa s
  | .rds q => Sys2Proof.Machine.execRds q s
  | .rdx q => Sys2Proof.Machine.execRdx q s
  | .upg q => Sys2Proof.Machine.execUpg q s
  | .wbd q data poison => Sys2Proof.Machine.execWbd q data poison s
  | .evc q => Sys2Proof.Machine.execEvc q s
  | .iord q => Sys2Proof.Machine.execIord q s
  | .iowr q mask data poison => Sys2Proof.Machine.execIowr q mask data poison s
  | .snps agent line => Sys2Proof.Machine.execSnps agent line s
  | .snpi agent line => Sys2Proof.Machine.execSnpi agent line s
  | .snpx agent line => Sys2Proof.Machine.execSnpx agent line s
  | .data dst agent line => Sys2Proof.Machine.execData dst agent line s
  | .ack dst agent line => Sys2Proof.Machine.execAck dst agent line s
  | .ackevicted agent line => Sys2Proof.Machine.execAckevicted agent line s
  | .retry agent line => Sys2Proof.Machine.execRetry agent line s
  | .poison agent line => Sys2Proof.Machine.execPoison agent line s
  | .absent agent addr tag => Sys2Proof.Machine.execAbsent agent addr tag s
  | .drd r a sz tag => Sys2Proof.Machine.execDrd r a sz tag s
  | .dwr r a sz v tag => Sys2Proof.Machine.execDwr r a sz v tag s
  | .drsp r a tag => Sys2Proof.Machine.execDrsp r a tag s
  | .snoopTimeout agent line => Sys2Proof.Machine.execSnoopTimeout agent line s
  | .lookoutDecision agent line v => Sys2Proof.Machine.execLookoutDecision agent line v s
  | .forerunnerTimeout agent line => Sys2Proof.Machine.execForerunnerTimeout agent line s
  | .dieFailure d => Sys2Proof.Machine.execDieFailure d s
  | .migrationLineCopy second => Sys2Proof.Machine.execMigrationLineCopy second s
  | .spareSteer second => Sys2Proof.Machine.execSpareSteer second s
  | .scrubLine line => Sys2Proof.Machine.execScrubLine line s
  | .linkCrcError plane r at_ => Sys2Proof.Machine.execLinkCrcError plane r at_ s
  | .e2eack src dst ackseq => Sys2Proof.Machine.execE2eack src dst ackseq s
  | .e2enak src dst expected => Sys2Proof.Machine.execE2enak src dst expected s
  | .e2eAckTimeout src dst => Sys2Proof.Machine.execE2eAckTimeout src dst s
  | .e2eResendTimeout src dst => Sys2Proof.Machine.execE2eResendTimeout src dst s
  | .planeFailure plane => Sys2Proof.Machine.execPlaneFailure plane s
  | .planeMove src dst => Sys2Proof.Machine.execPlaneMove src dst s
  | .planeReinitDone plane pass => Sys2Proof.Machine.execPlaneReinitDone plane pass s
  | .acceptTimeout dst tag => Sys2Proof.Machine.execAcceptTimeout dst tag s
  | .timeSlotFrameStart => Sys2Proof.Machine.execTimeSlotFrameStart s
  | .slotAdmission h sv => Sys2Proof.Machine.execSlotAdmission h sv s
  | .positionRun r g p owner => Sys2Proof.Machine.execPositionRun r g p owner s
  | .positionLoadDone g p => Sys2Proof.Machine.execPositionLoadDone g p s
  | .positionHalt r g p owner => Sys2Proof.Machine.execPositionHalt r g p owner s
  | .slotStart g p => Sys2Proof.Machine.execSlotStart g p s
  | .positionStoreWrite r g off sz v => Sys2Proof.Machine.execPositionStoreWrite r g off sz v s
  | .positionStorePatrol g p alt data w => Sys2Proof.Machine.execPositionStorePatrol g p alt data w s
  | .jugglerHardFault g k why => Sys2Proof.Machine.execJugglerHardFault g k why s
  | .spareJoin g p => Sys2Proof.Machine.execSpareJoin g p s
  | .jugglerTakeover g p => Sys2Proof.Machine.execJugglerTakeover g p s
  | .qpcfgWrite r g q v => Sys2Proof.Machine.execQpcfgWrite r g q v s
  | .qpTailWrite r g q tx v => Sys2Proof.Machine.execQpTailWrite r g q tx v s
  | .rxDescriptorWrite g q => Sys2Proof.Machine.execRxDescriptorWrite g q s
  | .txDescriptorFetch g q => Sys2Proof.Machine.execTxDescriptorFetch g q s
  | .txLaunch g q => Sys2Proof.Machine.execTxLaunch g q s
  | .portEnable r p => Sys2Proof.Machine.execPortEnable r p s
  | .portDisable r p => Sys2Proof.Machine.execPortDisable r p s
  | .portTestDone p pass code => Sys2Proof.Machine.execPortTestDone p pass code s
  | .errclr r p => Sys2Proof.Machine.execErrclr r p s
  | .txflush g k l => Sys2Proof.Machine.execTxflush g k l s
  | .rxflush g k l => Sys2Proof.Machine.execRxflush g k l s
  | .recover g k l => Sys2Proof.Machine.execRecover g k l s
  | .standbyTransceiver g k l => Sys2Proof.Machine.execStandbyTransceiver g k l s
  | .sleep g k l => Sys2Proof.Machine.execSleep g k l s
  | .wakePulse g k l => Sys2Proof.Machine.execWakePulse g k l s
  | .gate g k l m => Sys2Proof.Machine.execGate g k l m s
  | .supply g k l on => Sys2Proof.Machine.execSupply g k l on s
  | .sync g k l on => Sys2Proof.Machine.execSync g k l on s
  | .adcRequest g k l => Sys2Proof.Machine.execAdcRequest g k l s
  | .adcConversionDone g raw => Sys2Proof.Machine.execAdcConversionDone g raw s
  | .canFrameReceive p f => Sys2Proof.Machine.execCanFrameReceive p f s
  | .canBusOff p => Sys2Proof.Machine.execCanBusOff p s
  | .canTransceiverFault p why => Sys2Proof.Machine.execCanTransceiverFault p why s
  | .canSelectiveWake p f good => Sys2Proof.Machine.execCanSelectiveWake p f good s
  | .linFrameReceive p id enhanced data status => Sys2Proof.Machine.execLinFrameReceive p id enhanced data status s
  | .linResponseTimeout p => Sys2Proof.Machine.execLinResponseTimeout p s
  | .linWake p us => Sys2Proof.Machine.execLinWake p us s
  | .ethernetFrameReceive p frame fcsOk secured secOk => Sys2Proof.Machine.execEthernetFrameReceive p frame fcsOk secured secOk s
  | .sentFrameReceive p slow enhanced id nibbles tick calUnits prevUnits crcOk payload => Sys2Proof.Machine.execSentFrameReceive p slow enhanced id nibbles tick calUnits prevUnits crcOk payload s
  | .psi5FrameReceive p bits crcOk => Sys2Proof.Machine.execPsi5FrameReceive p bits crcOk s
  | .sensorSupplyOvercurrent p => Sys2Proof.Machine.execSensorSupplyOvercurrent p s
  | .sensorSupplyOutOfWindow p => Sys2Proof.Machine.execSensorSupplyOutOfWindow p s
  | .serialReceive p data ended status => Sys2Proof.Machine.execSerialReceive p data ended status s
  | .fieldEdge p level => Sys2Proof.Machine.execFieldEdge p level s
  | .fieldOutputOvercurrent p => Sys2Proof.Machine.execFieldOutputOvercurrent p s
  | .transmitFrameEnd p status => Sys2Proof.Machine.execTransmitFrameEnd p status s
  | .linkUp p speed => Sys2Proof.Machine.execLinkUp p speed s
  | .linkDown p => Sys2Proof.Machine.execLinkDown p s
  | .pcieTransfer r p v => Sys2Proof.Machine.execPcieTransfer r p v s
  | .pcieTransferEnd p code data => Sys2Proof.Machine.execPcieTransferEnd p code data s
  | .pcieCompletionTimeout p => Sys2Proof.Machine.execPcieCompletionTimeout p s
  | .pcimsi r p vec => Sys2Proof.Machine.execPcimsi r p vec s
  | .pcieInboundRequest p memReq write off data => Sys2Proof.Machine.execPcieInboundRequest p memReq write off data s
  | .pcieDeviceInterrupt p addr data => Sys2Proof.Machine.execPcieDeviceInterrupt p addr data s
  | .frameMatch g => Sys2Proof.Machine.execFrameMatch g s
  | .frfwd src dst => Sys2Proof.Machine.execFrfwd src dst s
  | .forwardReassemblyTimeout src dst => Sys2Proof.Machine.execForwardReassemblyTimeout src dst s
  | .e2eTimeoutScan g => Sys2Proof.Machine.execE2eTimeoutScan g s
  | .routerIntegrityScan g => Sys2Proof.Machine.execRouterIntegrityScan g s
  | .routerEntryWrite r g e => Sys2Proof.Machine.execRouterEntryWrite r g e s
  | .routerEntryInvalidate r g e => Sys2Proof.Machine.execRouterEntryInvalidate r g e s
  | .claim r sv => Sys2Proof.Machine.execClaim r sv s
  | .release r sv => Sys2Proof.Machine.execRelease r sv s
  | .create r sv => Sys2Proof.Machine.execCreate r sv s
  | .start r sv => Sys2Proof.Machine.execStart r sv s
  | .stop r sv => Sys2Proof.Machine.execStop r sv s
  | .destroy r sv => Sys2Proof.Machine.execDestroy r sv s
  | .epreset r sv => Sys2Proof.Machine.execEpreset r sv s
  | .mbsend r m => Sys2Proof.Machine.execMbsend r m s
  | .mbtake r m => Sys2Proof.Machine.execMbtake r m s
  | .mbtoExpiry m => Sys2Proof.Machine.execMbtoExpiry m s
  | .dbring r c p set => Sys2Proof.Machine.execDbring r c p set s
  | .info k => Sys2Proof.Machine.execInfo k s
  | .random k => Sys2Proof.Machine.execRandom k s
  | .hash k => Sys2Proof.Machine.execHash k s
  | .keygen k => Sys2Proof.Machine.execKeygen k s
  | .seal k => Sys2Proof.Machine.execSeal k s
  | .openSvc k => Sys2Proof.Machine.execOpenSvc k s
  | .sign k => Sys2Proof.Machine.execSign k s
  | .verify k => Sys2Proof.Machine.execVerify k s
  | .decaps k => Sys2Proof.Machine.execDecaps k s
  | .keydel k => Sys2Proof.Machine.execKeydel k s
  | .handover k => Sys2Proof.Machine.execHandover k s
  | .handoverGrant n => Sys2Proof.Machine.execHandoverGrant n s
  | .trngHealthFail => Sys2Proof.Machine.execTrngHealthFail s
  | .apply r u all => Sys2Proof.Machine.execApply r u all s
  | .discard r u all => Sys2Proof.Machine.execDiscard r u all s
  | .firebreakSwitch u => Sys2Proof.Machine.execFirebreakSwitch u s
  | .verdictCopyCheck a damaged => Sys2Proof.Machine.execVerdictCopyCheck a damaged s
  | .verdictCopyReloadDone a => Sys2Proof.Machine.execVerdictCopyReloadDone a s
  | .lkobeat r v => Sys2Proof.Machine.execLkobeat r v s
  | .trustCoreDown => Sys2Proof.Machine.execTrustCoreDown s
  | .trustCoreRunning => Sys2Proof.Machine.execTrustCoreRunning s
  | .trustCoreRestartFail => Sys2Proof.Machine.execTrustCoreRestartFail s
  | .emergencyNotice thermal mask => Sys2Proof.Machine.execEmergencyNotice thermal mask s
  | .emergencyCut => Sys2Proof.Machine.execEmergencyCut s
  | .pairMismatch l => Sys2Proof.Machine.execPairMismatch l s
  | .tripleVote l v => Sys2Proof.Machine.execTripleVote l v s
  | .splitHardFault l why => Sys2Proof.Machine.execSplitHardFault l why s
  | .hungLogicalCore l => Sys2Proof.Machine.execHungLogicalCore l s
  | .carouselStep n => Sys2Proof.Machine.execCarouselStep n s
  | .carouselTestDone n pass => Sys2Proof.Machine.execCarouselTestDone n pass s
  | .swapPause l => Sys2Proof.Machine.execSwapPause l s
  | .carcmdStep r n => Sys2Proof.Machine.execCarcmdStep r n s
  | .carcmdHold r n => Sys2Proof.Machine.execCarcmdHold r n s
  | .carcmdResume r n => Sys2Proof.Machine.execCarcmdResume r n s
  | .analogueReferenceCheck h within => Sys2Proof.Machine.execAnalogueReferenceCheck h within s
  | .analogueReferenceRepeat h within => Sys2Proof.Machine.execAnalogueReferenceRepeat h within s
  | .hHeartbeatMissed => Sys2Proof.Machine.execHHeartbeatMissed s
  | .lookoutLockstepMismatch => Sys2Proof.Machine.execLookoutLockstepMismatch s
  | .rearm r => Sys2Proof.Machine.execRearm r s
  | .forceOff r => Sys2Proof.Machine.execForceOff r s
  | .restart r l => Sys2Proof.Machine.execRestart r l s
  | .vbusSample vina vinb vbus => Sys2Proof.Machine.execVbusSample vina vinb vbus s
  | .leanExit => Sys2Proof.Machine.execLeanExit s
  | .feedReconnect b => Sys2Proof.Machine.execFeedReconnect b s
  | .phaseFailure p why => Sys2Proof.Machine.execPhaseFailure p why s
  | .polHalfFailure r => Sys2Proof.Machine.execPolHalfFailure r s
  | .domOn r d => Sys2Proof.Machine.execDomOn r d s
  | .domOff r d => Sys2Proof.Machine.execDomOff r d s
  | .full r => Sys2Proof.Machine.execFull r s
  | .trim r n => Sys2Proof.Machine.execTrim r n s
  | .lean r => Sys2Proof.Machine.execLean r s
  | .doze r => Sys2Proof.Machine.execDoze r s
  | .standby r => Sys2Proof.Machine.execStandby r s
  | .powerRequestDone p => Sys2Proof.Machine.execPowerRequestDone p s
  | .trustConsentTimeout => Sys2Proof.Machine.execTrustConsentTimeout s
  | .wake src port => Sys2Proof.Machine.execWake src port s
  | .wakeAlarm => Sys2Proof.Machine.execWakeAlarm s
  | .budgetCheck milliwatts => Sys2Proof.Machine.execBudgetCheck milliwatts s
  | .temperatureWarn sv tenths => Sys2Proof.Machine.execTemperatureWarn sv tenths s
  | .temperatureCritical sv tenths => Sys2Proof.Machine.execTemperatureCritical sv tenths s
  | .referenceLost => Sys2Proof.Machine.execReferenceLost s
  | .referenceRestored => Sys2Proof.Machine.execReferenceRestored s
  | .pllFailure n => Sys2Proof.Machine.execPllFailure n s
  | .pllCrossCheck n v => Sys2Proof.Machine.execPllCrossCheck n v s
  | .spreadChange n => Sys2Proof.Machine.execSpreadChange n s
  | .mtrateWrite r v => Sys2Proof.Machine.execMtrateWrite r v s
  | .mtstepWrite r v => Sys2Proof.Machine.execMtstepWrite r v s
  | .powerOnReset tmode => Sys2Proof.Machine.execPowerOnReset tmode s
  | .resetN cycles => Sys2Proof.Machine.execResetN cycles s
  | .rstcmdModule r => Sys2Proof.Machine.execRstcmdModule r s
  | .domainReset r d => Sys2Proof.Machine.execDomainReset r d s
  | .domainRelease r d => Sys2Proof.Machine.execDomainRelease r d s
  | .startUp => Sys2Proof.Machine.execStartUp s
  | .adcReferenceCheck g ran errPerMille => Sys2Proof.Machine.execAdcReferenceCheck g ran errPerMille s
  | .fuse r => Sys2Proof.Machine.execFuse r s
  | .ident d => Sys2Proof.Machine.execIdent d s
  | .challenge d => Sys2Proof.Machine.execChallenge d s
  | .auth d token => Sys2Proof.Machine.execAuth d token s
  | .deauth d => Sys2Proof.Machine.execDeauth d s
  | .getres d of => Sys2Proof.Machine.execGetres d of s
  | .read d a n => Sys2Proof.Machine.execRead d a n s
  | .write d a data => Sys2Proof.Machine.execWrite d a data s
  | .halt d c => Sys2Proof.Machine.execHalt d c s
  | .debugResume d c => Sys2Proof.Machine.execDebugResume d c s
  | .step d c => Sys2Proof.Machine.execStep d c s
  | .regrd d c n => Sys2Proof.Machine.execRegrd d c n s
  | .regwr d c n v => Sys2Proof.Machine.execRegwr d c n v s
  | .debugReset d => Sys2Proof.Machine.execDebugReset d s
  | .imgload d slot off data => Sys2Proof.Machine.execImgload d slot off data s
  | .lcadv d target token => Sys2Proof.Machine.execLcadv d target token s
  | .scan d => Sys2Proof.Machine.execScan d s
  | .nonceExpiry p => Sys2Proof.Machine.execNonceExpiry p s
  | .serviceModeWrite r on => Sys2Proof.Machine.execServiceModeWrite r on s
  | .traceLineWrite c => Sys2Proof.Machine.execTraceLineWrite c s
  | .snapshotTick => Sys2Proof.Machine.execSnapshotTick s
  | .snapshotComplete => Sys2Proof.Machine.execSnapshotComplete s
  | .talview r k => Sys2Proof.Machine.execTalview r k s
  | .beacon => Sys2Proof.Machine.execBeacon s
  | .beaconReceive via again b => Sys2Proof.Machine.execBeaconReceive via again b s
  | .slotAbsent d => Sys2Proof.Machine.execSlotAbsent d s
  | .ringmasterTakeover => Sys2Proof.Machine.execRingmasterTakeover s
  | .roleHoldEnd => Sys2Proof.Machine.execRoleHoldEnd s
  | .syncResult offset => Sys2Proof.Machine.execSyncResult offset s
  | .remoteRequest f => Sys2Proof.Machine.execRemoteRequest f s
  | .remoteResponseTimeout tag => Sys2Proof.Machine.execRemoteResponseTimeout tag s
  | .vnxFlash r d => Sys2Proof.Machine.execVnxFlash r d s
  | .vnxStage r d => Sys2Proof.Machine.execVnxStage r d s
  | .vnxActivate r d => Sys2Proof.Machine.execVnxActivate r d s
  | .vnxCancel r d => Sys2Proof.Machine.execVnxCancel r d s
  | .vnxDone code sent => Sys2Proof.Machine.execVnxDone code sent s
  | .busIntegration p => Sys2Proof.Machine.execBusIntegration p s
  | .uartIdleTimeout p => Sys2Proof.Machine.execUartIdleTimeout p s
  | .sensorSilentTimeout p => Sys2Proof.Machine.execSensorSilentTimeout p s
  | .psi5SyncPulse p => Sys2Proof.Machine.execPsi5SyncPulse p s
  | .firebreakGraceEnd u => Sys2Proof.Machine.execFirebreakGraceEnd u s
  | .ageRewriteDone c => Sys2Proof.Machine.execAgeRewriteDone c s
  | .trngHealthRecovered => Sys2Proof.Machine.execTrngHealthRecovered s
  | .syncResultTimeout => Sys2Proof.Machine.execSyncResultTimeout s

end Sys2Proof.Machine
end

