-- ==== Sys2Proof/Safety.lean ====
section
/-! DEFINITION. The terms that statements use: memory in canonical form, life-cycle paths, what a command answers, when an instruction issues,
and the tables of instructions of one shape with what each computes. -/
namespace Sys2Proof.Machine

/-- Every addressed store is in canonical form (KV.wf): main memory and its syndromes, the spare die, LMEM, the Juggler stores, the mailbox
data, the Trust Core's SRAM, the MACsec keys (unlisted bytes read 0) and flash (unlisted bytes read 0xFF). -/
def Memory.wf (m : Stores) : Bool :=
  KV.wf 0 m.main && KV.wf 0 m.syn && KV.wf 0 m.spare && KV.wf 0 m.spareSyn && KV.wf 0 m.lmem && KV.wf 0 m.lmemSyn && KV.wf 0 m.jcode
    && KV.wf 0 m.jdata && KV.wf 0 m.jsyn && KV.wf 0 m.jstore && KV.wf 0 m.jstoreSyn && KV.wf 0 m.mbdata && KV.wf 0 m.sram
    && KV.wf 0xFF m.flash && KV.wf 0 m.msec

/-- The sets of blown transition fuses that the transitions of 20 Table 1 lead to, fuse i standing for bit i: from BLANK one fuse at a time
to MAKER, PROVISIONED and FIELD; RETURN from PROVISIONED or FIELD; DECOMMISSIONED from FIELD or RETURN. -/
def lifePath (fuses : Nat) : Bool := [0, 1, 3, 7, 11, 15, 23, 27, 31].contains fuses

/-- A command answers a next state that a property holds of. -/
def Answers (c : Instr) (s : State) (p : State → Prop) : Prop := ∃ t, exec c s = .next t ∧ p t

/-- Two states agree but for one engine's own state. -/
def OnlyCore (e : Engine) (s t : State) : Prop := ∃ c, t = s.setCore e c

/-! ### Issue -/

/-- Whether an instruction issues: its engine can issue and no halt acts at the boundary before it, or it is an integer or FP instruction beside
a load that has missed (05 R131); no older FP instruction is about to raise an exception (05 R148); a Juggler's fetch lies in its code LMEM; and
no illegal-instruction check fails. -/
def canIssue (s : State) (x : Iss) (k : Cls) (cell : Cell) (safe : Bool) (chk : Option Nat) : Bool :=
  let c := s.core x.eng
  (c.ready && !(c.haltActs x.eng && !c.joins x) || c.beside x k) && c.doom.isNone && !(isJug x.eng && decide (0x10000 < c.pc.toNat + x.len.val))
    && (illegalHere x k cell safe chk c).isNone

/-- A 32-bit operation on [31:0] of both sources under NARROW, its result sign-extended (04 R85); the 64-bit one otherwise. -/
def byWidth (n : Bool) (f : W64 → W64 → W64) (g : BitVec 32 → BitVec 32 → BitVec 32) (a b : W64) : W64 :=
  if n then (g (a.setWidth 32) (b.setWidth 32)).signExtend 64 else f a b

/-- The two-source integer instructions: latency and result (04 Table 1, R85-R87). -/
def registerForms (x : Iss) (n : Bool) (d a b : Fin 32) : List (Instr × Nat × (W64 → W64 → W64)) :=
  [(.add x n d a b, 1, byWidth n (fun u v => u + v) (fun u v => u + v)),
   (.sub x n d a b, 1, byWidth n (fun u v => u - v) (fun u v => u - v)),
   (.and x d a b, 1, fun u v => u &&& v),
   (.or x d a b, 1, fun u v => u ||| v),
   (.xor x d a b, 1, fun u v => u ^^^ v),
   (.shl x n d a b, 1, byWidth n (fun u v => u <<< (v.toNat % 64)) (fun u v => u <<< (v.toNat % 32))),
   (.shr x n d a b, 1, byWidth n (fun u v => u >>> (v.toNat % 64)) (fun u v => u >>> (v.toNat % 32))),
   (.sar x n d a b, 1, byWidth n (fun u v => u.sshiftRight (v.toNat % 64)) (fun u v => u.sshiftRight (v.toNat % 32))),
   (.mul x n d a b, 3, byWidth n (fun u v => u * v) (fun u v => u * v)),
   (.mulh x d a b, 3, fun u v => BitVec.ofInt 64 (u.toInt * v.toInt / 2 ^ 64)),
   (.slt x d a b, 1, fun u v => if u.toInt < v.toInt then 1 else 0),
   (.sltu x d a b, 1, fun u v => if u.toNat < v.toNat then 1 else 0)]

/-- The immediate integer instructions and LI: result from the source (04 Table 1). A shift by an immediate takes 0-63, 0-31 under NARROW. -/
def immediateForms (x : Iss) (n : Bool) (d a : Fin 32) (i : W64) (sh : Fin 64) : List (Instr × Option Nat × (W64 → W64)) :=
  let sv := BitVec.ofNat 64 sh.val
  let chk : Option Nat := if n && 32 ≤ sh.val then some 8 else none
  [(.addi x n d a i, none, fun u => byWidth n (fun p q => p + q) (fun p q => p + q) u i),
   (.andi x d a i, none, fun u => u &&& i),
   (.ori x d a i, none, fun u => u ||| i),
   (.xori x d a i, none, fun u => u ^^^ i),
   (.shli x n d a sh, chk, fun u => byWidth n (fun p q => p <<< (q.toNat % 64)) (fun p q => p <<< (q.toNat % 32)) u sv),
   (.shri x n d a sh, chk, fun u => byWidth n (fun p q => p >>> (q.toNat % 64)) (fun p q => p >>> (q.toNat % 32)) u sv),
   (.sari x n d a sh, chk, fun u => byWidth n (fun p q => p.sshiftRight (q.toNat % 64)) (fun p q => p.sshiftRight (q.toNat % 32)) u sv),
   (.slti x d a i, none, fun u => if u.toInt < i.toInt then 1 else 0),
   (.sltiu x d a i, none, fun u => if u.toNat < i.toNat then 1 else 0),
   (.li x d i, none, fun _ => i)]

/-- The divisions: quotient toward zero or remainder, with the results of 04 R88 for a zero divisor and for the most negative value by -1. -/
def divisionForms (x : Iss) (n : Bool) (d a b : Fin 32) : List (Instr × (W64 → W64 → W64)) :=
  [(.div x n d a b, byWidth n (fun u v => if v = 0 then BitVec.allOnes 64 else BitVec.ofInt 64 (u.toInt.tdiv v.toInt))
      (fun u v => if v = 0 then BitVec.allOnes 32 else BitVec.ofInt 32 (u.toInt.tdiv v.toInt))),
   (.divu x n d a b, byWidth n (fun u v => if v = 0 then BitVec.allOnes 64 else BitVec.ofNat 64 (u.toNat / v.toNat))
      (fun u v => if v = 0 then BitVec.allOnes 32 else BitVec.ofNat 32 (u.toNat / v.toNat))),
   (.rem x n d a b, byWidth n (fun u v => if v = 0 then u else BitVec.ofInt 64 (u.toInt.tmod v.toInt))
      (fun u v => if v = 0 then u else BitVec.ofInt 32 (u.toInt.tmod v.toInt))),
   (.remu x n d a b, byWidth n (fun u v => if v = 0 then u else BitVec.ofNat 64 (u.toNat % v.toNat))
      (fun u v => if v = 0 then u else BitVec.ofNat 32 (u.toNat % v.toNat)))]

/-- The FP instructions: whether the destination is an FP register, the latency, and the encoding and flags of the result, from the engine at
issue with its rounding mode (04 R89-R93, Table 2). -/
def fpForms (x : Iss) (d a b : Fin 32) : List (Instr × Bool × Nat × (Core → Nat × Nat)) :=
  let bin := fun (f : FpFmt) (op : Nat → FpV → FpV → Nat × Nat) (c : Core) => op c.rm (c.fval f a) (c.fval f b)
  let cmp := fun (rel : FpV → FpV → Bool) (nv : FpV → FpV → Nat) (c : Core) =>
    ((if rel (c.fval fmtD a) (c.fval fmtD b) then 1 else 0), nv (c.fval fmtD a) (c.fval fmtD b))
  [(.faddD x d a b, true, 4, bin fmtD fmtD.addV), (.faddS x d a b, true, 4, bin fmtS fmtS.addV),
   (.fsubD x d a b, true, 4, bin fmtD (fun rm u v => fmtD.addV rm u v.neg)), (.fsubS x d a b, true, 4, bin fmtS (fun rm u v => fmtS.addV rm u v.neg)),
   (.fmulD x d a b, true, 4, bin fmtD fmtD.mul), (.fmulS x d a b, true, 4, bin fmtS fmtS.mul),
   (.fdivD x d a b, true, 16, bin fmtD fmtD.div), (.fdivS x d a b, true, 16, bin fmtS fmtS.div),
   (.fsqrtD x d a, true, 20, fun c => fmtD.sqrt c.rm (c.fval fmtD a)), (.fsqrtS x d a, true, 20, fun c => fmtS.sqrt c.rm (c.fval fmtS a)),
   (.fmaD x d a b, true, 5, fun c => fmtD.fma c.rm (c.fval fmtD a) (c.fval fmtD b) (c.fval fmtD d)),
   (.fmaS x d a b, true, 5, fun c => fmtS.fma c.rm (c.fval fmtS a) (c.fval fmtS b) (c.fval fmtS d)),
   (.fminD x d a b, true, 4, fun c => fmtD.minMax false (c.fbits fmtD a) (c.fbits fmtD b)),
   (.fminS x d a b, true, 4, fun c => fmtS.minMax false (c.fbits fmtS a) (c.fbits fmtS b)),
   (.fmaxD x d a b, true, 4, fun c => fmtD.minMax true (c.fbits fmtD a) (c.fbits fmtD b)),
   (.fmaxS x d a b, true, 4, fun c => fmtS.minMax true (c.fbits fmtS a) (c.fbits fmtS b)),
   (.fcmpEq x d a b, false, 2, cmp eqV (fun u v => sigNv [u, v])),
   (.fcmpLt x d a b, false, 2, cmp ltV (fun u v => if u.isNan || v.isNan then 16 else 0)),
   (.fcmpLe x d a b, false, 2, cmp (fun u v => ltV u v || eqV u v) (fun u v => if u.isNan || v.isNan then 16 else 0)),
   (.fcvtDS x d a, true, 4, fun c => cvtFmt fmtD c.rm (c.fval fmtS a)), (.fcvtSD x d a, true, 4, fun c => cvtFmt fmtS c.rm (c.fval fmtD a)),
   (.fcvtDL x d a, true, 4, fun c => cvtDL c.rm (c.greg a.val)), (.fcvtLD x d a, false, 4, fun c => cvtLD c.rm (c.fval fmtD a)),
   (.fmovG x d a, false, 2, fun c => ((c.freg a.val).toNat, 0)), (.fmovF x d a, true, 2, fun c => ((c.greg a.val).toNat, 0)),
   (.fnegD x d a, true, 1, fun c => ((c.freg a.val ^^^ 0x8000000000000000).toNat, 0)),
   (.fabsD x d a, true, 1, fun c => ((c.freg a.val &&& 0x7FFFFFFFFFFFFFFF).toNat, 0))]

/-- The conditional branches and their relations (04 R108). -/
def branchForms (x : Iss) (h : Bool) (a b : Fin 32) (i disp : W64) : List (Instr × (Core → Bool)) :=
  [(.beq x h a b disp, fun c => c.greg a.val == c.greg b.val), (.bne x h a b disp, fun c => c.greg a.val != c.greg b.val),
   (.blt x h a b disp, fun c => decide ((c.greg a.val).toInt < (c.greg b.val).toInt)),
   (.bge x h a b disp, fun c => decide ((c.greg b.val).toInt ≤ (c.greg a.val).toInt)),
   (.bltu x h a b disp, fun c => decide ((c.greg a.val).toNat < (c.greg b.val).toNat)),
   (.bgeu x h a b disp, fun c => decide ((c.greg b.val).toNat ≤ (c.greg a.val).toNat)),
   (.beqi x h a i disp, fun c => c.greg a.val == i), (.bnei x h a i disp, fun c => c.greg a.val != i),
   (.blti x h a i disp, fun c => decide ((c.greg a.val).toInt < i.toInt)), (.bgei x h a i disp, fun c => decide (i.toInt ≤ (c.greg a.val).toInt))]

/-! ### Memory accesses -/

/-- The loads: size, FP destination, sign extension (04 R94). -/
def loadForms (x : Iss) (m : MemOp) (rd : Fin 32) : List (Instr × Nat × Bool × Bool) :=
  [(.ldB x m rd, 1, false, true), (.ldBu x m rd, 1, false, false), (.ldH x m rd, 2, false, true), (.ldHu x m rd, 2, false, false),
   (.ldW x m rd, 4, false, true), (.ldWu x m rd, 4, false, false), (.ldD x m rd, 8, false, false), (.fldS x m rd, 4, true, false),
   (.fldD x m rd, 8, true, false)]

/-- The stores: size, FP source. -/
def storeForms (x : Iss) (m : MemOp) (rs : Fin 32) : List (Instr × Nat × Bool) :=
  [(.stB x m rs, 1, false), (.stH x m rs, 2, false), (.stW x m rs, 4, false), (.stD x m rs, 8, false), (.fstS x m rs, 4, true),
   (.fstD x m rs, 8, true)]

/-- The bytes a load gets at once and its latency, when it passes its checks, everything it needs is near, and nothing is poisoned; the
latency is 3 from LMEM and 4 otherwise (04 R95). -/
def State.servedNow (s : State) (x : Iss) (m : MemOp) (n : Nat) : Option (List Byte × Nat) :=
  let e := x.eng
  let c := s.core e
  match s.checkAccess e c.pc (c.ea c.pc n m.form) n .read false with
  | .ok ps =>
    let us := s.splitDev e ps
    let r := (s.setCore e (c.promoteParts e (s.talFor e) ps)).serveParts e (c.pid e) (s.worldOf e) m.stream false (piecesOf us)
    if (missing r.2.1).isNone && (poisoned r.2.1).isNone then
      some (partsBytes r.2.1, match us with
        | [] => 4
        | p :: _ => s.loadLat e p.2.2)
    else none
  | _ => none

/-- The value a load writes. -/
def loadedValue (sign : Bool) (bs : List Byte) : W64 := if sign then sext (8 * bs.length) (ofBytes bs) else BitVec.ofNat 64 (ofBytes bs)

/-- A register of the FP file (`fp`) or the general file. -/
def Core.reg (c : Core) (fp : Bool) (r : Nat) : W64 := if fp then c.freg r else c.greg r

/-- A division holds the FSTAT wait for 19 cycles more (04 R93), and a zero divisor, [31:0] under NARROW, sets FSTAT.DZ in a core (04 R88,
R123). -/
def divided (c : Core) (e : Engine) (n : Bool) (v : W64) : Core :=
  let c1 := { c with fpEnd := max c.fpEnd (c.cyc + 19) }
  if (if n then v.setWidth 32 == (0 : BitVec 32) else v == 0) && !isJug e then c1.setFlags 8 else c1

/-- Control has passed to an address: the issuing engine's pc is there, its registers are those after issue, and no other engine, no byte of
memory, no cache line and no register of the module has changed. -/
def ControlPassed (s : State) (x : Iss) (dest : W64) (t : State) : Prop :=
  (t.core x.eng).pc = dest ∧ (t.core x.eng).g = (s.entered x .b).g ∧ (t.core x.eng).f = (s.entered x .b).f ∧ (t.core x.eng).cr = (s.entered x .b).cr
    ∧ (t.core x.eng).inflight = (s.entered x .b).inflight ∧ (∀ e, engKey e ≠ engKey x.eng → t.core e = s.core e) ∧ t.st = s.st ∧ t.lines = s.lines

/-- A result of register `r` with value `v` that is written in schedule cycle `t`. -/
def Core.owes (c : Core) (fp : Bool) (r : Nat) (v : W64) (t : Nat) : Prop := (⟨fp, r, v, t⟩ : Pend) ∈ c.inflight

/-- The entries of a store buffer with those that wait for room behind them. -/
def Core.buffered (c : Core) : List SBEntry :=
  c.sbuf ++ (match c.frozen with
    | some (.stores es) => es
    | _ => [])

/-- The one part of an access of LDR, STC or AMO that passes its checks: its virtual and its physical address. -/
def State.atomPart (s : State) (x : Iss) (f : AddrForm) (n : Nat) (need : Need) : Option (W64 × Nat) :=
  let c := s.core x.eng
  match s.checkAccess x.eng c.pc (c.ea c.pc n f) n need true with
  | .ok [p] => if p.2.1 = n then some (p.1, p.2.2) else none
  | _ => none

/-- The state in which an access that has passed its checks is performed: the translations it met stand in the first-level TLB. -/
def State.promoted (s : State) (e : Engine) (ps : List (W64 × Nat × Nat)) : State :=
  s.setCore e ((s.core e).promoteParts e (s.talFor e) ps)

/-- The state and the bytes that an access of one part gets at once in a state, when they are near and not poisoned; `c` and `w` give its
partition and world. -/
def State.nearBytes (s : State) (e : Engine) (c : Core) (w : Bool) (va : W64) (pa n : Nat) : Option (State × List Byte) :=
  let r := s.serveParts e (c.pid e) w false false (piecesOf [(va, n, pa)])
  if (missing r.2.1).isNone && (poisoned r.2.1).isNone then some (r.1, partsBytes r.2.1) else none

/-- The words of the frame at the stack pointer, when all of it passes its checks, is near and is not poisoned: return address, frame word,
saved registers (04 R111). -/
def State.returnFrame (s : State) (e : Engine) : Option (List W64) :=
  let c := s.core e
  let near := fun (t : State) (ps : List (W64 × Nat × Nat)) (us : List Piece) =>
    let r := (t.promoted e ps).serveParts e (c.pid e) (s.worldOf e) false false us
    if (missing r.2.1).isNone && (poisoned r.2.1).isNone then some (r.1, r.2.1) else none
  match s.checkFrame e c.pc c.sp 2 .read with
  | .ok ps =>
    (match near s ps (piecesOf ps) with
    | some r =>
      let n := (maskRegs (bitsOf ((partWords r.2).getD 1 0) 14 0)).length
      if n = 0 then some (partWords r.2)
      else (match r.1.checkFrame e c.pc c.sp (n + 2) .read with
        | .ok qs => (near r.1 qs (r.2 ++ piecesOf (qs.drop 2))).map (fun q => partWords q.2)
        | _ => none)
    | none => none)
  | _ => none

/-- An engine has entered H (`h`) or S as 06 R168 says: the saved pc, cause and value, the saved level and enable, the enable off, the level
X, and the pc at X's vector base plus an offset; nothing is left raised, and no byte of memory has changed. -/
def EnteredAt (s : State) (e : Engine) (h : Bool) (epc cause val : W64) (off : Nat) (t : State) : Prop :=
  let c := s.core e
  let d := t.core e
  let m := c.creg 1
  d.creg (if h then 0x41 else 0x09) = epc ∧ d.creg (if h then 0x42 else 0x0A) = cause ∧ d.creg (if h then 0x43 else 0x0B) = val
    ∧ (if h then bitsOf (d.creg 1) 8 7 = bitsOf m 1 0 ∧ bitsOf (d.creg 1) 9 9 = bitsOf m 3 3 ∧ bitsOf (d.creg 1) 3 3 = 0
       else bitsOf (d.creg 1) 5 4 = bitsOf m 1 0 ∧ bitsOf (d.creg 1) 6 6 = bitsOf m 2 2 ∧ bitsOf (d.creg 1) 2 2 = 0)
    ∧ bitsOf (d.creg 1) 1 0 = (if h then 2 else 1) ∧ d.pc = c.creg (if h then 0x40 else 0x08) + BitVec.ofNat 64 off
    ∧ d.exc = none ∧ d.resv = none ∧ t.st = s.st

/-! ### Registers -/

/-- The kinds of registers on which a write has no effect but to store (every other kind has a rule of its own). -/
def plainKinds : List RegKind :=
  [.layid, .laycnt, .laysrc, .layact, .laystat, .layconf, .layint, .l2way, .skaddr, .sklen, .skstat, .skcnt, .skint, .dirctl, .mcstat, .mcscrub,
   .mcecnt, .spsteer, .gcint, .gcdmae, .jpos, .jstat, .rtstat, .rtcnt, .rtupdw, .rtehit, .rteseq, .ptent, .ptcore, .dbcfg, .horec, .lkostat,
   .lkorec, .elogcfg, .pwrstat, .pwrph, .pwrdom, .pwrwake, .pwrwaket, .pwrres, .pwrcause, .clkpll, .mtnow, .rstcause, .rstdom, .lcdid,
   .lcdstat, .lcdtri]

/-! ### Trust services -/

/-- The turn of pair `k` serves the request for `svc` that its mailbox holds (15 R389, R390): the Trust Core runs and is not halted, the pair is
formed, its answer mailbox is free and can be sent from, the request's reserved bytes are 0 and no restart has left its answer. -/
def State.trustServes (s : State) (k svc : Nat) : Prop :=
  let rep := s.mbRep (2 * k + 1)
  let m := s.mbMessage (2 * k)
  s.trustUp = true ∧ s.trustAway = false ∧ s.pairFormed k = true ∧ s.mbFull (2 * k) = true ∧ s.mbFull (2 * k + 1) = false
    ∧ (k ≠ 510 ∨ s.mbFull 1022 = false) ∧ (0x1000 ≤ rep ∨ s.powered (rep / 256) = true ∨ s.flag (.dbcfg (rep / 256) (rep % 256)) Fld.dbcfgWake = true)
    ∧ imgU m 0 2 = svc ∧ imgU m 2 2 = 0 ∧ s.recorded k svc (imgU m 4 4) = none

/-- The request of pair `k` as a service sees it. -/
def State.trustCall (s : State) (k svc : Nat) : Call :=
  let m := s.mbMessage (2 * k)
  ⟨k, svc, imgU m 4 4, (epPid (s.mbSep (2 * k))).getD 0, Config.trustArgs svc (m.drop 8)⟩

/-- The state once the request of pair `k` has been taken. -/
def State.trustTook (s : State) (k : Nat) : State := (s.mbTakeNow (2 * k)).1

/-- The request is taken and its answer, with SVC, TAG, STATUS and results, stands in the answer mailbox and is sent. -/
def AnsweredWith (s : State) (c : Call) (status : Nat) (results : List Byte) (t : State) : Prop :=
  KV.getAll 0 t.st.mbdata ((2 * c.k + 1) * 256 + 0x40) 192 = answerBytes c.svc c.tag status results
    ∧ t.mbFull (2 * c.k + 1) = true ∧ t.mbFull (2 * c.k) = false ∧ t.mbRep (2 * c.k + 1) = s.mbRep (2 * c.k + 1)

/-- The buffers of a call: their bytes, when all lie in the window, every page gives the caller its right, and memory gives every byte. -/
def State.callBufs (s : State) (c : Call) (ins outs : List (Nat × Nat)) : Option (State × List (List Byte)) :=
  if (ins ++ outs).all (s.bufFits c.k) && ins.all (s.bufAllowed c false) && outs.all (s.bufAllowed c true) then
    let r := ins.foldl (fun (a : State × List (List Byte) × Bool) b =>
      let x := a.1.bufRead c b
      (x.1, a.2.1 ++ [x.2.1], a.2.2 && x.2.2)) (s, [], true)
    if r.2.2 then some (r.1, r.2.1) else none
  else none

end Sys2Proof.Machine
end

