-- ==== Sys2Proof/Certificates/Slice0/Obligations.lean ====
section
/-! DEFINITION. The statements about the module, by chapter of the spec. -/
open Sys2Proof Sys2Proof.Machine

/-- A step takes the command at the front of the queue and acts as `exec` of it on the state with the queue's rest; no command stops the machine. -/
def Obligations.StepRunsFront : Prop :=
  ∀ (c : Instr) (rest : List Instr) (s : State), step { s with pending := c :: rest } = exec c { s with pending := rest } ∧ ∃ t, exec c s = .next t

/-- Log entry 2 (the model's choice): a step on an empty queue is one edge of the 25 MHz reference, which moves MTIME alone.
Where the spec leaves a point open it states the model's own choice (log entry 2). -/
def Obligations.EmptyQueuePassesOneReferenceEdge : Prop :=
  ∀ s : State, s.pending = [] → ∃ m f c, step s = .next { s with mtime := m, mtFrac := f, clk := c } ∧
    (s.clk.mtAdd = 0 → s.rd .mtrate = Reg.mtrate.reset → m = s.mtime + 40)

/-- 00_scope R3-R9, Table 2; 01 R12; 16 R435.
Where the spec leaves a point open it states the model's own choice (log entries 14 and 155). -/
def Obligations.RegisterWritesStoreByAccessType : Prop :=
  ∀ (s : State) (r : Req) (rg : Reg) (a : PAddr) (sz : ASize) (v : W64) (rd : BitVec 10),
    let n := bytesOf sz
    let x := a.toNat
    let go := exec (.registerWrite r a sz v) s
    (x % n = 0 → s.regAt (x / 8 * 8) = some rg → rg.kind ∈ plainKinds →
      (s.answers x = true → s.groupPasses r x true = true →
        (isHost r = true → rg.kind.keyed = false → go = .next (s.wr rg (mergeReg rg.kind.fields (laneMask (x % 8) n) (v <<< (8 * (x % 8))) (s.rd rg)))) ∧
        (isHost r = true → rg.kind.keyed = true → go = .next (if keyedOk rg n v then s.wr rg v
          else s.log (unitAt rg.addr) clsContained r.pid.toNat r.world rg.addr 0)) ∧
        (isHost r = false → go = .next (s.log (unitAt rg.addr) clsContained r.pid.toNat r.world rg.addr 0))) ∧
      (s.answers x = false → go = .next (s.loseStore r x))) ∧
    (isHost r = true → Answers (.elogRdWrite r rd) s (fun t =>
      t.fld .elogcfg Fld.elogcfgUnread = min ((s.fld .elogptr Fld.elogptrWritten + 1024 - rd.toNat) % 1024) s.elog.length % 2048 ∧
      t.fld .elogptr Fld.elogptrRd = (t.fld .elogptr Fld.elogptrWritten + 1024 - t.fld .elogcfg Fld.elogcfgUnread) % 1024 ∧ t.elog = s.elog)) ∧
    (isHost r = false → exec (.elogRdWrite r rd) s = .next (s.log 0x7F0 clsContained r.pid.toNat r.world Reg.elogptr.addr 0))

/-- 02 R36, R41-R46, R50, R51, Tables 5, 6 and 11.
Where the spec leaves a point open it states the model's own choice (log entries 93, 94 and 161). -/
def Obligations.LoaderCommandsFollowThePhase : Prop :=
  ∀ (s : State) (r : Req),
    let ends := fun (code phase : Nat) (t : State) => t.fld .laystat Fld.laystatCode = code ∧ t.layPhase = phase
    let cmds := [Instr.stage r, .activate r, .cancel r, .commit r]
    (isHost r = true → s.trustAway = true → ∀ c ∈ cmds, Answers c s (fun t => ends 0x13 s.layPhase t ∧ t.otp = s.otp ∧ t.lay = s.lay)) ∧
    (isHost r = false → ∀ c ∈ cmds, Answers c s (fun t => t.layPhase = s.layPhase ∧ t.otp = s.otp ∧ t.lay = s.lay)) ∧
    (isHost r = true → s.trustAway = false →
      (let s1 := s.wr .laycmd (keyedPair 1)
       let src := (s.rd .laysrc).toNat
       let n := min (imgU (s1.ioReadN 0x700 255 true src 64).2.1 8 4) 0x04000000
       (s.layPhase = phIdle → src < 0x80000000 → src + n ≤ 0x80000000 →
         Answers (.stage r) s (fun t => ends 0 phVerifying t ∧ t.lay.src = src ∧ t.lay.len = max n 64)) ∧
       (s.layPhase = phIdle → 0x80000000 ≤ src → Answers (.stage r) s (fun t => ends 0x16 phIdle t ∧ t.lay = s.lay)) ∧
       (s.layPhase ≠ phIdle → Answers (.stage r) s (fun t => ends 0x01 s.layPhase t ∧ t.lay = s.lay))) ∧
      (∀ d, s.lay.delta = some d → s.layPhase = phStaged →
        ((∀ l ∈ s.changedCores d.sects, s.inAnyRunSet l = false) → (claimsCode (keptClaims s.lay.claims d.sects) (deltaClaims d.sects)).1 = 0 →
          Answers (.activate r) s (fun t => ends 0 phArmed t ∧ t.lay.delta = some d ∧
            t.lay.time = (if s.mtime.toNat < (s.rd .layact).toNat then s.rd .layact else s.mtime))) ∧
        (∀ l ∈ s.changedCores d.sects, s.inAnyRunSet l = true → Answers (.activate r) s (fun t => ends 0x12 phStaged t ∧ t.lay = s.lay)) ∧
        ((∀ l ∈ s.changedCores d.sects, s.inAnyRunSet l = false) →
          ∀ k e, claimsCode (keptClaims s.lay.claims d.sects) (deltaClaims d.sects) = (0x11, some (k, e)) →
          Answers (.activate r) s (fun t => ends 0x11 phStaged t ∧ t.lay = s.lay ∧ t.rd .layconf = BitVec.ofNat 64 (k * 2 ^ 56 + e.2 * 2 ^ 32 + e.1)))) ∧
      (s.layPhase ≠ phStaged → Answers (.activate r) s (fun t => ends 0x01 s.layPhase t ∧ t.lay = s.lay)) ∧
      (s.layPhase = phStaged → Answers (.cancel r) s (fun t => ends 0x14 phIdle t ∧ t.lay.delta = none ∧ t.lay.len = 0)) ∧
      (phStaged ≠ s.layPhase → s.layPhase ≠ phIdle → Answers (.cancel r) s (fun t => ends 0x01 s.layPhase t ∧ t.lay = s.lay)) ∧
      Answers (.commit r) s (fun t => ends 0 s.layPhase t ∧ t.otp = { s.otp with counter := max s.otp.counter (s.fld .laycnt Fld.laycntActive) })) ∧
    (s.layPhase = phVerifying → s.trustUp = true → (s.ioReadN 0x700 255 true s.lay.src s.lay.len).2.2 = none →
      let x := s.ioReadN 0x700 255 true s.lay.src s.lay.len
      let c := x.1.verifyCode x.2.1
      Answers .deltaVerifyDone s (fun t => t.fld .laystat Fld.laystatCode = c.1 % 256 ∧
        (c.1 = 0 → t.layPhase = phStaged ∧ t.lay.delta = some (imageOf x.2.1) ∧ t.flag .layint Fld.layintStaged = true) ∧
        (c.1 ≠ 0 → t.layPhase = phIdle ∧ t.lay.delta = none ∧ t.lay.len = 0)))

/-- 02 R35, R44, R45; 10 R284; 13 R363.
Where the spec leaves a point open it states the model's own choice (log entries 60 and 97). -/
def Obligations.DeltaSwitchesAtItsTime : Prop :=
  ∀ (s : State) (d : Image) (g : Fin 32),
    let done := fun (t : State) => t.layPhase = phIdle ∧ t.lay.delta = none ∧ t.fld .layid Fld.layidActid = d.id % 2 ^ 32
      ∧ t.flag .layint Fld.layintActivated = true
    (s.lay.delta = some d → s.layPhase = phArmed → s.lay.time.toNat ≤ s.mtime.toNat → s.lay.todo ≠ [] →
      (∀ x ∈ d.sects, x.type = 3 ∨ x.type = 5 ∧ ∀ e ∈ x.recs, ∃ a, e.addr = some a ∧ inRtTable a = true) →
      Answers .deltaActivation s (fun t => t.layPhase = phActivating ∧ t.lay.delta = some d ∧
        t.lay.claims = keptClaims s.lay.claims d.sects ++ d.sects.foldl (fun l x => l ++ x.claims) [])) ∧
    (s.mtime.toNat < s.lay.time.toNat → exec .deltaActivation s = .next s) ∧
    (∀ ws at_, s.fab.plan = some (ws, at_) →
      (s.mtime.toNat < at_.toNat → exec .fabricPlanSwitch s = .next s) ∧
      (at_.toNat ≤ s.mtime.toNat → KV.wf 0 ws = true → (∀ e ∈ ws, ∃ h k, h < 8 ∧ k < 250 ∧ e.1 = (Reg.fbslot h k).addr) →
        Answers .fabricPlanSwitch s (fun t => t.fab.plan = none ∧
          (∀ h k, h < 8 → k < 250 → t.rd (.fbslot h k) = KV.get 0xFFFFFFFF00000000 ws (Reg.fbslot h k).addr) ∧
          (s.lay.delta = some d → s.layPhase = phActivating → (∀ y ∈ s.lay.todo, y = (3, 0)) → done t)))) ∧
    (∀ at_, (s.group g.val).swapAt = some at_ →
      (s.mtime.toNat < at_.toNat → exec (.routerBankSwap g) s = .next s) ∧
      (at_.toNat ≤ s.mtime.toNat → Answers (.routerBankSwap g) s (fun t => t.rtBank g.val = !s.rtBank g.val ∧
        (t.group g.val).swapAt = none ∧ (∀ e, e < 4096 → t.rd (.rteseq g.val e) = 7) ∧
        (s.lay.delta = some d → s.layPhase = phActivating → (∀ y ∈ s.lay.todo, y = (5, 0)) →
          (∀ k, k ≠ g.val → (KV.get Group2.reset s.groups k).swapAt = none) → KV.wf Group2.reset s.groups = true → done t))))

/-- 02 R25, R29-R32, R48, R49, Tables 4, 8 and 11.
Where the spec leaves a point open it states the model's own choice (log entries 92 and 96). -/
def Obligations.RecordsOfAnImage : Prop :=
  ∀ (s : State) (sec : Section) (rg : Reg) (a v : BitVec 64) (lo hi : W32) (data : List Byte) (cls pid world : BitVec 8) (owner tol : BitVec 16)
      (first count : BitVec 32) (mask : BitVec 128) (entry : BitVec 64),
    let x := a.toNat
    let y := secType sec
    let ends := fun (code : Nat) (t : State) => t.fld .laystat Fld.laystatCode = code ∧ t.lay = s.lay
    let cl : Claim := ⟨cls.toNat, first.toNat, count.toNat, owner.toNat, true, if y.1 = 4 then y.2 else 32⟩
    let p : Part := ⟨pid.toNat, world == 1, tol.toNat, mask, entry⟩
    (s.regAt x = some rg → rg.kind ∈ plainKinds → x % 8 = 0 → sectTarget y.1 y.2 x 8 = true → s.answers x = true →
      (rg.kind.keyed = false →
        exec (.writeRecord sec a v) s = .next (s.wr rg (mergeReg rg.kind.fields (BitVec.allOnes 64) v (s.rd rg))) ∧
        (data.length = 8 → exec (.fillRecord sec a data) s =
          .next (s.wr rg (mergeReg rg.kind.fields (BitVec.allOnes 64) (BitVec.ofNat 64 (ofBytes data)) (s.rd rg)))) ∧
        (lo ^^^ hi = BitVec.allOnes 32 → Answers (.kwriteRecord sec a lo hi) s (ends 0x0E))) ∧
      (rg.kind.keyed = true → Answers (.writeRecord sec a v) s (ends 0x0E) ∧
        (lo ^^^ hi = BitVec.allOnes 32 → keyedFields rg.kind.fields lo.toNat = true → keyedExtra rg lo.toNat = true →
          exec (.kwriteRecord sec a lo hi) s = .next (s.wr rg (hi ++ lo))))) ∧
    (sectTarget y.1 y.2 x 8 = false → Answers (.writeRecord sec a v) s (ends 0x0E)) ∧
    (x % 8 = 0 → x < 2 ^ 40 → lo ^^^ hi ≠ BitVec.allOnes 32 → Answers (.kwriteRecord sec a lo hi) s (ends 0x0C)) ∧
    (y.1 = 11 → x % 8 = 0 → x + data.length ≤ 0x80000000 → x < 0x80000000 →
      exec (.fillRecord sec a data) s = .next (s.ioWriteN 0x700 255 true x data).1) ∧
    (count ≠ 0 → sectClaims y.1 cls.toNat = true → first.toNat + count.toNat ≤ classSize cls.toNat →
      (conflictIn s.lay.claims cl = none → Answers (.claimRecord sec cls owner first count) s (fun t => t.lay = { s.lay with claims := s.lay.claims ++ [cl] } ∧
        ∀ n, cls = 1 → first.toNat ≤ n → n < first.toNat + count.toNat → ∀ g < 32, t.rd (.rtown g n) = keyedPair (256 + owner.toNat % 256))) ∧
      (∀ e, conflictIn s.lay.claims cl = some e → Answers (.claimRecord sec cls owner first count) s (fun t => ends 0x11 t ∧
        t.rd .layconf = BitVec.ofNat 64 (cls.toNat * 2 ^ 56 + e.2 * 2 ^ 32 + e.1)))) ∧
    (sectClaims y.1 cls.toNat = false → Answers (.claimRecord sec cls owner first count) s (ends 0x0E)) ∧
    (y.1 = 11 → pid ≠ 0 → pid ≠ 255 → world.toNat ≤ 1 →
      (50 ≤ tol.toNat → (∀ q ∈ s.lay.parts, q.pid ≠ pid.toNat) → (∀ l, l < 128 → mask.getLsbD l = true → definedBy (s.clusterBody []) l = true) →
        Answers (.partRecord sec pid world tol mask entry) s (fun t => t.lay = { s.lay with parts := s.lay.parts ++ [p] } ∧
          (s.fld (.ptent pid.toNat) Fld.ptentState ≤ 1 → t.fld (.ptent pid.toNat) Fld.ptentState = 1 ∧ t.flag (.ptent pid.toNat) Fld.ptentWorld = p.world))) ∧
      (tol.toNat < 50 ∨ (∃ q ∈ s.lay.parts, q.pid = pid.toNat) → Answers (.partRecord sec pid world tol mask entry) s (ends 0x0E)))

/-- 02 R35, R37-R40. The image format's signatures and digests are opaque (log entry 20).
Where the spec leaves a point open it states the model's own choice (log entries 20, 98 and 157). -/
def Obligations.ImageLoadTakesTheHigherCounter : Prop :=
  ∀ (s : State),
    let counter := fun (b : Bool) => imgU (s.slotHead b) 0x18 4
    (s.trustUp = true → s.lay.active = [] → s.lay.delta = none →
      (∀ b : Bool, s.slotCode b = 0 → (s.slotCode (!b) ≠ 0 ∨ counter (!b) < counter b ∨ (counter (!b) = counter b ∧ b = false)) →
        let s1 := if s.slotCode false ≠ 0 then s.slotFailed false (s.slotCode false) else s
        let s2 := if s.slotCode true ≠ 0 then s1.slotFailed true (s.slotCode true) else s1
        let img := imageOf (s2.slotBytes b)
        let fresh := s2.earlyOff.freshLayout
        (tableCode (s2.slotBytes b) false).1 = 0 →
        (fresh.applyAll (s2.slotBytes b) (definedBy (fresh.clusterBody img.sects)) (applyOrder img.sects)).2 = 0 →
        Answers .imageLoad s (fun t => t.lay.active = applyOrder img.sects ∧
          t.fld .layid Fld.layidFullid = img.id ∧ t.fld .layid Fld.layidActid = img.id ∧ t.fld .laycnt Fld.laycntActive = img.counter % 1024)) ∧
      ((∀ b : Bool, s.slotCode b = 0 → (tableCode (s.slotBytes b) false).1 ≠ 0) → Answers .imageLoad s (fun t => t.lay = s.freshLayout.lay ∧ t.powered 47 = true ∧ t.inReset 47 = false ∧
        (∀ c, c < 16 → s.powered c = true → t.inReset c = true) ∧ 2 ∈ t.lko.causes))) ∧
    (s.trustUp = false ∨ s.lay.active ≠ [] → exec .imageLoad s = .next s)

/-- 04 R85-R88: NOP, the two-source and immediate forms with their results and cycles, and the divisions, whose zero divisor sets FSTAT.DZ
(bit 3) in a core. Every other part of the state stays. -/
def Obligations.IntegerInstructionResults : Prop :=
  ∀ (s : State) (x : Iss) (n : Bool) (d a b : Fin 32) (i : W64) (sh : Fin 64),
    let c := s.entered x .i
    (canIssue s x .i .all true none →
      exec (.nop x) s = .next (s.setCore x.eng c) ∧
      (∀ p ∈ registerForms x n d a b,
        exec p.1 s = .next (s.setCore x.eng (c.put false d.val (p.2.2 (c.greg a.val) (c.greg b.val)) p.2.1))) ∧
      (∀ p ∈ divisionForms x n d a b,
        exec p.1 s = .next (s.setCore x.eng ((divided c x.eng n (c.greg b.val)).put false d.val (p.2 (c.greg a.val) (c.greg b.val)) 20)))) ∧
    (∀ p ∈ immediateForms x n d a i sh, canIssue s x .i .all false p.2.1 →
      exec p.1 s = .next (s.setCore x.eng (c.put false d.val (p.2.2 (c.greg a.val)) 1)))

/-- 04 R82, R84: with nothing in flight for a register, a result of latency `l` issued in cycle `t` is read from cycle `t + l` on; of two
results the one written later in time stays, and with equal times the one issued later. -/
def Obligations.ResultsLandInTime : Prop :=
  ∀ (c : Core) (fp : Bool) (r : Nat) (v w : W64) (l l' t' k : Nat), (fp = true ∨ r ≠ 0) → 1 ≤ l → 1 ≤ l' → c.cyc ≤ t' →
    (∀ p ∈ c.inflight, ¬ (p.fp = fp ∧ p.reg = r)) →
    ((c.put fp r v l).landAll k).reg fp r = (if c.cyc + l ≤ k then v else c.reg fp r) ∧
    (c.cyc + l ≤ k → t' + l' ≤ k →
      ((({ c.put fp r v l with cyc := t' }).put fp r w l').landAll k).reg fp r = if t' + l' < c.cyc + l then v else w)

/-- 03 R54, R57, R60: what issuing one instruction does to its engine beside the instruction's own effect. -/
def Obligations.IssueAdvancesThePc : Prop :=
  ∀ (s : State) (x : Iss) (k : Cls), let c := s.core x.eng
    let d := s.entered x k
    d.pc = c.pc + BitVec.ofNat 64 x.len.val ∧ d.sbuf = c.sbuf ∧ d.resv = c.resv ∧ d.devOut = c.devOut ∧ d.ftlb = c.ftlb ∧ d.dtlb = c.dtlb
      ∧ d.stlb = c.stlb ∧ d.pred = c.pred ∧ d.privPend = c.privPend ∧ d.privAct = c.privAct ∧ d.exc = c.exc ∧ d.doom = c.doom ∧ d.frozen = c.frozen ∧ d.wait = c.wait
      ∧ d.shadow = c.shadow - 1
      ∧ (∀ n, d.creg n = if (n = 0x61 ∨ n = 0x63) ∧ c.afterEret = true then withBits (c.creg n) 15 15 0 else c.creg n)
      ∧ (c.joins x = true → d.cyc = c.cyc ∧ d.nxt = c.nxt) ∧ (c.joins x = false → d.cyc = c.nxt ∧ d.nxt = c.nxt + 1)
      ∧ (∀ fp r, (∀ p ∈ c.inflight, ¬ (p.fp = fp ∧ p.reg = r)) → d.reg fp r = c.reg fp r)

/-- 04 R89-R92, Table 2, 05 R148, 06 R169: result and flags, or FP exception (cause 0x0E) at the instruction with the flags set and no
destination written. The flag reported of several is log entry 24. -/
def Obligations.FloatingPointResults : Prop :=
  ∀ (z : State) (x : Iss) (d a b : Fin 32),
    (canIssue z x .f .core false none → ∀ p ∈ fpForms x d a b,
      let s := z.reading x
      let c0 := s.core x.eng
      let c := s.entered x .f
      let r := p.2.2.2 c
      let trapped := Nat.land r.2 (bitsOf (c0.creg 0x20) 9 5)
      let last := c.cyc + p.2.2.1 - 1
      let d1 := { c with fpEnd := max c.fpEnd last, fpWin := if bitsOf (c0.creg 0x20) 9 5 = 0 then c.fpWin else max c.fpWin last }
      exec p.1 z = .next (s.setCore x.eng
        (if trapped = 0 then (d1.setFlags r.2).put p.2.1 d.val (BitVec.ofNat 64 r.1) p.2.2.1
         else { d1 with doom := some ⟨{ Exc.of 0x0E 0 c0.pc with detail := topFlag trapped, det := last }, (c0.setFlags r.2).undoRec⟩ }))) ∧
    (let c := z.core x.eng
     ∀ dm, c.doom = some dm → c.ready = true → (c.haltActs x.eng = false ∨ c.joins x = true) → dm.exc.det < c.issueCycle x → exec (.nop x) z = .next (z.setCore x.eng c.fireDoom) ∧
      c.fireDoom.exc = some dm.exc ∧ c.fireDoom.doom = none ∧ c.fireDoom.g = dm.undo.g ∧ c.fireDoom.f = dm.undo.f ∧ c.fireDoom.pc = dm.undo.pc
      ∧ c.fireDoom.inflight = dm.undo.inflight ∧ c.fireDoom.creg 0x20 = KV.get 0 dm.undo.cr 0x20 ^^^ crReset 0x20)

/-- 04 R108: where control passes, and the frame of a control transfer. -/
def Obligations.BranchesPassControl : Prop :=
  ∀ (z : State) (x : Iss) (h : Bool) (a b : Fin 32) (i disp : W64), canIssue z x .b .all false none →
    let s := z.reading x
    let c := s.core x.eng
    (∀ p ∈ branchForms x h a b i disp,
      Answers p.1 z (ControlPassed s x (if p.2 c then c.pc + disp else c.pc + BitVec.ofNat 64 x.len.val))) ∧
    Answers (.j x disp) z (ControlPassed s x (c.pc + disp)) ∧
    Answers (.jr x a) z (ControlPassed s x (c.greg a.val))

/-- 04 R109: the cycle in which the next group issues. -/
def Obligations.BranchCosts : Prop :=
  ∀ (z : State) (x : Iss) (h : Bool) (a b : Fin 32) (i disp : W64), canIssue z x .b .all false none → isJug x.eng = false →
    let s := z.reading x
    let c := s.core x.eng
    let cyc := (s.entered x .b).cyc
    (∀ p ∈ branchForms x h a b i disp, Answers p.1 z (fun t => (t.core x.eng).nxt =
      if c.predicts c.pc h = p.2 c then (s.entered x .b).nxt else cyc + 7)) ∧
    (c.predicts c.pc true = false) ∧
    Answers (.j x disp) z (fun t => (t.core x.eng).nxt = (s.entered x .b).nxt) ∧
    Answers (.jr x a) z (fun t => (t.core x.eng).nxt = cyc + 7)

/-- 04 R94-R96, R121, R122: the value of a load, when it is due, and where the pc goes. -/
def Obligations.LoadsDeliverTheValue : Prop :=
  ∀ (z : State) (x : Iss) (m : MemOp) (rd : Fin 32), m.rep = false → ∀ p ∈ loadForms x m rd,
    let s := z.reading x
    let e := x.eng
    let c := s.core e
    let n := p.2.1
    let fp := p.2.2.1
    let cyc := (s.entered x .m).cyc
    canIssue z x .m (if fp then .core else .all) false (memCheck e m true (!fp) rd.val) = true →
    (isJug e = false → ∀ bs l, s.servedNow x m n = some (bs, l) → Answers p.1 z (fun t => (t.core e).pc = c.pc + BitVec.ofNat 64 x.len.val
      ∧ (t.core e).exc = none ∧ (fp = true ∨ rd.val ≠ 0 → (t.core e).owes fp rd.val (loadedValue p.2.2.2 bs) (cyc + l - 1)))) ∧
    (isJug e = true → jugBeyond (c.ea c.pc n m.form) n = none →
      let r := s.jugRead e (pcForm m.form) (c.ea c.pc n m.form).toNat n
      r.2 = false → Answers p.1 z (fun t => (t.core e).pc = c.pc + BitVec.ofNat 64 x.len.val ∧ OnlyCore e s t
        ∧ (rd.val ≠ 0 → (t.core e).owes false rd.val (loadedValue p.2.2.2 r.1) (cyc + 2))))

/-- 04 R94, R121; 05 R133: where a store's bytes go, and the frame of a store. -/
def Obligations.StoresEnterTheStoreBuffer : Prop :=
  ∀ (z : State) (x : Iss) (m : MemOp) (rs : Fin 32), m.rep = false → ∀ p ∈ storeForms x m rs,
    let s := z.reading x
    let e := x.eng
    let c := s.core e
    let n := p.2.1
    let fp := p.2.2
    let ea := c.ea c.pc n m.form
    let bs := toBytes n (c.reg fp rs.val).toNat
    canIssue z x .m (if fp then .core else .all) false (memCheck e m false (!fp) rs.val) = true →
    (isJug e = false → ∀ ps, s.checkAccess e c.pc ea n .write false = .ok ps → Answers p.1 z (fun t => OnlyCore e s t
      ∧ (t.core e).buffered = c.sbuf ++ s.storeEntries e (s.splitDev e ps) bs m.rel m.stream ∧ (t.core e).pc = c.pc + BitVec.ofNat 64 x.len.val)) ∧
    (isJug e = true → pcForm m.form = false → jugBeyond ea n = none → Answers p.1 z (fun t =>
      KV.getAll 0 t.st.jdata (jugAddr e ea.toNat) n = bs ∧ t.st.jcode = s.st.jcode ∧ t.st.main = s.st.main
        ∧ (t.core e).pc = c.pc + BitVec.ofNat 64 x.len.val)) ∧
    (isJug e = true → (pcForm m.form = true ∨ (jugBeyond ea n).isSome = true) → Answers p.1 z (fun t =>
      t = s.setCore e (t.core e) ∧ ((t.core e).exc.map Exc.cause) = some 6))

/-- 04 R100: the count zero; the repetitions of a count above zero are log entry 32.
Where the spec leaves a point open it states the model's own choice (log entry 32). -/
def Obligations.RepeatedAccessWithCountZero : Prop :=
  ∀ (z : State) (x : Iss) (m : MemOp) (rd : Fin 32), m.rep = true → ((z.reading x).core x.eng).greg 29 = 0 →
    (∀ p ∈ loadForms x m rd, canIssue z x .s (if p.2.2.1 then .core else .all) false (memCheck x.eng m true (!p.2.2.1) rd.val) = true →
      exec p.1 z = .next (z.setCore x.eng (z.entered x .s))) ∧
    (∀ p ∈ storeForms x m rd, canIssue z x .s (if p.2.2 then .core else .all) false (memCheck x.eng m false (!p.2.2) rd.val) = true →
      exec p.1 z = .next (z.setCore x.eng (z.entered x .s)))

/-- 04 R95, R99, R113, R114. -/
def Obligations.LeaPrefetchAndLineMaintenance : Prop :=
  ∀ (z : State) (x : Iss) (f : AddrForm) (rd : Fin 32) (h st : Bool),
    let s := z.reading x
    let e := x.eng
    let c := s.core e
    let ea := c.ea c.pc 1 f
    let d := s.entered x .m
    (canIssue z x .m .all false (if leaForm f then none else some 0x09) = true → exec (.lea x f rd) z = .next (s.setCore e (d.put false rd.val ea 1))) ∧
    (canIssue z x .m .core false (if leaForm f then none else some 0x09) = true → Answers (.pref x f h st) z (fun t =>
      (t.core e).g = d.g ∧ (t.core e).f = d.f ∧ (t.core e).pc = d.pc ∧ (t.core e).exc = none ∧ (t.core e).frozen = none)) ∧
    (canIssue z x .m .core false (if plainForm f then none else some 0x09) = true → ∀ va pa,
      (let t0 := s.setCore e ((d.promoteParts e (s.talFor e) [(va, 1, pa)]).cost (s.talFor e) false 4)
       (s.checkAccess e c.pc ea 1 .read false = .ok [(va, 1, pa)] →
          (∀ b ∈ c.sbuf, b.pa / 64 ≠ pa / 64) →
          (∀ line, s.region e pa = .main line → exec (.dccl x f) z = .next ((t0.maintain .clean line).forgetDir line)
            ∧ exec (.dcfl x f) z = .next ((t0.maintain .flush line).forgetDir line)) ∧
          ((∀ line, s.region e pa ≠ .main line) → exec (.dccl x f) z = .next t0 ∧ exec (.dcfl x f) z = .next t0)) ∧
       (s.checkAccess e c.pc ea 1 .write false = .ok [(va, 1, pa)] →
          (∀ b ∈ c.sbuf, b.pa / 64 ≠ pa / 64) →
          (∀ line, s.region e pa = .main line → exec (.dcil x f) z = .next ((t0.maintain .drop line).forgetDir line)) ∧
          ((∀ line, s.region e pa ≠ .main line) → exec (.dcil x f) z = .next t0)) ∧
       (s.checkAccess e c.pc ea 1 .read false = .ok [(va, 1, pa)] →
          ∀ l line, e = .lcore l → s.region e pa = .main line → exec (.icil x f) z = .next (t0.dropL1 l.val line))))

/-- 04 R104, R105; where a reservation can stand is log entry 69.
Where the spec leaves a point open it states the model's own choice (log entries 29 and 69). -/
def Obligations.ReservedLoadAndConditionalStore : Prop :=
  ∀ (z : State) (x : Iss) (f : AddrForm) (q : Bool) (rd : Fin 32), canIssue z x .m .core false (atomCheck f false) = true →
    let s := z.reading x
    let e := x.eng
    let c := s.core e
    let cyc := (s.entered x .m).cyc
    (∀ p ∈ [(Instr.ldrD x f q rd, 8, false), (Instr.ldrW x f q rd, 4, true)], ∀ va pa u bs,
      s.atomPart x f p.2.1 .read = some (va, pa) → (s.promoted e [(va, p.2.1, pa)]).nearBytes e c (s.worldOf e) va pa p.2.1 = some (u, bs) →
      Answers p.1 z (fun t => (t.core e).resv = (if u.canReserve e pa then some (pa / 64) else none)
        ∧ (rd.val ≠ 0 → (t.core e).owes false rd.val (loadedValue p.2.2 bs) (cyc + s.loadLat e pa - 1)))) ∧
    (∀ p ∈ [(Instr.stcD x f q rd, 8), (Instr.stcW x f q rd, 4)], ∀ va pa, s.atomPart x f p.2 .write = some (va, pa) →
      (q = true → c.quiet = true) →
      let s0 := s.promoted e [(va, p.2, pa)]
      (c.resv = some (pa / 64) → s0.atomReady e pa (.cond rd.val (c.greg rd.val)) = true →
        let w := (s0.drainOwn e).writeRegion e pa (toBytes p.2 (c.greg rd.val).toNat) false false
        Answers p.1 z (fun t => t.st = w.st ∧ t.lines = w.lines ∧ (t.core e).resv = none
          ∧ (rd.val ≠ 0 → (s0.entered x .m).windowHit e pa p.2 = false → (t.core e).owes false rd.val 0 (cyc + 3)))) ∧
      (c.resv ≠ some (pa / 64) → Answers p.1 z (fun t => OnlyCore e s t ∧ (t.core e).resv = none
        ∧ (rd.val ≠ 0 → (t.core e).owes false rd.val 1 (cyc + 3)))))

/-- 04 R106.
Where the spec leaves a point open it states the model's own choice (log entries 29 and 69). -/
def Obligations.AtomicsCombineInPlace : Prop :=
  ∀ (z : State) (x : Iss) (f : AddrForm) (acq rel : Bool) (rd : Fin 32), canIssue z x .m .core false (atomCheck f false) = true →
    let s := z.reading x
    let e := x.eng
    let c := s.core e
    ∀ p ∈ [(Instr.amoaddD x f acq rel rd, fun (u v : W64) => u + v), (Instr.amoswapD x f acq rel rd, fun _ v => v),
        (Instr.amoandD x f acq rel rd, fun u v => u &&& v), (Instr.amoorD x f acq rel rd, fun u v => u ||| v),
        (Instr.amomaxuD x f acq rel rd, fun u v => if u.toNat < v.toNat then v else u)],
      ∀ va pa u bs, s.atomPart x f 8 .rw = some (va, pa) → (rel = true → c.quiet = true) →
      let s0 := s.promoted e [(va, 8, pa)]
      s0.atomReady e pa (.amo 0 rd.val (c.greg rd.val)) = true → (s0.drainOwn e).nearBytes e c (s.worldOf e) va pa 8 = some (u, bs) →
      let old := BitVec.ofNat 64 (ofBytes bs)
      let w := u.writeRegion e pa (toBytes 8 (p.2 old (c.greg rd.val)).toNat) false false
      Answers p.1 z (fun t => t.st = w.st ∧ t.lines = w.lines
        ∧ (rd.val ≠ 0 → (s0.entered x .m).windowHit e pa 8 = false → (t.core e).owes false rd.val old ((s.entered x .m).cyc + 5)))

/-- 04 R110, R112, R122.
Where the spec leaves a point open it states the model's own choice (log entries 36, 168 and 169). -/
def Obligations.CallsPushTheFrame : Prop :=
  ∀ (z : State) (x : Iss) (disp : W64) (a : Fin 32) (mask : BitVec 15), canIssue z x .s .all false none = true →
    let s := z.reading x
    let e := x.eng
    let c := s.core e
    let n := (maskRegs mask.toNat).length
    let sp := c.sp - BitVec.ofNat 64 (8 * (n + 2))
    let ws := c.frameWords (c.pc + BitVec.ofNat 64 x.len.val) mask.toNat
    let k := (if isJug e then 4 else 2) + (n + 1) / 2
    ∀ p ∈ [(Instr.callm x disp mask, c.pc + disp), (Instr.callmr x a mask, c.greg a.val)],
      (∀ w, c.stackFault n = some w → exec p.1 z = .next (s.setCore e (c.raiseExc (Exc.of 0x10 w c.pc)))) ∧
      (c.stackFault n = none → isJug e = false → ∀ ps, s.checkFrame e c.pc sp (n + 2) .write = .ok ps → Answers p.1 z (fun t =>
        (t.core e).pc = p.2 ∧ ((t.core e).win ≠ none → (t.core e).owes false 31 sp ((s.entered x .s).cyc + k - 1))
          ∧ ((t.core e).win = none → (t.core e).inflight = []) ∧ t.st = s.st ∧ t.lines = s.lines
          ∧ (t.core e).buffered = c.sbuf ++ (ps.zip ws).reverse.map (fun q => s.entryOf e q.1.2.2 (toBytes 8 q.2.toNat) false false))) ∧
      (c.stackFault n = none → isJug e = true → jugBeyond sp (8 * (n + 2)) = none → Answers p.1 z (fun t =>
        (t.core e).pc = p.2 ∧ (t.core e).owes false 31 sp ((s.entered x .s).cyc + k - 1)
          ∧ KV.getAll 0 t.st.jdata (jugAddr e sp.toNat) (8 * (n + 2)) = ws.flatMap (fun w => toBytes 8 w.toNat)))

/-- 04 R111, R112, R122. -/
def Obligations.ReturnRestoresTheFrame : Prop :=
  ∀ (z : State) (x : Iss), canIssue z x .s .all false none = true →
    let s := z.reading x
    let e := x.eng
    let c := s.core e
    let restored := fun (ws : List W64) (t : State) =>
      let mask := bitsOf (ws.getD 1 0) 14 0
      let n := (maskRegs mask).length
      let due := (s.entered x .s).cyc + (if isJug e then 5 else 3) + (n + 1) / 2 - 1
      (t.core e).pc = ws.getD 0 0 ∧ (t.core e).owes false 31 (c.sp + BitVec.ofNat 64 (8 * (n + 2))) due
        ∧ ∀ q ∈ (maskRegs mask).zip (ws.drop 2), (t.core e).owes false q.1 q.2 due
    (c.sp.toNat % 8 ≠ 0 → exec (.retm x) z = .next (s.setCore e (c.raiseExc (Exc.of 0x10 c.sp c.pc)))) ∧
    (c.sp.toNat % 8 = 0 → isJug e = false → ∀ ws, s.returnFrame e = some ws → Answers (.retm x) z (restored ws)) ∧
    (c.sp.toNat % 8 = 0 → isJug e = true → ∀ n,
      let word := fun (i : Nat) => BitVec.ofNat 64 (ofBytes (s.jugRead e false (c.sp.toNat + 8 * i) 8).1)
      n = (maskRegs (bitsOf (word 1) 14 0)).length → c.sp.toNat + 8 * (n + 2) ≤ 0x10000 → (s.jugRead e false c.sp.toNat (8 * (n + 2))).2 = false →
        Answers (.retm x) z (fun t => restored ((List.range (n + 2)).map word) t ∧ OnlyCore e s t))

/-- 04 R93, R115, R120. -/
def Obligations.ControlRegisterReads : Prop :=
  ∀ (z : State) (x : Iss) (d : Fin 32) (n : BitVec 16), canIssue z x .s .all false (crCheck x.eng n.toNat) = true →
    let s := z.reading x
    let e := x.eng
    let c := s.core e
    let k := s.entered x .s
    (isJug e = true →
      (n = 2 → exec (.mfcr x d n) z = .next (s.setCore e (k.put false d.val (c.creg 2) 2))) ∧
      (n = 3 → exec (.mfcr x d n) z = .next (s.setCore e (k.put false d.val (jidWord e (s.jugPos e)) 2))) ∧
      (n = 0x30 → exec (.mfcr x d n) z = .next (s.setCore e (k.put false d.val s.mtime 1)))) ∧
    (isJug e = false →
      (c.crRight e n.toNat = 0 → exec (.mfcr x d n) z = .next (s.setCore e (c.raiseExc (Exc.of 2 0 c.pc)))) ∧
      (c.crRight e n.toNat = 1 ∨ c.crRight e n.toNat = 3 → n ≠ 0x20 → n ≠ 0x39 → n ≠ 0x59 →
        exec (.mfcr x d n) z = .next (s.setCore e (k.put false d.val (s.crRead e n.toNat) 2))) ∧
      (n = 0x20 → exec (.mfcr x d n) z = .next (s.setCore e ((k.put false d.val (c.creg 0x20) (1 + k.fstatWait)).cost (s.talFor e) false (1 + k.fstatWait)))))

/-- 04 R93, R115, R120; 05 R153; 06 R165, R166.
Where the spec leaves a point open it states the model's own choice (log entry 66). -/
def Obligations.ControlRegisterWrites : Prop :=
  ∀ (z : State) (x : Iss) (a : Fin 32) (n : BitVec 16), canIssue z x .s .all false (crCheck x.eng n.toNat) = true →
    let s := z.reading x
    let e := x.eng
    let c := s.core e
    let v := c.greg a.val
    let k := s.entered x .s
    let shadowed := fun (d : Core) => ({ d with shadow := 3, oldCr := c.cr } : Core)
    (isJug e = true → exec (.mtcr x n a) z = .next (s.setCore e (if n = 2 then k.setCreg 2 v else k))) ∧
    (isJug e = false → c.crRight e n.toNat = 0 → exec (.mtcr x n a) z = .next (s.setCore e (c.raiseExc (Exc.of 2 0 c.pc)))) ∧
    (isJug e = false → 2 ≤ c.crRight e n.toNat → ∀ row, crRow n.toNat = some row →
      n ∉ ([0x20, 0x21, 0x3A, 0x5A, 0x48, 0x49] : List (BitVec 16)) →
      let d := k.setCreg n.toNat (crMerge (2 ≤ c.level e) (k.creg n.toNat) v (crFields n.toNat))
      exec (.mtcr x n a) z = .next (s.setCore e (if row.mode then shadowed d else d))) ∧
    (isJug e = false → n = 0x20 →
      exec (.mtcr x n a) z = .next (s.setCore e (shadowed ((k.cost (s.talFor e) false (1 + k.fstatWait)).setCreg 0x20
        (crMerge (2 ≤ c.level e) (k.creg 0x20) v (crFields 0x20)))))) ∧
    (isJug e = false → n = 0x48 → 2 ≤ c.crRight e 0x48 →
      (pairOk v = true → bitsOf v 31 8 = 0 → s.hctxTakes e (bitsOf v 7 0) = true → Answers (.hctxWrite x a) z (fun t =>
        (t.core e).creg 0x48 = v ∧ (t.core e).shadow = 3 ∧ (t.core e).oldCr = c.cr
          ∧ (s.pidWorld (bitsOf v 7 0) ≠ s.pidWorld (bitsOf (c.creg 0x48) 7 0) → (t.core e).pred = Pred.reset))) ∧
      (pairOk v = false ∨ bitsOf v 31 8 ≠ 0 ∨ s.hctxTakes e (bitsOf v 7 0) = false → Answers (.hctxWrite x a) z (fun t => (t.core e).creg 0x48 = c.creg 0x48)))

/-- 06 R183. -/
def Obligations.InterruptsAreClaimedAndEnded : Prop :=
  ∀ (z : State) (x : Iss) (d a : Fin 32) (h : Bool), isJug x.eng = false →
    let s := z.reading x
    let e := x.eng
    let c := s.core e
    let k := s.entered x .s
    let claim := if h then Instr.hiclaim x d else Instr.iclaim x d
    let fin := if h then Instr.hieoi x a else Instr.ieoi x a
    let id := bitsOf (c.greg a.val) 11 0
    (canIssue z x .s .all false (crCheck e (if h then 0x59 else 0x39)) = true → c.crRight e (if h then 0x59 else 0x39) ≠ 0 →
      (s.deliverable e h = none → exec claim z = .next (s.setCore e (k.put false d.val 0 2))) ∧
      (∀ q, s.deliverable e h = some q → q.id < 32 → Answers claim z (fun t => (t.core e).privPend.getLsbD q.id = false
        ∧ (t.core e).privAct.getLsbD q.id = true ∧ t.regs = s.regs
        ∧ (d.val ≠ 0 → ∃ v : W64, v.getLsbD 63 = true ∧ bitsOf v 11 0 = q.id ∧ (t.core e).owes false d.val v (k.cyc + 1)))) ∧
      (∀ q, s.deliverable e h = some q → 32 ≤ q.id → q.id < 4096 → Answers claim z (fun t =>
        t.flag (.irstate c.cluster q.id) Fld.irstatePend = false ∧ t.flag (.irstate c.cluster q.id) Fld.irstateAct = true
        ∧ (d.val ≠ 0 → ∃ v : W64, v.getLsbD 63 = true ∧ (t.core e).owes false d.val v (k.cyc + 1))))) ∧
    (canIssue z x .s .all false (crCheck e (if h then 0x5A else 0x3A)) = true → 2 ≤ c.crRight e (if h then 0x5A else 0x3A) →
      (id < 32 → (privOf h).contains id = true → c.privAct.getLsbD id = true → Answers fin z (fun t => (t.core e).privAct.getLsbD id = false)) ∧
      (id < 32 → ((privOf h).contains id = false ∨ c.privAct.getLsbD id = false) → exec fin z = .next (s.setCore e k)) ∧
      (32 ≤ id → ∀ l, e = .lcore l →
        ((s.routedTo l.val 1 (if h then 1 else 2)).any (fun q => q.id == id) = true → Answers fin z (fun t => t.flag (.irstate c.cluster id) Fld.irstateAct = false)) ∧
        ((s.routedTo l.val 1 (if h then 1 else 2)).any (fun q => q.id == id) = false → exec fin z = .next (s.setCore e k))))

/-- 04 R115; 03 R78-R81. -/
def Obligations.TrapInstructionsRaise : Prop :=
  ∀ (z : State) (x : Iss) (bs : List Byte),
    let s := z.reading x
    let e := x.eng
    let c := s.core e
    let k := s.entered x .s
    (canIssue z x .s .core false none = true →
      exec (.sc x) z = .next (s.setCore e (k.raiseExc (Exc.of 0x0C 0 (c.pc + BitVec.ofNat 64 x.len.val)))) ∧
      (c.level e = 0 → exec (.hc x) z = .next (s.setCore e (c.raiseExc (Exc.of 2 0 c.pc)))) ∧
      (1 ≤ c.level e → exec (.hc x) z = .next (s.setCore e (k.raiseExc (Exc.of 0x0D 0 (c.pc + BitVec.ofNat 64 x.len.val)))))) ∧
    (canIssue z x .s .all false none = true → exec (.brk x) z = .next (s.setCore e (c.raiseExc (Exc.of 0x0B 0 c.pc)))) ∧
    ((z.core e).ready = true → (z.core e).doom = none → ∀ n, illegalBytes e (z.core e) bs = some n →
      exec (.illegalInstruction e bs) z = .next (z.setCore e ((z.core e).raiseExc (if fetchBeyond e (z.core e) bs then
        { codeEnd (z.core e) with det := (z.core e).nxt } else { Exc.illegal n (z.core e).pc with det := (z.core e).nxt }))))

/-- 06 R168, Table 2: what entry to H (`h`) or S saves and where it goes, for a synchronous exception and for an asynchronous event.
Where the spec leaves a point open it states the model's own choice (log entries 16 and 171). -/
def Obligations.ExceptionEntrySavesAndVectors : Prop :=
  ∀ (s : State) (e : Engine), isJug e = false →
    let c := s.core e
    (∀ x, c.exc = some x → c.frozen = none → c.halted = false →
      let h := isTrust e || x.vec || c.toH x.cause
      let same := if h then 2 ≤ c.level e else c.level e = 1
      Answers (.exceptionEntry e) s (EnteredAt s e h x.epc (x.word h) x.eval (if same then 0x40 else 0))) ∧
    (∀ h w v, s.atBoundary e = true → c.doom = none → c.haltActs e = false → s.asyncNext e = some (h, w, v) →
      Answers (.interruptEntry e) s (EnteredAt s e h c.pc w v 0x80))

/-- 04 R123, 11 R305. -/
def Obligations.JugglerExceptionHaltsIt : Prop :=
  ∀ (s : State) (g : Fin 32) (k : Fin 5) (p : Nat) (x : Exc), (s.core (.juggler g k)).exc = some x → (s.core (.juggler g k)).frozen = none →
    (s.core (.juggler g k)).halted = false → s.served (.juggler g k) = some p → p < 4 → x.cause < 256 →
    Answers (.exceptionEntry (.juggler g k)) s (fun t => (t.core (.juggler g k)).run = false ∧ (t.core (.juggler g k)).exc = none
      ∧ t.fld (.jstat g.val p) Fld.jstatState = 4 ∧ t.fld (.jstat g.val p) Fld.jstatCause = x.cause
      ∧ t.fld (.jstat g.val p) Fld.jstatFpc = x.epc.toNat % 65536 ∧ (t.pos g.val p).running = false)

/-- 04 R113-R117, 06 R168, R177, 08 R243.
Where the spec leaves a point open it states the model's own choice (log entries 34 and 65). -/
def Obligations.EretWaitsAndMaintenance : Prop :=
  ∀ (z : State) (x : Iss) (a b : Fin 32),
    let s := z.reading x
    let e := x.eng
    let c := s.core e
    let k := s.entered x .s
    let h := decide (2 ≤ c.level e)
    (canIssue z x .s .core false (if c.eretIllegal e then some 0x09 else none) = true →
      (c.level e = 0 → exec (.eret x) z = .next (s.setCore e (c.raiseExc (Exc.of 2 0 c.pc)))) ∧
      (1 ≤ c.level e → Answers (.eret x) z (fun t =>
        (t.core e).pc = c.creg (if h then 0x41 else 9) ∧
        bitsOf ((t.core e).creg 1) 1 0 = (if h then bitsOf (c.creg 1) 8 7 else bitsOf (c.creg 1) 5 4) ∧
        (if h then bitsOf ((t.core e).creg 1) 3 3 = bitsOf (c.creg 1) 9 9 else bitsOf ((t.core e).creg 1) 2 2 = bitsOf (c.creg 1) 6 6) ∧
        (t.core e).shadow = k.shadow ∧ t.st = s.st))) ∧
    (canIssue z x .s .all false none = true → (isJug e = true ∨ 1 ≤ c.level e) →
      (isJug e = true → exec (.wfi x) z = .next ((s.setCore e { k with wait := some .wfi }).slotEnded e)) ∧
      (isJug e = false → exec (.wfi x) z = .next (s.setCore e { k with wait := if s.wakes e then none else some .wfi }))) ∧
    (isJug e = false → (z.core e).wait = some .wfi → z.wakes e = true → exec (.wfiWake e) z = .next (z.setCore e { z.core e with wait := none, issuedAt := z.mtime })) ∧
    (canIssue z x .s .core false none = true →
      (2 ≤ c.level e → Answers (.predclr x) z (fun t => OnlyCore e s t ∧ (t.core e).pred = Pred.reset ∧ (t.core e).nxt = k.cyc + 2048)) ∧
      (1 ≤ c.level e →
        Answers (.tlbiAll x) z (fun t => OnlyCore e s t ∧ (t.core e).nxt = k.cyc + 64 ∧ ∀ u,
          (u ∈ (t.core e).ftlb ↔ u ∈ c.ftlb ∧ h = false ∧ (u.h = true ∨ u.pid ≠ c.hpid e)) ∧
          (u ∈ (t.core e).dtlb ↔ u ∈ c.dtlb ∧ h = false ∧ (u.h = true ∨ u.pid ≠ c.hpid e)) ∧
          (u ∈ (t.core e).stlb ↔ u ∈ c.stlb ∧ h = false ∧ (u.h = true ∨ u.pid ≠ c.hpid e))) ∧
        Answers (.tlbiVa x a b) z (fun t => OnlyCore e s t ∧ (t.core e).nxt = k.cyc + 4 ∧
          ∀ u ∈ (t.core e).ftlb ++ (t.core e).dtlb ++ (t.core e).stlb, h = false → u.h = false → u.pid = c.hpid e →
            (u.glob = true ∨ u.asid = bitsOf (c.greg b.val) 15 0) → (c.greg a.val).toNat / 2 ^ u.bits ≠ u.vpn) ∧
        Answers (.tlbiAsid x a) z (fun t => OnlyCore e s t ∧ (t.core e).nxt = k.cyc + 32 ∧
          ∀ u ∈ (t.core e).ftlb ++ (t.core e).dtlb ++ (t.core e).stlb, h = false → u.h = false → u.pid = c.hpid e → u.glob = false →
            u.asid ≠ bitsOf (c.greg a.val) 15 0)) ∧
      Answers (.isync x) z (fun t => OnlyCore e s t ∧ (t.core e).win = none ∧ (t.core e).nxt = k.cyc + 11 ∧ (t.core e).group.ctl = k.group.ctl) ∧
      exec (.fence x) z = .next (s.setCore e (if k.quiet then k else { k with frozen := some (.fence false) })) ∧
      exec (.fenceSl x) z = .next (s.setCore e (if k.quiet then k else { k with frozen := some (.fence false) })) ∧
      exec (.fenceIo x) z = .next (s.setCore e (if k.ioQuiet then k else { k with frozen := some (.fence true) }))) ∧
    (∀ io, (z.core e).frozen = some (.fence io) ∨ (z.core e).frozen = some .release ∧ io = false →
      (if io then (z.core e).ioQuiet else (z.core e).quiet) = true → Answers (.fenceCompletion e) z (fun t =>
      (t.core e).frozen = none ∧ (t.core e).pc = c.pc ∧ t.st = s.st))

/-- 04 R124, Table 8; 11 R290, R300.
Where the spec leaves a point open it states the model's own choice (log entry 42). -/
def Obligations.JugglerPortInstructions : Prop :=
  ∀ (z : State) (x : Iss) (d a b : Fin 32), isJug x.eng = true → canIssue z x .m .jug false none = true →
    let s := z.reading x
    let e := x.eng
    let c := s.core e
    let v := c.greg b.val
    let cyc := (s.entered x .m).cyc
    let gets := fun (u : W64) (lat : Nat) (t : State) => d.val ≠ 0 → (t.core e).owes false d.val u (cyc + lat - 1)
    (∀ n, s.ownPort e (c.greg a.val).toNat = some n →
      (∀ w ws, (s.port n).rx = w :: ws → Answers (.prx x d a) z (fun t => (t.port n).rx = ws ∧ gets (w ||| 0x8000000000000000) 2 t)) ∧
      ((s.port n).rx = [] → Answers (.prx x d a) z (fun t => t.ports = s.ports ∧ gets 0 2 t)) ∧
      (wordIfc (s.ifc n) = true → badTxWord v = false → (s.port n).tx.length < 32 →
        Answers (.ptx x d a b) z (fun t => (t.port n).tx = (s.port n).tx ++ [v] ∧ gets 0 2 t)) ∧
      (wordIfc (s.ifc n) = true → badTxWord v = false → 32 ≤ (s.port n).tx.length → Answers (.ptx x d a b) z (fun t => t.ports = s.ports ∧ gets 1 2 t)) ∧
      Answers (.pst x d a) z (fun t => t.ports = s.ports ∧ gets (s.statusWord n) 2 t) ∧
      Answers (.pctl x a b) z (fun t => (t.port n).ctl = v &&& ~~~ (0xFFFFFFF0 : W64) ∧ t.core e = s.entered x .m) ∧
      (s.ifc n = 9 → Answers (.pin x d a) z (fun t => t.ports = s.ports ∧ gets (BitVec.ofNat 64 (s.port n).lands.toNat) 1 t)) ∧
      (s.ifc n = 9 → (s.fld (.fldcfg (n / 16) (n % 16)) Fld.fldcfgMode = 2 ∨ s.fld (.fldcfg (n / 16) (n % 16)) Fld.fldcfgMode = 3) →
        Answers (.pout x a b) z (fun t => (t.port n).out = BitVec.ofNat 64 (v.toNat % 2))) ∧
      (s.ifc n = 9 → (s.fld (.fldcfg (n / 16) (n % 16)) Fld.fldcfgMode = 4 ∨ s.fld (.fldcfg (n / 16) (n % 16)) Fld.fldcfgMode = 5) →
        Answers (.pout x a b) z (fun t => (t.port n).pwm = BitVec.ofNat 64 (v.toNat % 65536)))) ∧
    (s.ownPort e (c.greg a.val).toNat = none →
      Answers (.prx x d a) z (fun t => t.ports = s.ports ∧ gets 0 2 t) ∧ Answers (.ptx x d a b) z (fun t => t.ports = s.ports ∧ gets 1 2 t) ∧
      Answers (.pst x d a) z (fun t => t.ports = s.ports ∧ gets 0 2 t) ∧ Answers (.pctl x a b) z (fun t => t.ports = s.ports) ∧
      Answers (.pin x d a) z (fun t => t.ports = s.ports ∧ gets 0 1 t) ∧ Answers (.pout x a b) z (fun t => t.ports = s.ports))

/-- 04 R124, R125, Table 8; 11 R301, R302.
Where the spec leaves a point open it states the model's own choice (log entries 17, 43, 72 and 176). -/
def Obligations.JugglerWaitsTimersAndFrames : Prop :=
  ∀ (z : State) (x : Iss) (d a b : Fin 32) (g : Fin 32) (j : Fin 5), x.eng = .juggler g j →
    let s := z.reading x
    let e := x.eng
    let c := s.core e
    let u := c.greg a.val
    let v := c.greg b.val
    let cyc := (s.entered x .m).cyc
    let gets := fun (w : W64) (lat : Nat) (t : State) => d.val ≠ 0 → (t.core e).owes false d.val w (cyc + lat - 1)
    (canIssue z x .s .jug false none = true → exec (.twait x a) z = .next (s.setCore e
      { s.entered x .s with wait := if u.toNat ≤ s.mtime.toNat then none else some (.until u s.mtime) })) ∧
    (∀ w t0, (z.core e).wait = some (.until w t0) → w.toNat ≤ s.mtime.toNat → exec (.twaitEnd g j) z = .next (z.setCore e
      { z.core e with wait := none, nxt := (z.core e).cyc + jugCycles (w.toNat - t0.toNat) })) ∧
    (∀ k w, KV.get none (s.group g.val).timers k = some w → w.toNat ≤ s.mtime.toNat → (h : k < 64) →
      Answers (.groupTimerFire g ⟨k, h⟩) z (fun t => KV.get none (t.group g.val).timers k = none ∧ KV.get false (t.group g.val).fired k = true)) ∧
    (canIssue z x .m .jug false none = true →
      exec (.tnow x d) z = .next (s.setCore e ((s.entered x .m).put false d.val s.mtime 1)) ∧
      (∀ k, s.ownTimer e u = some (g.val, k) →
        Answers (.tset x a b) z (fun t => KV.get none (t.group g.val).timers k = some v) ∧
        Answers (.tchk x d a) z (fun t => KV.get false (t.group g.val).fired k = false ∧ gets (if KV.get false (s.group g.val).fired k then 1 else 0) 1 t)) ∧
      (s.ownTimer e u = none → Answers (.tset x a b) z (fun t => t.groups = s.groups) ∧ Answers (.tchk x d a) z (fun t => t.groups = s.groups ∧ gets 0 1 t)) ∧
      (∀ p h, s.served e = some p → h = (s.jugRead e false u.toNat 16).1 →
        let lp := (h.getD 0 0).toNat
        let kind := (h.getD 1 0).toNat
        let n := ofBytes ((h.drop 2).take 2)
        u.toNat + v.toNat ≤ 0x10000 → v.toNat = 16 + n → n ≤ 2048 → 1 ≤ kind → kind ≤ 9 → lp / 4 = p →
        s.routerUsed g.val + v.toNat ≤ 65536 → s.claimOwner 1 (g.val * 16 + lp) = some (s.jugOwner e) →
        Answers (.frput x d a b) z (fun t => gets 0 4 t ∧ ∃ f, (t.group g.val).accept = (s.group g.val).accept ++ [f] ∧ f.port = g.val * 16 + lp
          ∧ f.kind = kind ∧ f.data = (s.jugRead e false (u.toNat + 16) n).1)) ∧
      (∀ n i len rest, s.ownPort e u.toNat = some n → (s.port n).landing.full = (i, len) :: rest → Answers (.frget x d a) z (fun t =>
        (t.port n).landing.held = some i ∧
        gets (BitVec.ofNat 64 ((s.fld (landReg n) Fld.jlandBase + i * s.fld (landReg n) Fld.jlandSize) % 65536 + len * 2 ^ 32)) 4 t)) ∧
      (∀ n, s.ownPort e u.toNat = some n → (s.port n).landing.full = [] → Answers (.frget x d a) z (fun t => gets 0 4 t)))

/-- 11 R290, R300; 12 Table 3.
Where the spec leaves a point open it states the model's own choice (log entries 83 and 84). -/
def Obligations.PortControlBits : Prop :=
  ∀ (s : State) (g : Fin 32) (k : Fin 5) (l : Fin 4) (m : BitVec 8) (on : Bool),
    let e := Engine.juggler g k
    (∀ n, s.ownPort e l.val = some n →
      Answers (.txflush g k l) s (fun t => (t.port n).tx = []) ∧
      Answers (.rxflush g k l) s (fun t => (t.port n).rx = [] ∧ (t.port n).tx = (s.port n).tx) ∧
      (s.ifc n = 1 → (s.port n).busOff = true → (s.port n).faulted = false → Answers (.recover g k l) s (fun t => (t.port n).integrating = true)) ∧
      (s.ifc n = 1 → Answers (.standbyTransceiver g k l) s (fun t => (t.port n).standby = true)) ∧
      (s.ifc n = 2 → Answers (.sleep g k l) s (fun t => (t.port n).asleep = true) ∧
        Answers (.wakePulse g k l) s (fun t => (t.port n).asleep = false ∧ (t.port n).wakePulse = true)) ∧
      (directIfc (s.ifc n) = true → Answers (.gate g k l m) s (fun t => (t.port n).gates = m)) ∧
      ((s.ifc n = 6 ∨ s.ifc n = 7) → (s.port n).faulted = false → Answers (.supply g k l on) s (fun t => (t.port n).supply = on)) ∧
      ((s.ifc n = 6 ∨ s.ifc n = 7) → (s.port n).faulted = true → bitOf (s.port n).ctl 32 = true → Answers (.supply g k l true) s (fun t => (t.port n).supply = (s.port n).supply)) ∧
      (s.ifc n = 7 → Answers (.sync g k l on) s (fun t => (t.port n).sync = on)) ∧
      (s.ifc n = 9 → s.fld (.fldcfg (n / 16) (n % 16)) Fld.fldcfgMode = 7 → s.bitIn .caladc Fld.caladcFail (n / 16) = false →
        Answers (.adcRequest g k l) s (fun t => n % 16 ∈ (t.group (n / 16)).adcQ))) ∧
    (s.ownPort e l.val = none → ∀ i ∈ [Instr.txflush g k l, .rxflush g k l, .recover g k l, .standbyTransceiver g k l, .sleep g k l, .wakePulse g k l,
      .gate g k l m, .supply g k l on, .sync g k l on, .adcRequest g k l], Answers i s (fun t => t.ports = s.ports))

/-- 05 R131, R133, R135; 06 R176.
Where the spec leaves a point open it states the model's own choice (log entries 25 and 166). -/
def Obligations.CoreEventsMakeProgress : Prop :=
  ∀ (s : State) (e : Engine) (va : W64) (store : Bool),
    let c := s.core e
    (c.frozen = some (.walk va false store) → ∀ pas u, s.walk e c (if store then .write else .read) va = (pas, .entry u) →
      s.walkMisses e (c.pid e) (s.worldOf e) pas = [] → Answers (.tableWalk e va false store) s (fun t => u ∈ (t.core e).stlb ∧ u ∈ (t.core e).dtlb ∧ (t.core e).frozen = none ∧ t.st = s.st)) ∧
    (c.frozen = some (.walk va false store) → ∀ pas cs d l sw ipa, s.walk e c (if store then .write else .read) va = (pas, .fault cs d l sw ipa) →
      s.walkMisses e (c.pid e) (s.worldOf e) pas = [] → Answers (.tableWalk e va false store) s (fun t => (t.core e).exc = some (faultExc cs d l sw ipa va c.pc) ∧ (t.core e).frozen = none ∧ t.st = s.st)) ∧
    (c.ready = true → isJug e = false → c.decodeNeeds va = true → ∀ pa a, c.fetchView.lookup e true .fetch va = (.ok pa, false) →
      s.region e pa = .lmem a → (∀ b ∈ c.sbuf, b.pa / 64 ≠ pa / 64) → Answers (.fetchFill e va) s (fun t => (t.core e).win = some c.pc ∧ (t.core e).exc = none ∧ t.st = s.st)) ∧
    (∀ a fp reg sign, c.frozen = some (.access a) → a.kind = .load fp reg sign → missing a.pieces = none → poisoned a.pieces = none → a.rep = false →
      a.upd = none → a.iss.eng = e → Answers (.loadDataArrival e) s (fun t => (t.core e).frozen = none ∧ t.st = s.st
        ∧ (fp = true ∨ reg ≠ 0 → ∃ due, (t.core e).owes fp reg (loadedValue sign (partsBytes a.pieces)) due))) ∧
    (∀ b rest a, c.sbuf = b :: rest → b.leaves c = true → c.frozen = none → s.region e b.pa = .lmem a →
      Answers (.storeBufferDrain e) s (fun t => (t.core e).sbuf = rest ∧ KV.getAll 0 t.st.lmem a b.bytes.length = b.bytes))

/-- 06 R179, R181, R185.
Where the spec leaves a point open it states the model's own choice (log entry 67). -/
def Obligations.TimersAndInterruptIds : Prop :=
  ∀ (s : State) (l : Fin 128) (r : Req) (c : Fin 16) (id : BitVec 12),
    let pend := fun (t : State) (k : Nat) => t.flag (.irstate k id.toNat) Fld.irstatePend
    let routed := fun (k : Nat) => s.fld (.ircfg k id.toNat) Fld.ircfgDel ≠ 0 ∧ s.hosts k (s.fld (.ircfg k id.toNat) Fld.ircfgLcore) = true
    (s.timerDue (s.lc l.val) false = true → Answers (.guestTimer l) s (fun t => (t.lc l.val).privPend.getLsbD 0 = true)) ∧
    (s.timerDue (s.lc l.val) true = true → Answers (.hTimer l) s (fun t => (t.lc l.val).privPend.getLsbD 1 = true)) ∧
    (32 ≤ id.toNat → id.toNat < 1152 → routed c.val → Answers (.intmsg id) s (fun t => pend t c.val = true)) ∧
    (1152 ≤ id.toNat → (r.pid = 0 ∨ r.pid = 255) → routed c.val → Answers (.msgirq r c id) s (fun t => pend t c.val = true)) ∧
    (1152 ≤ id.toNat → (r.pid = 0 ∨ r.pid = 255) → s.fld (.ircfg c.val id.toNat) Fld.ircfgDel = 0 → exec (.msgirq r c id) s = .next s) ∧
    (s.msgTakes r.pid.toNat c.val id.toNat = false → 1152 ≤ id.toNat → Answers (.msgirq r c id) s (fun t => pend t c.val = pend s c.val))

/-- 07 R207-R211, R216, Table 2.
Where the spec leaves a point open it states the model's own choice (log entries 52, 54 and 170). -/
def Obligations.SkidderCommands : Prop :=
  ∀ (s : State) (r : Req) (c : Fin 16) (x : SkTarget) (incl : Bool) (pid : BitVec 8),
    let cmds : List (Instr × Nat × Bool × Nat) :=
      [(.clean r c x, 1, false, 0), (.inval r c x incl, 2, incl, 0), (.flush r c x incl, 3, incl, 0), (.lock r c x pid, 4, false, pid.toNat), (.unlock r c x, 5, false, 0)]
    let isI := ∃ j, x = .l1i j
    let hosted := x = .l2 ∨ (∃ j, (x = .l1d j ∨ x = .l1i j) ∧ (s.coreAt c j.val).isSome = true)
    let first := s.fld (.skaddr c) Fld.skaddrAddr
    let n := s.fld (.sklen c) Fld.sklenLines
    let fine := n ≠ 0 ∧ first + n ≤ 2 ^ 25 ∧ s.meetsSecond first n = false
    let busy := s.flag (.skstat c) Fld.skstatBusy
    let ended := fun (code : Nat) (t : State) => t.fld (.skstat c) Fld.skstatCode = code ∧ t.flag (.skint c) Fld.skintDone = true
      ∧ t.flag (.skstat c) Fld.skstatBusy = s.cleaning c ∧ KV.get none t.skid c.val = KV.get none s.skid c.val ∧ t.lines = s.lines
    let held := fun (line w : Nat) => (s.lineAt (256 + c.val) (line % 2048) w).st ≠ .i ∧ (s.lineAt (256 + c.val) (line % 2048) w).line = line
    let single := fun (line : Nat) => ∀ v w, held line v → held line w → v = w
    (isHost r = true → ∀ y ∈ cmds,
      (busy = false → hosted → (isI → y.2.1 < 4) → fine → Answers y.1 s (fun t => t.flag (.skstat c) Fld.skstatBusy = true ∧ t.rd (.skcnt c) = 0 ∧
        KV.get none t.skid c.val = some ⟨y.2.1, x, y.2.2.1, y.2.2.2, first, n, false⟩ ∧ t.lines = s.lines)) ∧
      (busy = false → ¬ (hosted ∧ (isI → y.2.1 < 4)) → Answers y.1 s (ended 3)) ∧
      (busy = false → hosted → (isI → y.2.1 < 4) → ¬ fine → Answers y.1 s (ended 2)) ∧
      (busy = true → Answers y.1 s (fun t => t.flag (.skstat c) Fld.skstatRefused = true ∧ t.skid = s.skid ∧ t.lines = s.lines
        ∧ t.flag (.skstat c) Fld.skstatBusy = true))) ∧
    (isHost r = true → Answers (.abort r c) s (fun t => t.lines = s.lines ∧
      KV.get none t.skid c.val = (KV.get none s.skid c.val).map (fun k => { k with abort := true }))) ∧
    (isHost r = false → ∀ i ∈ Instr.abort r c :: cmds.map (·.1),
      exec i s = .next (s.log (clusterUnit c.val) clsContained r.pid.toNat r.world (Reg.skcmd c.val).addr 0)) ∧
    (∀ k, KV.get none s.skid c.val = some k → k.abort = false → (∀ line ∈ s.walkLines c.val k, s.lockWaits c.val k line = false) → Answers (.skidderDone c) s (fun t => KV.get none t.skid c.val = none ∧
      t.flag (.skint c) Fld.skintDone = true ∧ t.flag (.skstat c) Fld.skstatBusy = s.cleaning c ∧
      (t.fld (.skstat c) Fld.skstatCode = 0 ∨ k.op = 4 ∧ t.fld (.skstat c) Fld.skstatCode = 5) ∧
      (k.target = .l2 → k.lines ≤ 32768 → t.fld (.skcnt c) Fld.skcntDone = k.lines ∧ ∀ m < k.lines,
        (k.op = 1 → ∀ d, t.findLine (256 + c.val) (k.first + m) = some d → d.st ≠ .m) ∧
        ((k.op = 2 ∨ k.op = 3) → (k.incl = true ∨ s.lockedIn (256 + c.val) (k.first + m) = false) → single (k.first + m) → t.findLine (256 + c.val) (k.first + m) = none) ∧
        (k.op = 4 → k.lines = 1 → t.fld (.skstat c) Fld.skstatCode = 0 → t.lockedIn (256 + c.val) (k.first + m) = true) ∧
        (k.op = 5 → t.lockedIn (256 + c.val) (k.first + m) = false))))

/-- 07 R197, R198, R212-R216, Table 3.
Where the spec leaves a point open it states the model's own choice (log entries 55 and 56). -/
def Obligations.CachesTurnOnAndOff : Prop :=
  ∀ (s : State) (r : Req) (c : Fin 16) (j : Fin 8) (v : W64) (l : Fin 128) (pa : PAddr) (id : CacheId),
    let l2 := Reg.l2ctl c.val
    let l1 := Reg.l1ctl c.val j.val
    let i := cacheNo id
    (isHost r = true → s.flag l2 Fld.l2ctlBusy = false →
      (bitOf v 0 = true → Answers (.cacheControlWrite r c .l2 v) s (fun t => t.flag l2 Fld.l2ctlEn = true ∧ t.flag l2 Fld.l2ctlPfen = bitOf v 8 ∧ t.lines = s.lines)) ∧
      (bitOf v 0 = false → s.flag l2 Fld.l2ctlEn = true →
        (s.anyDirty (256 + c.val) = true ∨ (∃ k ∈ s.hosted c.val, s.anyDirty (128 + k) = true) → Answers (.cacheControlWrite r c .l2 v) s (fun t =>
          t.flag l2 Fld.l2ctlEn = true ∧ t.flag l2 Fld.l2ctlBusy = true ∧ t.flag (.skstat c.val) Fld.skstatBusy = true ∧ t.lines = s.lines)) ∧
        (s.anyDirty (256 + c.val) = false → (∀ k ∈ s.hosted c.val, s.anyDirty (128 + k) = false) → Answers (.cacheControlWrite r c .l2 v) s (fun t =>
          t.flag l2 Fld.l2ctlEn = false ∧ ∀ line, t.findLine (256 + c.val) line = none)))) ∧
    (isHost r = true → s.flag l2 Fld.l2ctlBusy = true → Answers (.cacheControlWrite r c .l2 v) s (fun t =>
      t.flag l2 Fld.l2ctlEn = s.flag l2 Fld.l2ctlEn ∧ t.lines = s.lines)) ∧
    (isHost r = true → s.coreAt c.val j.val = none → exec (.cacheControlWrite r c (.l1 j) v) s = .next s) ∧
    (isHost r = false → exec (.cacheControlWrite r c .l2 v) s = .next (s.log (clusterUnit c.val) clsContained r.pid.toNat r.world l2.addr 0)
      ∧ exec (.cacheControlWrite r c (.l1 j) v) s = .next (s.log (clusterUnit c.val) clsContained r.pid.toNat r.world l1.addr 0)) ∧
    (KV.get none s.skid c.val = none →
      (s.flag l2 Fld.l2ctlBusy = true → Answers (.cacheDisableDone c .l2) s (fun t => t.flag l2 Fld.l2ctlEn = false ∧ t.flag l2 Fld.l2ctlBusy = false ∧
        ∀ line, t.findLine (256 + c.val) line = none)) ∧
      (s.flag l1 Fld.l1ctlDbusy = true → ∀ k, s.coreAt c.val j.val = some k → Answers (.cacheDisableDone c (.l1 j)) s (fun t =>
        t.flag l1 Fld.l1ctlDen = false ∧ t.flag l1 Fld.l1ctlDbusy = false ∧ ∀ line, t.findLine (128 + k) line = none))) ∧
    ((KV.get none s.skid c.val).isSome = true → exec (.cacheDisableDone c .l2) s = .next s) ∧
    Answers (.ageParityError (.l2 c)) s (fun t => t.flag l2 Fld.l2ctlAgeerr = true ∧ t.lines = s.lines) ∧
    (∀ p < 128, (s.lc l.val).place = some p → Answers (.ageParityError (.l1d l)) s (fun t => t.flag (.l1ctl (p / 8) (p % 8)) Fld.l1ctlAgeerr = true)) ∧
    (i ∈ s.ageErr → Answers (.ageRewriteDone id) s (fun t => (∀ set way, set < cacheSets i → way < 16 → (s.lineAt i set way).st ≠ .i →
        t.lineAt i set way = { s.lineAt i set way with age := 3 }) ∧
      (id = .l2 c → t.flag l2 Fld.l2ctlAgeerr = false))) ∧
    (i ∉ s.ageErr → exec (.ageRewriteDone id) s = .next s) ∧
    exec (.arrayError (.l2 c) pa true) s = .next (s.logEvent (clusterUnit c.val) clsCorrected pa.toNat 0) ∧
    exec (.arrayError (.l2tag c) pa true) s = .next (s.logEvent (clusterUnit c.val) clsCorrected pa.toNat 0) ∧
    (∀ d, s.findLine (256 + c.val) (pa.toNat / 64) = some d → d.st = .m → Answers (.arrayError (.l2 c) pa false) s (fun t =>
      t.findLine (256 + c.val) (pa.toNat / 64) = some { d with poison := 255 })) ∧
    ((s.lc l.val).duty = .pair → ∀ a ∈ [ErrArray.l1i l, .l1d l, .lmem l], exec (.arrayError a pa false) s = exec (.pairMismatch l) s) ∧
    ((s.lc l.val).duty ≠ .pair → (∀ d, s.findLine (128 + l.val) (pa.toNat / 64) = some d → d.st = .m → Answers (.arrayError (.l1d l) pa false) s (fun t =>
        t.findLine (128 + l.val) (pa.toNat / 64) = some { d with poison := 255 })) ∧
      Answers (.arrayError (.lmem l) pa false) s (fun t => KV.get 0 t.st.lmemSyn (lmemWord l.val pa.toNat) = 0x7F ∧ t.st.lmem = s.st.lmem)) ∧
    (let w := lmemWord l.val pa.toNat
     (∀ b, syndOf (KV.get 0 s.st.lmemSyn w).toNat = .bit b → Answers (.arrayPatrolRead (.lmem l) pa) s (fun t => KV.get 0 t.st.lmemSyn w = 0 ∧
       KV.getAll 0 t.st.lmem (w * 8) 8 = toBytes 8 (BitVec.ofNat 64 (ofBytes (KV.getAll 0 s.st.lmem (w * 8) 8)) ^^^ (1 <<< b)).toNat)) ∧
     (KV.get 0 s.st.lmemSyn w = 0 → exec (.arrayPatrolRead (.lmem l) pa) s = .next s))

/-- 08 R218, R219, R224, R226, R227, Table 6; 15 R397.
Where the spec leaves a point open it states the model's own choice (log entries 10 and 158). -/
def Obligations.HomesServeRequests : Prop :=
  ∀ (s : State) (q : HReq) (mask : BitVec 64) (data : List Byte) (poison : BitVec 8),
    let a := q.agent.val
    let line := q.line.toNat
    let h := homeOf line
    let takes := s.homeTakes a line = true ∧ s.fromDead a = false ∧ s.isUnmapped q.pid.toNat (line * 64) = false ∧ s.isSecond line = false ∧ (s.home h).queue = []
      ∧ ∀ m ∈ s.net, ¬ ((m.kind = .wbd ∨ m.kind = .evc) ∧ m.agent = a ∧ m.addr = line)
    let allowed := fun (write : Bool) => s.unitAllows h q.pid.toNat q.world (!write) write (line * 64) = true
    let room := s.lineBusy line = false ∧ (q.credit = true ∨ s.busyCount h < 64)
    let last := fun (t : State) (p : Msg → Prop) => ∃ m, t.net.getLast? = some m ∧ m.src = homeRouter h ∧ p m
    let line_ := fun (grant : Nat) (m : Msg) => m.dst = agentRouter a ∧ m.agent = a ∧ m.addr = line ∧ m.tag = q.tag.toNat ∧ m.grant = grant
      ∧ (m.kind = if (s.readLine line).2.2 = 255 then .poison else .data) ∧ m.data = (s.readLine line).2.1 ∧ m.poison = (s.readLine line).2.2
    let acks := fun (grant : Nat) (m : Msg) => m.kind = .ack ∧ m.dst = agentRouter a ∧ m.agent = a ∧ m.addr = line ∧ m.grant = grant ∧ m.tag = q.tag.toNat ∧ m.pid = q.pid.toNat ∧ m.world = q.world
    let all : List (Instr × Bool) := [(.rds q, false), (.rdx q, true), (.upg q, true), (.iord q, false), (.iowr q mask data poison, true)]
    (takes → room → s.findDir line = none →
      (∀ k, (s.dirKeys line).find? (fun k => !(s.dirAt k).used) = some k →
        ∀ c ∈ [(Instr.rds q, false), (.rdx q, true), (.upg q, true)], allowed c.2 → Answers c.1 s (fun t =>
          t.dirAt k = { DirEnt.none with line := line, owner := some a, age := 1 } ∧ last t (line_ 2))) ∧
      (allowed false → Answers (.iord q) s (fun t => t.dir = s.dir ∧ last t (line_ 0))) ∧
      (allowed true → Answers (.iowr q mask data poison) s (fun t => t.dir = s.dir ∧
        t.st = (s.writeLine line mask.toNat (padTo 64 0 data) poison).st ∧ last t (acks 0)))) ∧
    (∀ k, takes → room → s.findDir line = some k →
      ((s.dirAt k).owner = none → (s.dirAt k).shares ≠ 0 →
        (allowed false → Answers (.rds q) s (fun t => (t.dirAt k).owner = none ∧ (t.dirAt k).shares = (s.dirAt k).shares ||| shareBit a ∧ last t (line_ 1)) ∧
          Answers (.iord q) s (fun t => (t.dirAt k).owner = none ∧ (t.dirAt k).shares = (s.dirAt k).shares ∧ last t (line_ 0))) ∧
        (allowed true → a < 48 → (s.dirAt k).shares = shareBit a → Answers (.upg q) s (fun t => (t.dirAt k).owner = some a ∧ last t (acks 2)))) ∧
      (∀ o, (s.dirAt k).owner = some o → o ≠ a → s.inService (agentRouter o) = true → ∀ c ∈ all, allowed c.2 → Answers c.1 s (fun t =>
        last t (fun m => m.kind = (if c.2 then .snpx else .snps) ∧ m.dst = agentRouter o ∧ m.agent = o ∧ m.addr = line) ∧
        ∃ x, (t.dirAt k).busy = some x ∧ x.waits = [o]))) ∧
    (∀ c ∈ all, allowed c.2 → takes → s.lineBusy line = true → q.credit = false → Answers c.1 s (fun t => t.dir = s.dir ∧ t.st = s.st ∧
      last t (fun m => m.kind = .retry ∧ m.dst = agentRouter a ∧ m.addr = line ∧ m.credit = !(s.home h).credits.contains a))) ∧
    (∀ c ∈ all, ¬ allowed c.2 → takes → Answers c.1 s (fun t => t.dir = s.dir ∧ t.st = s.st ∧ (a < 48 → a ∈ t.fw.reload) ∧
      last t (fun m => m.kind = .absent ∧ m.dst = agentRouter a ∧ m.addr = line * 64))) ∧
    (s.homeTakes a line = true → s.fromDead a = false → s.isUnmapped q.pid.toNat (line * 64) = true → ∀ c ∈ all, Answers c.1 s (fun t =>
      ∃ m, t.net.getLast? = some m ∧ m.kind = .absent ∧ m.src = agentRouter a ∧ m.dst = agentRouter a ∧ m.addr = line * 64 ∧ m.tag = q.tag.toNat)) ∧
    (s.homeTakes a line = false → ∀ c ∈ all, exec c.1 s = .next s) ∧
    (s.inService (homeRouter h) = true → s.fromDead a = false → s.awaiting a line = none → ∀ k, s.findDir line = some k →
      ((s.dirAt k).owner = some a → Answers (.wbd q data poison) s (fun t => t.st = (s.writeLine line fullMask (padTo 64 0 data) poison).st ∧
        (t.dirAt k).owner = none ∧ last t (acks 0))) ∧
      ((s.dirAt k).owner = none → a < 48 → (s.dirAt k).shares.getLsbD a = true → Answers (.evc q) s (fun t => t.st = s.st ∧
        (t.dirAt k).shares.getLsbD a = false ∧ last t (acks 0))))

/-- 08 R223, R224, R226, R229, R246, Tables 5 and 6.
Where the spec leaves a point open it states the model's own choice (log entries 28 and 39). -/
def Obligations.SnoopsAndAnswersMoveLines : Prop :=
  ∀ (s : State) (a : Fin 48) (b : Fin 50) (ln : BitVec 34) (dst : Router) (pa : PAddr) (tag : BitVec 10),
    let line := ln.toNat
    let h := homeOf line
    let i := 256 + a.val
    let set := line % cacheSets i
    let reply := fun (t : State) (k : MsgKind) (p : Msg → Prop) => ∃ m, t.net.getLast? = some m ∧ m.kind = k ∧ m.src = agentRouter a.val ∧ m.dst = homeRouter h
      ∧ m.agent = a.val ∧ m.addr = line ∧ p m
    let snoops := [Instr.snps a ln, .snpi a ln, .snpx a ln]
    (s.inService (agentRouter a.val) = true →
      ((∃ e ∈ s.leaving, e.agent = a.val ∧ e.line = line) → ∀ c ∈ snoops, Answers c s (fun t => t.lines = s.lines ∧ reply t .ackEvicted (fun _ => True))) ∧
      ((∀ e ∈ s.leaving, ¬ (e.agent = a.val ∧ e.line = line)) →
        (s.findWay i line = none → ∀ c ∈ snoops, Answers c s (fun t => reply t .ack (fun _ => True))) ∧
        (∀ w, s.findWay i line = some w →
          let l := (if a.val < 16 then s.mergeL1 a.val line else s).lineAt i set w
          let answer := fun (t : State) => if l.st = .m then reply t .data (fun m => m.data = l.data ∧ m.poison = l.poison) else reply t .ack (fun _ => True)
          Answers (.snps a ln) s (fun t => (t.lineAt i set w).st = .s ∧ answer t) ∧
          ∀ c ∈ [Instr.snpi a ln, .snpx a ln], Answers c s (fun t => (t.lineAt i set w).st = .i ∧ answer t ∧
            ∀ k ∈ s.hosted a.val, a.val < 16 → (t.lc k).resv ≠ some line)))) ∧
    (∀ k w m, dst.val = agentRouter a.val → b.val = a.val →
      s.net.find? (fun m => m.kind == k && m.dst == agentRouter b.val && m.agent == b.val && m.addr == line && m.src == homeRouter h) = some m → m.grant ≠ 0 →
      s.wants.find? (fun w => w.agent == b.val && w.line == line) = some w → s.findWay i line = none →
      (∃ v ∈ s.candidates i set w.pid w.world, (s.lineAt i set v).st = .i) →
      ∀ y ∈ [(MsgKind.data, Instr.data dst b ⟨ln, 0⟩), (.poison, .poison b ln)], k = y.1 → Answers y.2 s (fun t => t.wants = s.wants.erase w ∧
        ∃ l, t.findLine i line = some l ∧ l.data = m.data ∧ l.poison = m.poison ∧ l.st = (if m.grant = 2 then .e else .s))) ∧
    (∀ n d x r m, s.awaiting b.val line = some (n, d, x) → x.waits = [b.val] → x.req = some r → r.kind = .rdx → r.line = line → s.fromDead b.val = false → s.fromDead r.agent = false →
      (s.home h).queue = [] → dst.val = homeRouter h →
      (s.net.find? (fun m => m.kind == .data && m.dst == dst.val && m.agent == b.val && m.addr == line) = some m → Answers (.data dst b ⟨ln, 0⟩) s (fun t =>
        (t.dirAt n).owner = some r.agent ∧ (t.dirAt n).busy = none ∧ ∃ u, t.net.getLast? = some u ∧ u.dst = agentRouter r.agent ∧ u.grant = 2)) ∧
      (s.net.find? (fun m => m.kind == .ack && m.dst == dst.val && m.agent == b.val && m.addr == line) = some m → Answers (.ack dst b ln) s (fun t =>
        (t.dirAt n).owner = some r.agent ∧ (t.dirAt n).busy = none ∧ ∃ u, t.net.getLast? = some u ∧ u.dst = agentRouter r.agent ∧ u.grant = 2))) ∧
    (∀ n d x, s.awaiting a.val line = some (n, d, x) → a.val ∉ x.evicted → s.fromDead a.val = false → Answers (.ackevicted a ln) s (fun t =>
      (t.dirAt n).busy = some { x with evicted := x.evicted ++ [a.val] } ∧ t.st = s.st)) ∧
    (∀ w m, dst.val = agentRouter b.val → s.net.find? (fun m => m.kind == .ack && m.dst == dst.val && m.agent == b.val && m.addr == line) = some m → m.grant = 2 →
      s.wants.find? (fun w => w.agent == b.val && w.line == line && (w.kind == .upg)) = some w → Answers (.ack dst b ln) s (fun t => t.wants = s.wants.erase w ∧
        ∀ l, s.findLine (256 + b.val) line = some l → l.st = .s → t.findLine (256 + b.val) line = some { l with st := .e })) ∧
    (∀ w m, s.net.find? (fun m => m.kind == .retry && m.agent == b.val && m.addr == line) = some m → m.credit = true →
      s.wants.find? (fun w => w.agent == b.val && w.line == line) = some w → Answers (.retry b ln) s (fun t => t.wants = s.wants ∧
        ∃ u, t.net.getLast? = some u ∧ u.kind = w.kind ∧ u.agent = b.val ∧ u.addr = line ∧ u.dst = homeRouter h ∧ u.credit = true)) ∧
    (∀ m k, s.net.find? (fun m => m.kind == .absent && m.dst == agentRouter b.val && m.addr == pa.toNat && m.tag == tag.toNat) = some m → m.lcore = some k → k < 128 →
      (m.grant = 1 → Answers (.absent b pa tag) s (fun t => (t.lc k).devOut = (s.lc k).devOut - 1 ∧ (t.lc k).lostStore = some ((s.lc k).lostStore.getD pa.toNat))) ∧
      (m.grant ≠ 1 → ∀ x p, (s.lc k).frozen = some (.access x) → x.late = none → x.pieces.find? (fun p => p.got.isNone && p.pa == pa.toNat) = some p →
        Answers (.absent b pa tag) s (fun t => (t.lc k).frozen = none ∧ (t.lc k).exc = some (denialExc 2 p.va (s.lc k).pc))))

/-- 08 R233-R235, R241, R246; 16 R426.
Where the spec leaves a point open it states the model's own choice (log entries 39 and 152). -/
def Obligations.DeviceMessagesAndDeadAgents : Prop :=
  ∀ (s : State) (r : Req) (pa : PAddr) (sz : ASize) (v : W64) (tag : BitVec 10) (a : Fin 48) (ln : BitVec 34) (view : AgentView),
    let line := ln.toNat
    let taken := fun (m : Msg) => (s.consume (fun x => x == m)).1
    let answer := fun (t : State) (m : Msg) (k : MsgKind) (bs : List Byte) (no : Bool) => ∃ u, t.net.getLast? = some u ∧ u.kind = k ∧ u.src = m.dst ∧ u.dst = m.src
      ∧ u.tag = m.tag ∧ u.lcore = m.lcore ∧ u.data = bs ∧ u.refused = no
    (∀ m, s.devMsg .drd r pa.toNat tag.toNat = some m → (∀ d, s.target pa.toNat ≠ .remote d) →
      (s.devFirst m = false → exec (.drd r pa sz tag) s = .next s) ∧
      (s.devFirst m = true → Answers (.drd r pa sz tag) s (fun t => match ((taken m).busRead r pa.toNat m.mask).2 with
        | .val w => answer t m .drsp (toBytes m.mask w.toNat) false
        | .denied => answer t m .drsp [] true
        | .poison => ∃ u, t.net.getLast? = some u ∧ u.kind = .drsp ∧ u.src = m.dst ∧ u.dst = m.src ∧ u.tag = m.tag ∧ u.lcore = m.lcore ∧ u.poison = 1
        | .absent => answer t m .absent [] false))) ∧
    (s.devMsg .drd r pa.toNat tag.toNat = none →
      exec (.drd r pa sz tag) s = .next (s.busRead r (pa.toNat / bytesOf sz * bytesOf sz) (bytesOf sz)).1) ∧
    (∀ m, s.devMsg .dwr r pa.toNat tag.toNat = some m → (∀ d, s.target pa.toNat ≠ .remote d) → s.devFirst m = true →
      let x := (taken m).busWrite r [] pa.toNat m.mask (BitVec.ofNat 64 (ofBytes m.data))
      Answers (.dwr r pa sz v tag) s (fun t => answer t m (if x.2 then .drsp else .absent) [] false ∧ t.regs = (x.1.devAnswer m .drsp [] false).regs)) ∧
    (s.devMsg .dwr r pa.toNat tag.toNat = none → exec (.dwr r pa sz v tag) s = exec (.registerWrite r pa sz v) s) ∧
    (∀ m k, s.devMsg .drsp r pa.toNat tag.toNat = some m → reqKey r = some k →
      (m.grant = 1 → Answers (.drsp r pa tag) s (fun t => t.core (engOf k) = { s.core (engOf k) with devOut := (s.core (engOf k)).devOut - 1 })) ∧
      (m.grant ≠ 1 → m.refused = false → m.poison = 0 → ∀ x, (s.core (engOf k)).frozen = some (.access x) → Answers (.drsp r pa tag) s (fun t =>
        ∃ y, (t.core (engOf k)).frozen = some (.access y) ∧ ∀ p ∈ y.pieces, p.pa = pa.toNat → p.got ≠ none)) ∧
      (m.grant ≠ 1 → m.refused = true → ∀ x p, (s.core (engOf k)).frozen = some (.access x) → x.late = none → x.pieces.find? (fun p => p.got.isNone && p.pa == pa.toNat) = some p →
        Answers (.drsp r pa tag) s (fun t => (t.core (engOf k)).exc = some (denialExc 1 p.va (s.core (engOf k)).pc)))) ∧
    (∀ n d x, s.awaiting a.val line = some (n, d, x) →
      (let seen := ((x.reports.find? (fun e => e.1 == a.val)).map (·.2)).getD 0
       Answers (.snoopTimeout a ln) s (fun t => (t.dirAt n).busy = some { x with reports := x.reports.filter (fun e => e.1 != a.val) ++ [(a.val, seen + 1)] })) ∧
      (∀ e, x.reports.find? (fun e => e.1 == a.val) = some e →
        (view.aliveToggled = false ∨ view.uncorrectable = true ∨ 3 ≤ e.2 → s.lko.stopped = false → Answers (.lookoutDecision a ln view) s (fun t => a.val ∈ t.lko.dead)) ∧
        (view.aliveToggled = true → view.uncorrectable = false → e.2 < 3 → exec (.lookoutDecision a ln view) s = .next s)) ∧
      (x.fore = false ∨ s.mtime.toNat < x.since + x.tmo * 1000 → exec (.forerunnerTimeout a ln) s = .next s) ∧
      (x.fore = true → x.since + x.tmo * 1000 ≤ s.mtime.toNat → Answers (.forerunnerTimeout a ln) s (fun t => (a.val, line) ∈ (t.home (homeOf line)).late))) ∧
    (s.awaiting a.val line = none → exec (.snoopTimeout a ln) s = .next s ∧ exec (.lookoutDecision a ln view) s = .next s ∧ exec (.forerunnerTimeout a ln) s = .next s)

/-- 09 R255, R259, R261-R266, Tables 2 and 3.
Where the spec leaves a point open it states the model's own choice (log entries 58 and 173). -/
def Obligations.MainMemoryRepairsItself : Prop :=
  ∀ (s : State) (d : Fin 18) (second : Bool) (line : BitVec 25) (i : Fin 8),
    let g := if 16 ≤ d.val then d.val - 16 else groupOfDie d.val
    let place := s.placeOfElem g (if 16 ≤ d.val then 8 else d.val % 8)
    let k := if second then 1 else 0
    let x := k * 8 + s.steer k Fld.spsteerDie
    let st := s.steer k Fld.spsteerState
    let row := s.steer k Fld.spsteerDone
    let w := lineOfRow x row * 8 + i.val
    let u := line.toNat * 8 + i.val
    let fresh := fun (p : Nat) (t : State) => t.steer g Fld.spsteerState = 2 ∧ t.steer g Fld.spsteerDie = p % 8 ∧ t.steer g Fld.spsteerDone = 0
    (∀ p, place = some p → s.dieState p = 2 → exec (.dieFailure d) s = .next s) ∧
    (∀ p, place = some p → s.dieState p ≠ 2 → Answers (.dieFailure d) s (fun t => t.dieState p = 2 ∧ t.st.main = s.st.main ∧
      (s.steer g Fld.spsteerState = 0 → s.scState (48 + g) ≠ scNoSpare → fresh p t ∧
        t.flag (.mcstat (p / 2)) Fld.mcstatSingle = (List.range 16).any (fun n => s.flag (.mctwin (p / 2) n) Fld.mctwinEn)) ∧
      (s.steer g Fld.spsteerState = 1 → g * 8 + s.steer g Fld.spsteerDie = p → t.steer g Fld.spsteerState = 2 ∧ t.steer g Fld.spsteerDone = s.steer g Fld.spsteerDone) ∧
      (s.steer g Fld.spsteerState = 1 → g * 8 + s.steer g Fld.spsteerDie ≠ p → fresh p t))) ∧
    (place = none → s.steer g Fld.spsteerState = 3 → exec (.dieFailure d) s = .next s) ∧
    (place = none → s.steer g Fld.spsteerState ≠ 3 → Answers (.dieFailure d) s (fun t => t.scState (48 + g) = scNoSpare ∧ t.steer g Fld.spsteerState = 0
      ∧ t.st.main = s.st.main)) ∧
    ((st = 1 ∨ st = 2) → row < 2 ^ 21 →
      (s.lineBusy (lineOfRow x row) = true → exec (.migrationLineCopy second) s = .next s) ∧
      (s.lineBusy (lineOfRow x row) = false → Answers (.migrationLineCopy second) s (fun t => t.steer k Fld.spsteerDone = row + 1 ∧
        (s.dieFailed (lineOfRow x row) = false → s.wordSyn w = 0 →
          KV.getAll 0 t.st.spare (w * 8) 8 = toBytes 8 (s.wordRaw w).toNat ∧ KV.get 0 t.st.spareSyn w = 0) ∧
        (s.dieFailed (lineOfRow x row) = true → s.classA (lineOfRow x row) = true → s.dieFailed (twinOf (lineOfRow x row)) = false → s.wordSyn (twinWord w) = 0 →
          KV.getAll 0 t.st.spare (w * 8) 8 = toBytes 8 (s.wordRaw (twinWord w)).toNat ∧ KV.get 0 t.st.spareSyn w = 0) ∧
        (s.dieFailed (lineOfRow x row) = true →
          s.classA (lineOfRow x row) = false ∧ s.isSecond (lineOfRow x row) = false ∨ s.dieFailed (twinOf (lineOfRow x row)) = true →
          KV.get 0 t.st.spareSyn w = 0x7F)))) ∧
    ((st = 1 ∧ s.lko.stopped = false ∨ st = 2) → row = 2 ^ 21 → KV.wf 0 s.st.spare = true → Answers (.spareSteer second) s (fun t =>
      (∀ a, KV.get 0 t.st.main a = if dieOf (a / 64) = x then KV.get 0 s.st.spare a else KV.get 0 s.st.main a) ∧
      t.dieState x = (if s.idleElem k = x % 8 then 0 else 3) ∧
      (st = 2 → t.steer k Fld.spsteerState = 3 ∧ t.scState (48 + k) = scNoSpare) ∧
      (st = 1 → t.steer k Fld.spsteerState = 0 ∧ t.scState (48 + k) = scTesting ∧ t.spareOf (48 + k) = s.dieElem x))) ∧
    (row ≠ 2 ^ 21 → exec (.spareSteer second) s = .next s) ∧
    (s.lineBusy line.toNat = true → exec (.scrubLine line) s = .next s) ∧
    (s.lineBusy line.toNat = false → s.inService (homeRouter (homeOf line.toNat)) = true → s.isSecond line.toNat = false →
      (s.classA line.toNat = false → s.dieFailed line.toNat = false → ∀ b, syndOf (s.wordSyn u) = .bit b → Answers (.scrubLine line) s (fun t =>
        t.wordRaw u = s.wordRaw u ^^^ (1 <<< b) ∧ t.wordSyn u = 0)) ∧
      (s.classA line.toNat = true → s.dieFailed line.toNat = false → s.dieFailed (twinOf line.toNat) = false → s.wordSyn u = 0 → s.wordSyn (twinWord u) = 0 →
        Answers (.scrubLine line) s (fun t => t.wordRaw u = s.wordRaw u ∧ t.wordRaw (twinWord u) = s.wordRaw u)))

/-- 10 R269, R271, R275-R277; 16 R425.
Where the spec leaves a point open it states the model's own choice (log entries 61 and 62). -/
def Obligations.PlanesFailOverAndReturn : Prop :=
  ∀ (s : State) (p : Bool) (r src dst : Router) (dir : Fin 4) (flit : W32),
    let other := if s.powered (if p then 56 else 57) then s.plane (!p) else 2
    let pr := fun (t : State) => t.pair src.val dst.val
    (s.plane p ≠ 2 → s.plane p ≠ 3 → Answers (.planeFailure p) s (fun t => (∀ m ∈ s.net, m ∈ t.net) ∧ (∀ a b, (t.pair a b).moved = false) ∧
      (∀ m ms, (pr s).replay = m :: ms → ∀ u ∈ m :: ms, seqLe (BitVec.ofNat 16 m.seq) (BitVec.ofNat 16 u.seq) = true →
        seqLe (pr s).expect (BitVec.ofNat 16 u.seq) = true → u ∈ t.net) ∧
      (other = 0 → t.plane p = 2 ∧ t.plane (!p) = s.plane (!p)) ∧ (other = 1 → t.plane p = 2 ∧ t.plane (!p) = 3) ∧
      (other ≠ 0 → other ≠ 1 → t.plane p = 3 ∧ t.plane (!p) = 3 ∧ 4 ∈ t.lko.causes))) ∧
    (s.plane p = 2 ∨ s.plane p = 3 → exec (.planeFailure p) s = .next s) ∧
    (let key := linkKey p r.val dir.val
     let seen := KV.get (0, 0) s.fab.links key
     (seen.1 = flit ∧ 2 ≤ seen.2 →
       exec (.linkCrcError p r ⟨dir, flit⟩) s = exec (.planeFailure p) { s with fab := { s.fab with links := KV.keep (fun j => (256 ≤ j) != p) s.fab.links } }) ∧
     (seen.1 = flit ∧ seen.2 < 2 → Answers (.linkCrcError p r ⟨dir, flit⟩) s (fun t => t.net = s.net ∧ t.plane p = s.plane p ∧ t.fab.pairs = s.fab.pairs ∧
       KV.get (0, 0) t.fab.links key = (flit, seen.2 + 1))) ∧
     (seen.1 ≠ flit → Answers (.linkCrcError p r ⟨dir, flit⟩) s (fun t => t.net = s.net ∧ t.plane p = s.plane p ∧ t.fab.pairs = s.fab.pairs ∧
       KV.get (0, 0) t.fab.links key = (flit, 1)))) ∧
    (s.plane p = 3 → Answers (.planeReinitDone p true) s (fun t => t.plane p = 0 ∧ 4 ∉ t.lko.causes ∧ (∀ m ∈ s.net, m ∈ t.net) ∧ (∀ a b, (t.pair a b).moved = false))
      ∧ Answers (.planeReinitDone p false) s (fun t => t.plane p = 2 ∧ t.net = s.net)) ∧
    (s.plane p ≠ 3 → ∀ b, exec (.planeReinitDone p b) s = .next s) ∧
    (s.fab.emptying = some p → planeOf src.val dst.val = p → (pr s).replay = [] → s.lko.stopped = false → Answers (.planeMove src dst) s (fun t => (pr t).moved = true ∧
      ((s.setPair src.val dst.val { pr s with moved := true }).planeEmpty p = true → t.plane p = 1 ∧ t.fab.testing = some p ∧ t.fab.emptying = none))) ∧
    (s.fab.emptying = none ∨ (pr s).replay ≠ [] ∨ s.lko.stopped = true → exec (.planeMove src dst) s = .next s)

/-- 10 R274, R275, R278, R279.
Where the spec leaves a point open it states the model's own choice (log entry 59). -/
def Obligations.DeliveryIsAcknowledged : Prop :=
  ∀ (s : State) (src dst : Router) (q : BitVec 16) (tag : BitVec 10),
    let p := s.pair src.val dst.val
    let covered := fun (a : BitVec 16) (m : Msg) => seqLe (BitVec.ofNat 16 m.seq) a
    let released := fun (a : BitVec 16) (t : State) => t.pair src.val dst.val = { p with replay := p.replay.filter (fun m => !covered a m), timeouts := 0 } ∧ t.net = s.net
    let resent := fun (a : BitVec 16) (t : State) => (∀ m ∈ s.net, m ∈ t.net) ∧ ∀ m ∈ p.replay, seqLe a (BitVec.ofNat 16 m.seq) = true →
      seqLe p.expect (BitVec.ofNat 16 m.seq) = true → m ∈ t.net
    let counted := fun (t : State) => t.fld .fbcnt Fld.fbcntResend = (s.bump .fbcnt Fld.fbcntResend 1).fld .fbcnt Fld.fbcntResend
    let lost := s.net.find? (fun m => m.dst == dst.val && m.tag == tag.toNat && m.kind.asks)
    Answers (.e2eack src dst q) s (released q) ∧
    (p.expect ≠ 0 ∨ p.next ≠ 0 → Answers (.e2eAckTimeout src dst) s (released (p.expect - 1))) ∧
    (p.expect = 0 → p.next = 0 → exec (.e2eAckTimeout src dst) s = .next s) ∧
    Answers (.e2enak src dst q) s (fun t => counted t ∧ resent q t ∧ t.fab = s.fab) ∧
    (p.replay = [] → exec (.e2eResendTimeout src dst) s = .next s) ∧
    (∀ m ms, p.replay = m :: ms →
      (p.timeouts = 0 → Answers (.e2eResendTimeout src dst) s (fun t => counted t ∧ t.pair src.val dst.val = { p with timeouts := 1 } ∧ resent (BitVec.ofNat 16 m.seq) t)) ∧
      (1 ≤ p.timeouts → Answers (.e2eResendTimeout src dst) s (fun t =>
        let x := if p.moved then !planeOf src.val dst.val else planeOf src.val dst.val
        counted t ∧ t.plane (if s.plane x = 0 then x else !x) ≠ 0))) ∧
    (∀ m, lost = some m →
      (m.kind = .rds ∨ m.kind = .rdx ∨ m.kind = .upg ∨ m.kind = .iord ∨ m.kind = .iowr → Answers (.acceptTimeout dst tag) s (fun t => ∃ u, t.net.getLast? = some u ∧
        u.kind = .absent ∧ u.src = dst.val ∧ u.dst = m.src ∧ u.tag = m.tag ∧ u.addr = m.addr * 64)) ∧
      (m.kind = .drd ∨ m.kind = .dwr → Answers (.acceptTimeout dst tag) s (fun t => ∃ u, t.net.getLast? = some u ∧
        u.kind = .absent ∧ u.src = dst.val ∧ u.dst = m.src ∧ u.tag = m.tag ∧ u.addr = m.addr)) ∧
      (m.kind = .snps ∨ m.kind = .snpi ∨ m.kind = .snpx → ∀ k d x, s.awaiting m.agent m.addr = some (k, d, x) → Answers (.acceptTimeout dst tag) s (fun t =>
        ∃ y, (t.dirAt k).busy = some y ∧ ∃ e ∈ y.reports, e.1 = m.agent))) ∧
    (lost = none → exec (.acceptTimeout dst tag) s = .next s)

/-- 08 R225; 10 R280, R281. That the two admissions of one slot are the arrivals of one home cycle is the model's reading (log entry 51).
Where the spec leaves a point open it states the model's own choice (log entry 51). -/
def Obligations.SlotsAndFrames : Prop :=
  ∀ (s : State) (h : Fin 8) (n : Fin 250),
    let x := s.home h.val
    let rank := fun (m : Msg) => (m.agent + 50 - x.arb) % 50
    (s.powered 56 = true ∨ s.powered 57 = true → Answers .timeSlotFrameStart s (fun t => t.fab.frames = s.fab.frames + 1)) ∧
    (s.powered 56 = false → s.powered 57 = false → exec .timeSlotFrameStart s = .next s) ∧
    (s.admits h.val n.val = [] → exec (.slotAdmission h n) s = .next s) ∧
    (∀ m, s.admits h.val n.val = [m] → s.talOn = false → exec (.slotAdmission h n) s = .next (s.homeRequest m.toReq)) ∧
    (∀ m, s.admits h.val n.val = [m] → Answers (.slotAdmission h n) s (fun t => (t.home h.val).arb = x.arb)) ∧
    (∀ a b, s.admits h.val n.val = [a, b] → a.addr ≠ b.addr → s.talOn = false →
      exec (.slotAdmission h n) s = .next ((s.homeRequest a.toReq).homeRequest b.toReq)) ∧
    (∀ a b, s.admits h.val n.val = [a, b] →
      (a.addr = b.addr → Answers (.slotAdmission h n) s (fun t => (t.home h.val).arb = ((if rank b < rank a then b.agent else a.agent) + 1) % 50)) ∧
      (a.addr ≠ b.addr → Answers (.slotAdmission h n) s (fun t => (t.home h.val).arb = x.arb)))

/-- 11 R292-R298, R305, R314, Tables 1 and 6.
Where the spec leaves a point open it states the model's own choice (log entries 74, 163 and 175). -/
def Obligations.PositionsRunTheirSchedule : Prop :=
  ∀ (s : State) (r : Req) (g : Fin 32) (p : Fin 4) (owner : BitVec 16),
    let jc := Reg.jctl g.val p.val
    let k := s.server g.val p.val
    let e := jugEng g.val k
    let n := 5 * g.val + k
    let y := s.pos g.val p.val
    let own := s.fld jc Fld.jctlOwner
    let may := s.groupPasses r jc.addr true = true ∧ s.groupAlive g.val = true
    let good := isHost r = true ∧ (r.pid = 255 ∨ owner.toNat = own)
    let start := s.nextStart g.val p.val
    let late := s.latestStart g.val p.val y.bank s.mtime.toNat start
    let was := s.flag jc Fld.jctlRun
    let both := [Instr.positionRun r g p owner, .positionHalt r g p owner]
    (may → good → (was = false ∨ s.stoppedSelf g.val p.val = true) →
      (k < 5 → KV.wf 0 s.st.jstore = true → Answers (.positionRun r g p owner) s (fun t => t.flag jc Fld.jctlRun = true ∧ t.fld jc Fld.jctlOwner = owner.toNat ∧
        t.jState g.val p.val = jsLoading ∧ (t.core e).creg 2 = 0 ∧ (t.core e).run = false ∧
        ∀ a, a < 65536 → KV.get 0 t.st.jdata (n * 65536 + a) = KV.get 0 t.st.jstore (storeAddr g.val p.val y.bank true a) ∧
          KV.get 0 t.st.jcode (n * 65536 + a) = KV.get 0 t.st.jstore (storeAddr g.val p.val y.bank false a))) ∧
      (5 ≤ k → Answers (.positionRun r g p owner) s (fun t => t.flag jc Fld.jctlRun = true ∧ t.jState g.val p.val = s.jState g.val p.val ∧
        (t.pos g.val p.val).haltedAs = some jsLoading ∧ (t.pos g.val p.val).slim = 0))) ∧
    (may → good → was = true → Answers (.positionHalt r g p owner) s (fun t => t.flag jc Fld.jctlRun = false ∧
      t.jState g.val p.val = (if k < 5 then jsHalted else s.jState g.val p.val) ∧ (5 ≤ k → (t.pos g.val p.val).haltedAs = some jsHalted) ∧ (t.pos g.val p.val).running = false ∧ (t.pos g.val p.val).idle = true ∧ (k < 5 → (t.core e).run = false))) ∧
    (may → ¬ good → ∀ c ∈ both, exec c s = .next (s.log (gcUnit g.val) clsContained r.pid.toNat r.world jc.addr 0)) ∧
    (s.groupPasses r jc.addr true = true → s.groupAlive g.val = false → ∀ c ∈ both, exec c s = .next (s.loseStore r jc.addr)) ∧
    (s.jState g.val p.val = jsLoading → k < 5 → y.loaded s.mtime = true →
      (s.schedOk g.val p.val y.bank = false → Answers (.positionLoadDone g p) s (fun t => t.jState g.val p.val = jsRejected ∧ t.cores = s.cores)) ∧
      (s.schedOk g.val p.val y.bank = true → Answers (.positionLoadDone g p) s (fun t =>
        let z := t.pos g.val p.val
        t.jState g.val p.val = jsWaiting ∧ z.running = true ∧ z.started = false ∧ (t.core e).wait = some .wfi ∧ (t.core e).run = true ∧
        z.i < s.schCount g.val p.val y.bank ∧ s.mtime.toNat ≤ s.startTime g.val p.val y.bank z.n z.i ∧
        ∀ c i, i < s.schCount g.val p.val y.bank → c < z.n ∨ (c = z.n ∧ i < z.i) → s.startTime g.val p.val y.bank c i < s.mtime.toNat))) ∧
    (s.jState g.val p.val ≠ jsLoading ∨ y.loaded s.mtime = false → exec (.positionLoadDone g p) s = .next s) ∧
    (s.takeoverDue g.val p.val = true → exec (.slotStart g p) s = exec (.jugglerTakeover g p) s) ∧
    (s.takeoverDue g.val p.val = false → y.running = true → k < 5 → s.startTime g.val p.val y.bank start.1 start.2 ≤ s.mtime.toNat →
      (s.slotWaits g.val p.val = true → Answers (.slotStart g p) s (fun t => t.jState g.val p.val = jsInSlot ∧ t.fld (.jstat g.val p.val) Fld.jstatSlot = late.2 % 256 ∧
        (t.core e).wait = none ∧ (t.core e).pc = BitVec.ofNat 64 (s.schEntry g.val p.val y.bank late.2) ∧ (t.core e).greg 1 = BitVec.ofNat 64 late.2 ∧
        (t.core e).greg 2 = BitVec.ofNat 64 (s.startTime g.val p.val y.bank late.1 late.2) ∧ (t.core e).greg 3 = BitVec.ofNat 64 late.1 ∧
        (t.core e).greg 31 = 0x10000 ∧ (t.pos g.val p.val).idle = false)) ∧
      (s.slotWaits g.val p.val = false → Answers (.slotStart g p) s (fun t => t.cores = s.cores ∧ t.jState g.val p.val = s.jState g.val p.val ∧
        t.fld (.jstat g.val p.val) Fld.jstatOvr = (s.bump (.jstat g.val p.val) Fld.jstatOvr 1).fld (.jstat g.val p.val) Fld.jstatOvr))) ∧
    (s.takeoverDue g.val p.val = false → y.running = false ∨ 5 ≤ k ∨ s.mtime.toNat < s.startTime g.val p.val y.bank start.1 start.2 → exec (.slotStart g p) s = .next s)

/-- 11 R288, R292, R293, R303, R304.
Where the spec leaves a point open it states the model's own choice (log entries 76 and 175). -/
def Obligations.SparesJoinAndTakeOver : Prop :=
  ∀ (s : State) (r : Req) (g : Fin 32) (p : Fin 4) (k : Fin 5) (off : BitVec 15) (sz : ASize) (v : W64) (alt half : Bool) (w : BitVec 13) (why : JugFault),
    let pa := 0x0800018000 + g.val * 0x1000000 + off.toNat
    let jb := Reg.jwbank g.val
    let q := s.fld jb Fld.jwbankPos
    let open_ := s.flag jb Fld.jwbankAlt = true ∨ s.flag (.jctl g.val q) Fld.jctlRun = false
    let at_ := storeAddr g.val p.val ((s.pos g.val p.val).bank != alt) half (w.toNat * 8)
    let syn := (KV.get 0 s.st.jstoreSyn (at_ / 8)).toNat
    let old := s.server g.val p.val
    let new := s.spareJug g.val
    let y := s.pos g.val p.val
    let start := s.nextStart g.val p.val
    let late := s.latestStart g.val p.val y.bank s.mtime.toNat start
    let st := s.startTime g.val p.val y.bank late.1 late.2
    let due := s.joinEnded g.val p.val = true ∧ s.startTime g.val p.val y.bank start.1 start.2 ≤ s.mtime.toNat
    (s.groupPasses r pa true = true → s.groupAlive g.val = true →
      (r.pid = 255 → open_ → Answers (.positionStoreWrite r g off sz v) s (fun t => t.readWindow g.val off.toNat (bytesOf sz) = toBytes (bytesOf sz) v.toNat)) ∧
      (r.pid ≠ 255 ∨ ¬ open_ → exec (.positionStoreWrite r g off sz v) s = .next (s.log (gcUnit g.val) clsContained r.pid.toNat r.world pa 0))) ∧
    (∀ b, syndOf syn = .bit b → Answers (.positionStorePatrol g p alt half w) s (fun t => KV.get 0 t.st.jstoreSyn (at_ / 8) = 0 ∧
      KV.getAll 0 t.st.jstore at_ 8 = toBytes 8 (BitVec.ofNat 64 (ofBytes (KV.getAll 0 s.st.jstore at_ 8)) ^^^ BitVec.ofNat 64 (2 ^ b)).toNat)) ∧
    (syndOf syn = .bad → Answers (.positionStorePatrol g p alt half w) s (fun t => KV.get 0 t.st.jstoreSyn (at_ / 8) = 0x7F ∧ t.st.jstore = s.st.jstore)) ∧
    (syndOf syn = .good ∨ syndOf syn = .poison → exec (.positionStorePatrol g p alt half w) s = .next s) ∧
    (s.sstate g.val = 1 → new < 5 → old < 5 → s.lko.stopped = false → Answers (.spareJoin g p) s (fun t => t.sstate g.val = 2 ∧ t.spareJug g.val = new ∧
      t.fld (.jpos g.val) Fld.jposJoin = p.val ∧ t.scState (16 + g.val) = scJoining ∧ (t.pos g.val p.val).joinAt = some s.mtime ∧ t.server g.val p.val = old)) ∧
    (s.sstate g.val ≠ 1 ∨ 5 ≤ new ∨ 5 ≤ old ∨ s.lko.stopped = true → exec (.spareJoin g p) s = .next s) ∧
    (due → old < 5 → y.running = true → s.slotWaits g.val p.val = true →
      (y.joinAlt = none → s.lko.stopped = false → Answers (.jugglerTakeover g p) s (fun t => t.server g.val p.val = new ∧ t.spareJug g.val = old ∧ t.sstate g.val = 0 ∧
        t.scState (16 + g.val) = scTesting ∧ t.jState g.val p.val = jsInSlot ∧ (t.core (jugEng g.val new)).creg 2 = (s.core (jugEng g.val old)).creg 2 ∧
        (t.core (jugEng g.val new)).pc = BitVec.ofNat 64 (s.schEntry g.val p.val y.bank late.2) ∧ (t.pos g.val p.val).bank = y.bank)) ∧
      (∀ a, y.joinAlt = some a → a.toNat ≤ st → Answers (.jugglerTakeover g p) s (fun t => t.server g.val p.val = new ∧ t.spareJug g.val = old ∧
        t.sstate g.val = 1 ∧ (t.pos g.val p.val).bank = (!y.bank) ∧ (t.pos g.val p.val).joinAlt = none))) ∧
    (s.joinEnded g.val p.val = true → 5 ≤ old → ∀ x, y.haltedAs = some x → x < 8 → x ≠ jsLoading → Answers (.jugglerTakeover g p) s (fun t =>
      t.server g.val p.val = new ∧ t.sstate g.val = 3 ∧ t.scState (16 + g.val) = scNoSpare ∧ t.jState g.val p.val = x)) ∧
    (due → 5 ≤ old → y.haltedAs = none → (∀ f, y.faultAt = some f → f.toNat + 12500 < st) → Answers (.jugglerTakeover g p) s (fun t => t.server g.val p.val = new ∧
      t.sstate g.val = 3 ∧ t.scState (16 + g.val) = scNoSpare ∧ t.jState g.val p.val = jsInSlot ∧ (t.pos g.val p.val).running = true)) ∧
    (s.takeoverDue g.val p.val = false → exec (.jugglerTakeover g p) s = .next s) ∧
    (s.isRetired (16 + g.val) k.val = true → exec (.jugglerHardFault g k why) s = .next s) ∧
    (s.isRetired (16 + g.val) k.val = false → (List.range 4).find? (fun x => s.server g.val x == k.val) = some p.val →
      (new < 5 → s.sstate g.val ≤ 2 → Answers (.jugglerHardFault g k why) s (fun t => t.isRetired (16 + g.val) k.val = true ∧ t.server g.val p.val = 7 ∧
        t.jState g.val p.val = jsJoining ∧ (t.pos g.val p.val).running = false ∧ (t.pos g.val p.val).faultAt = (if y.running then some s.mtime else none) ∧
        (t.pos g.val p.val).haltedAs = (if y.running then none else some (s.jState g.val p.val)) ∧
        t.sstate g.val = 2 ∧ t.fld (.jpos g.val) Fld.jposJoin = p.val)) ∧
      (5 ≤ new ∨ 2 < s.sstate g.val → Answers (.jugglerHardFault g k why) s (fun t => t.isRetired (16 + g.val) k.val = true ∧ t.server g.val p.val = 7 ∧
        t.jState g.val p.val = jsNone ∧ (t.pos g.val p.val).idle = true))) ∧
    (s.isRetired (16 + g.val) k.val = false → (∀ x, x < 4 → s.server g.val x ≠ k.val) → new = k.val → Answers (.jugglerHardFault g k why) s (fun t =>
      t.isRetired (16 + g.val) k.val = true ∧ t.sstate g.val = 3 ∧ t.scState (16 + g.val) = scNoSpare))

/-- 11 R306-R310, R314; 13 R351; 14 R373.
Where the spec leaves a point open it states the model's own choice (log entries 73, 79 and 81). -/
def Obligations.QueuePairsMoveFrames : Prop :=
  ∀ (s : State) (r : Req) (g : Fin 32) (q : Fin 128) (v : W64) (tx : Bool),
    let qc := Reg.qpcfg g.val q.val
    let ix := qpIdx g.val q.val tx
    let unit := gcUnit g.val
    let pid := s.qpPid g.val q.val
    let w := s.pidWorld pid
    let win := s.qpWin g.val q.val
    let size := fun (n : Nat) => 4 ≤ n ∧ n ≤ 12
    let fine := pairOk v = true ∧ bitsOf v 31 24 ≠ 255 ∧ bitsOf v 22 16 = 0 ∧ bitsOf v 7 0 = 0 ∧ (bitOf v 23 = true → size (bitsOf v 15 12) ∧ size (bitsOf v 11 8))
      ∧ s.poolTakes (bitsOf v 31 24) (s.fld (.gcpoolq g.val q.val) Fld.gcpoolqPid) (s.flag (.gcpoolq g.val q.val) Fld.gcpoolqAny) = true
    let refusal := fun (a : Nat) => s.log unit clsContained r.pid.toNat r.world a 0
    let used := (bitsOf v 15 0 + 65536 - s.qpHead g.val q.val tx) % 65536
    let gr := s.group g.val
    let job := KV.get none gr.txJob q.val
    (s.groupPasses r qc.addr true = true → s.groupAlive g.val = true →
      (isHost r = true → fine → s.qpEn g.val q.val = false → Answers (.qpcfgWrite r g q v) s (fun t => t.rd qc = v ∧
        (bitOf v 23 = true → t.rd (.qprxt g.val q.val) = 0 ∧ t.rd (.qptxt g.val q.val) = 0))) ∧
      (isHost r = false ∨ ¬ fine → exec (.qpcfgWrite r g q v) s = .next (refusal qc.addr))) ∧
    (s.groupPasses r ix.addr true = true → s.groupAlive g.val = true →
      ((isHost r = true ∨ r.pid.toNat = pid) → used ≤ 2 ^ s.qpLog g.val q.val tx → Answers (.qpTailWrite r g q tx v) s (fun t => t.qpTail g.val q.val tx = bitsOf v 15 0 ∧
        t.qpHead g.val q.val tx = s.qpHead g.val q.val tx)) ∧
      (¬ (isHost r = true ∨ r.pid.toNat = pid) ∨ 2 ^ s.qpLog g.val q.val tx < used → exec (.qpTailWrite r g q tx v) s = .next (refusal ix.addr))) ∧
    (KV.get [] gr.rxJob q.val = [] → exec (.rxDescriptorWrite g q) s = .next s) ∧
    (∀ f rest, KV.get [] gr.rxJob q.val = f :: rest →
      (s.qpHead g.val q.val false = s.qpTail g.val q.val false → Answers (.rxDescriptorWrite g q) s (fun t => KV.get [] (t.group g.val).rxJob q.val = rest ∧ t.st = s.st ∧
        t.fld (.qpictl g.val q.val) Fld.qpictlDrop = (s.bump (.qpictl g.val q.val) Fld.qpictlDrop 1).fld (.qpictl g.val q.val) Fld.qpictlDrop)) ∧
      (let s0 := s.setGroup g.val { gr with rxJob := KV.set [] gr.rxJob q.val rest }
       let at_ := s.descAt g.val q.val false
       let d := s0.ioDescriptor unit pid w at_ 32
       let off := ofBytes (d.2.1.take 8)
       let room := ofBytes ((d.2.1.drop 8).take 2)
       let b := d.1.ioWriteN unit pid w (win.1 + off) (f.data.take (min room f.data.length))
       let c := b.1.ioWriteN unit pid w at_ (descBytes off (min room f.data.length) f.port (if room < f.data.length then 1 else f.status) f.id f.entry f.kind f.time)
       s.qpHead g.val q.val false ≠ s.qpTail g.val q.val false → d.2.2 = none → (d.2.1.getD 10 0).toNat % 2 = 1 → off + room ≤ win.2 → b.2 = none → c.2 = none →
       Answers (.rxDescriptorWrite g q) s (fun t => t.st = c.1.st ∧ t.qpHead g.val q.val false = (s.qpHead g.val q.val false + 1) % 65536 ∧
         t.flag (.qpictl g.val q.val) Fld.qpictlRxpend = true ∧ KV.get [] (t.group g.val).rxJob q.val = rest))) ∧
    (s.qpEn g.val q.val = false ∨ q.val ∈ gr.txHeld ∨ job ≠ none ∨ s.qpHead g.val q.val true = s.qpTail g.val q.val true → exec (.txDescriptorFetch g q) s = .next s) ∧
    (let d := s.ioDescriptor unit pid w (s.descAt g.val q.val true) 32
     let n16 := fun (o : Nat) => ofBytes ((d.2.1.drop o).take 2)
     let off := ofBytes (d.2.1.take 8)
     let m := d.1.ioReadN unit pid w (win.1 + off) (n16 8)
     s.qpEn g.val q.val = true → q.val ∉ gr.txHeld → job = none → s.qpHead g.val q.val true ≠ s.qpTail g.val q.val true → d.2.2 = none →
     (n16 10 % 2 = 0 → Answers (.txDescriptorFetch g q) s (fun t => q.val ∈ (t.group g.val).txHeld ∧ KV.get none (t.group g.val).txJob q.val = none ∧
       t.qpHead g.val q.val true = s.qpHead g.val q.val true)) ∧
     (n16 10 % 2 = 1 → off + n16 8 ≤ win.2 → m.2.2 = none →
     Answers (.txDescriptorFetch g q) s (fun t => ∃ x, KV.get none (t.group g.val).txJob q.val = some x ∧ x.frame.data = m.2.1 ∧ x.frame.port = n16 12 ∧ x.status = 0 ∧
       x.launch = BitVec.ofNat 64 (ofBytes (d.2.1.drop 24))))) ∧
    (job = none → exec (.txLaunch g q) s = .next s) ∧
    (∀ d, job = some d → d.status = 0 →
      (s.mtime.toNat < d.launch.toNat → exec (.txLaunch g q) s = .next s) ∧
      (d.launch.toNat ≤ s.mtime.toNat → d.frame.port = 0xFFFF → Answers (.txLaunch g q) s (fun t => (t.group g.val).accept = gr.accept ++
        [{ d.frame with port := 0x200 + q.val, time := s.mtime }] ∧ KV.get none (t.group g.val).txJob q.val = some { d with status := 0x100 })) ∧
      (d.launch.toNat ≤ s.mtime.toNat → d.frame.port ≠ 0xFFFF → (512 ≤ d.frame.port ∨ s.flag (.rtown g.val d.frame.port) Fld.rtownValid = false ∨
        s.fld (.rtown g.val d.frame.port) Fld.rtownPid ≠ pid) → Answers (.txLaunch g q) s (fun t => KV.get none (t.group g.val).txJob q.val = none ∧
          t.qpHead g.val q.val true = (s.qpHead g.val q.val true + 1) % 65536 ∧ t.flag (.qpictl g.val q.val) Fld.qpictlTxpend = true)))

/-- 12 R318-R340, Tables 2-4. The calibrated code of a conversion is the model's `adcCode` (19 R488).
Where the spec leaves a point open it states the model's own choice (log entries 41, 83, 85 and 177). -/
def Obligations.WordPortsReceiveAndTransmit : Prop :=
  ∀ (s : State) (p : PortId) (f : CanFrame) (data : List Byte) (status : BitVec 8) (on ok : Bool) (raw : BitVec 12),
    let n := p.code
    let x := s.port n
    let kind := s.ifc n
    let irq := Reg.pirq p.gg.val p.pp.val
    let per := Reg.perr p.gg.val p.pp.val
    let hears := s.portEn n = true ∧ x.up = true ∧ x.standby = false ∧ x.rxDrop = false
    let ends := fun (st : Nat) => rxWord 2 0 (endPayload st s.mtime)
    let failed := rxWord 4 0 (endPayload 7 s.mtime)
    let takes := fun (c : Instr) (ws : List W64) (st : Nat) => x.rx.length + ws.length ≤ 32 → Answers c s (fun t => (t.port n).rx = x.rx ++ ws ∧ t.st = s.st ∧
      (st ≠ 0 → t.flag irq Fld.pirqErr = true ∧ (t.port n).errF = true))
    let woken := fun (src : Nat) (u : State) => (u.port n).wakeF = true ∧ u.flag irq Fld.pirqWake = true ∧ u.st = s.st ∧ (src ≠ 3 → (u.port n).rx = x.rx)
    let wakes := fun (src : Nat) (c : Instr) => ∃ u, woken src u ∧ exec c s = .next (u.wakeEvent src n)
    let wakeen := s.flag (.pctrl p.gg.val p.pp.val) Fld.pctrlWakeen
    let sns := Reg.snscfg p.gg.val p.pp.val
    let fld := Reg.fldcfg p.gg.val p.pp.val
    let uart := s.fld (.sercfg p.gg.val p.pp.val) Fld.sercfgMode = 2
    let canRegs := Reg.canmode p.gg.val p.pp.val
    let sw := s.flag (.canswf p.gg.val p.pp.val) Fld.canswfEn
    let count := ofBytes x.partialRx
    let loop := s.flag (.pctrl p.gg.val p.pp.val) Fld.pctrlLoop
    (kind = 1 → hears → x.busOff = false →
      (s.canTakes n f = true → takes (.canFrameReceive p f) (canWords f s.mtime) f.status.toNat) ∧
      (s.canTakes n f = false → takes (.canFrameReceive p f) [ends 2] 2)) ∧
    (kind = 1 → s.portEn n = true →
      (x.busOff = false → Answers (.canBusOff p) s (fun t => let y := t.port n
        y.busOff = true ∧ y.up = false ∧ y.rx = x.rx ∧ t.flag irq Fld.pirqErr = true ∧ (y.integrating = true ↔ s.flag canRegs Fld.canmodeAutorec = true ∧ x.faulted = false))) ∧
      (∀ why, x.rxDrop = false → x.rx.length < 32 → Answers (.canTransceiverFault p why) s (fun t => let y := t.port n
        y.faulted = true ∧ y.tx = [] ∧ y.rx = x.rx ++ [failed] ∧ y.up = x.up ∧ t.flag irq Fld.pirqFault = true ∧
        t.fld per Fld.perrTxerr = (s.txErr n x.tx.length).fld per Fld.perrTxerr)) ∧
      (x.integrating = true → Answers (.busIntegration p) s (fun t => let y := t.port n
        y.integrating = false ∧ y.busOff = false ∧ y.up = (!x.testing) ∧ (x.busOff = true → y.tec = 0 ∧ y.rec_ = 0)))) ∧
    (kind = 1 → x.standby = true → wakeen = true →
      (sw = false → wakes 1 (.canSelectiveWake p f ok)) ∧
      (sw = true → f.fdf = false → f.xlf = false → s.wakeMatch n f = true → wakes 1 (.canSelectiveWake p f true)) ∧
      (sw = true → f.fdf = true ∨ f.xlf = true → exec (.canSelectiveWake p f ok) s = .next s) ∧
      (sw = true → f.fdf = false → f.xlf = false → 31 ≤ count → wakes 1 (.canSelectiveWake p f false)) ∧
      (sw = true → f.fdf = false → f.xlf = false → count < 31 → Answers (.canSelectiveWake p f false) s (fun t => ofBytes (t.port n).partialRx = count + 1 ∧
        (t.port n).wakeF = x.wakeF)) ∧
      (sw = true → f.fdf = false → f.xlf = false → count < 32 → s.wakeMatch n f = false → Answers (.canSelectiveWake p f true) s (fun t =>
        ofBytes (t.port n).partialRx = count - 1 ∧ (t.port n).wakeF = x.wakeF))) ∧
    (kind = 2 → hears →
      (∀ id, takes (.linFrameReceive p id on data status) ([rxWord 1 2 (linStart id.toNat data.length on)] ++ dataWords 4 data ++ [ends status.toNat]) status.toNat) ∧
      takes (.linResponseTimeout p) [ends 4] 4) ∧
    (kind = 2 → x.asleep = true → wakeen = true → ∀ us, (150 < us → wakes 2 (.linWake p us)) ∧ (us ≤ 150 → exec (.linWake p us) s = .next s)) ∧
    (kind = 6 → hears → ∀ (id : BitVec 8) (nibbles : BitVec 28) (tick : BitVec 10) (cal prev : Nat) (msg : BitVec 16),
      let want := 5 * s.fld sns Fld.snscfgTick
      let good := ok = true ∧ 3 * want ≤ 4 * tick.toNat ∧ 4 * tick.toNat ≤ 5 * want ∧ (prev = 0 ∨ (64 * prev ≤ 64 * cal + prev ∧ 64 * cal ≤ 64 * prev + prev))
      let c := fun (slow : Bool) => Instr.sentFrameReceive p slow on id nibbles tick cal prev ok msg
      (good → takes (c false) [rxWord 0 4 nibbles.toNat, ends 0] 0) ∧ (¬ good → takes (c false) [rxWord 0 4 nibbles.toNat, ends 1] 1) ∧
      (s.flag sns Fld.snscfgSlow = true → ok = true → takes (c true) [rxWord 3 4 (msg.toNat + id.toNat * 65536 + (if on then 2 else 1) * 16777216)] 0)) ∧
    (kind = 7 → hears → ∀ bits, let k := if s.flag sns Fld.snscfgSyncm then x.ifs.toNat + 1 else 0
      (k ≤ 4 → takes (.psi5FrameReceive p bits ok) [rxWord 0 4 (bits.toNat + k * 2 ^ 28), ends (if ok then 0 else 1)] (if ok then 0 else 1)) ∧
      (4 < k → takes (.psi5FrameReceive p bits ok) [ends 2] 2)) ∧
    (∀ w rest, kind = 7 → x.tx = w :: rest → x.sync = true → s.portEn n = true → (s.pos p.gg.val (p.pp.val / 4)).idle = false → bitsOf w 62 60 = 3 →
      (bitsOf w 47 0 = 0 ∨ bitsOf w 47 0 ≤ bitsOf s.mtime 47 0) → Answers (.psi5SyncPulse p) s (fun t => (t.port n).tx = rest ∧ (t.port n).ifs = 0 ∧ t.st = s.st)) ∧
    (kind = 6 ∨ kind = 7 →
      (x.supply = true → x.rxDrop = false → x.rx.length < 32 → ∀ c ∈ [Instr.sensorSupplyOvercurrent p, .sensorSupplyOutOfWindow p], Answers c s (fun t =>
        (t.port n).supply = false ∧ (t.port n).faulted = true ∧ (t.port n).rx = x.rx ++ [failed] ∧ t.flag irq Fld.pirqFault = true)) ∧
      (hears → takes (.sensorSilentTimeout p) [ends 4] 4)) ∧
    (kind = 8 → hears →
      (¬ uart → takes (.serialReceive p data true status) (dataWords (data.length + 1) data ++ [ends status.toNat]) status.toNat ∧
        takes (.serialReceive p data false status) (dataWords (data.length + 1) data) 0) ∧
      (uart → let all := x.partialRx ++ data
        let k := all.length / 7 * 7
        takes (.serialReceive p data on status) (dataWords (all.length + 1) (all.take k)) status.toNat ∧
        (x.partialRx ≠ [] → takes (.uartIdleTimeout p) (dataWords 2 x.partialRx) 0 ∧ Answers (.uartIdleTimeout p) s (fun t => (t.port n).partialRx = [])))) ∧
    (kind = 9 →
      let lv := on != s.flag fld Fld.fldcfgInv
      let mode := s.fld fld Fld.fldcfgMode
      let edge := s.fld fld Fld.fldcfgEdge
      (x.lands.getLsbD 1 = lv → exec (.fieldEdge p on) s = .next s) ∧
      (x.lands.getLsbD 1 ≠ lv → s.portEn n = true → mode = 1 ∨ mode = 6 → edge = 3 ∨ edge = (if lv then 1 else 2) → x.rxDrop = false → x.rx.length < 32 →
        let placed := fun (t : State) => (t.port n).rx = x.rx ++ [rxWord 3 7 (s.mtime.toNat % 2 ^ 48 + if lv then 2 ^ 48 else 0)] ∧ (t.port n).lands = (if lv then 3 else 0) ∧
          t.flag irq Fld.pirqEvt = true
        (wakeen = false → Answers (.fieldEdge p on) s placed) ∧ (wakeen = true → ∃ u, placed u ∧ woken 3 u ∧ exec (.fieldEdge p on) s = .next (u.wakeEvent 3 n))) ∧
      (mode = 2 ∨ mode = 3 → s.portEn n = true → Answers (.fieldOutputOvercurrent p) s (fun t => (t.port n).faulted = true ∧ t.flag irq Fld.pirqFault = true ∧ (t.port n).rx = x.rx)) ∧
      (∀ rest, (s.group p.gg.val).adcQ = p.pp.val :: rest → x.rxDrop = false → x.rx.length < 32 → Answers (.adcConversionDone p.gg raw) s (fun t =>
        let code := s.adcCode n raw.toNat
        (t.group p.gg.val).adcQ = rest ∧ (t.port n).rx = x.rx ++ [rxWord 0 2 code] ∧ t.flag irq Fld.pirqEvt = true ∧
        t.rd (.fldadc p.gg.val p.pp.val) = BitVec.ofNat 64 (s.mtime.toNat % 2 ^ 48 * 65536 + 32768 + code)))) ∧
    (wordIfc kind = true → s.sends n = true → loop = false → x.tx ≠ [] → kind ≠ 1 ∨ status = 0 ∨ status = 6 → Answers (.transmitFrameEnd p status) s (fun t => (t.port n).tx = afterFrame x.tx ∧ t.st = s.st ∧
      (status ≠ 0 → t.flag irq Fld.pirqErr = true) ∧
      (kind = 1 → bitOf x.ctl 33 = true → x.rxDrop = false → x.rx.length < 32 → (t.port n).rx = x.rx ++ [rxWord 3 0 (endPayload status.toNat s.mtime)])))

/-- 12 R315-R319, R331-R334, R341, R342. Transfers and inbound requests use the model's line-by-line accesses (`ioReadN`, `ioWriteN`).
Where the spec leaves a point open it states the model's own choice (log entries 27, 87 and 177). -/
def Obligations.PortsEnableAndDirectPortsMoveData : Prop :=
  ∀ (s : State) (r : Req) (p : PortId) (v : W64) (code : BitVec 8) (data frame : List Byte) (speed : BitVec 4) (vec : BitVec 6) (off : BitVec 40) (word : BitVec 32)
    (fcsOk secured secOk : Bool),
    let n := p.code
    let x := s.port n
    let kind := s.ifc n
    let ctl := Reg.pctrl p.gg.val p.pp.val
    let irq := Reg.pirq p.gg.val p.pp.val
    let per := Reg.perr p.gg.val p.pp.val
    let px := Reg.pxcmd p.gg.val p.pp.val
    let unit := phyUnit p.gg.val
    let gc := gcUnit p.gg.val
    let alive := s.groupAlive p.gg.val = true
    let mine := s.reachesPort r.pid.toNat n = true
    let direct := kind = 3 ∨ kind = 4 ∨ kind = 5
    let busy := s.flag px Fld.pxcmdBusy = true
    let goes := s.portEn n = true ∧ x.up = true ∧ s.alive (16 + p.gg.val) = true
    let role := s.flag (.pcicfg p.gg.val p.pp.val) Fld.pcicfgRole
    let pid := s.landPid n
    let world := s.pidWorld pid
    let ended := fun (c : Nat) (t : State) => t.flag px Fld.pxcmdBusy = false ∧ t.fld px Fld.pxcmdCode = c ∧ t.flag irq Fld.pirqEvt = true
    (s.groupPasses r ctl.addr true = true → alive → mine →
      (s.portEn n = false → Answers (.portEnable r p) s (fun t => let y := t.port n
        t.portEn n = true ∧ y.testing = true ∧ y.rx = [] ∧ y.tx = [] ∧ y.up = false ∧ y.tec = 0 ∧ y.rec_ = 0 ∧ y.busOff = false ∧ (y.integrating = true ↔ kind = 1))) ∧
      (s.portEn n = true → exec (.portEnable r p) s = .next s ∧ Answers (.portDisable r p) s (fun t => let y := t.port n
        t.portEn n = false ∧ y.testing = false ∧ y.rx = [] ∧ y.tx = [] ∧ y.up = false ∧
        t.fld per Fld.perrTxerr = (s.txErr n x.tx.length).fld per Fld.perrTxerr ∧ t.fld per Fld.perrRxerr = (s.rxErr n x.rx.length).fld per Fld.perrRxerr)) ∧
      Answers (.errclr r p) s (fun t => (t.port n).errF = false ∧ (t.port n).wakeF = false ∧ (t.port n).rx = x.rx)) ∧
    (s.groupPasses r ctl.addr true = true → alive → ¬ mine → ∀ c ∈ [Instr.portEnable r p, .portDisable r p, .errclr r p],
      exec c s = .next (s.log unit clsContained r.pid.toNat r.world ctl.addr 0)) ∧
    (x.testing = true →
      Answers (.portTestDone p true code) s (fun t => (t.port n).testing = false ∧ (t.port n).faulted = false ∧
        ((t.port n).up = true ↔ kind = 2 ∨ (6 ≤ kind ∧ kind ≤ 9) ∨ (kind = 1 ∧ x.integrating = false))) ∧
      Answers (.portTestDone p false code) s (fun t => (t.port n).testing = false ∧ (t.port n).faulted = true ∧ (t.port n).up = x.up ∧ t.flag irq Fld.pirqFault = true ∧
        (wordIfc kind = true → x.rxDrop = false → x.rx.length < 32 → (t.port n).rx = x.rx ++ [rxWord 4 0 (endPayload 7 s.mtime)]))) ∧
    (x.testing = false → exec (.portTestDone p true code) s = .next s) ∧
    (direct ∨ kind = 10 →
      (s.portEn n = true → x.testing = false → x.faulted = false → Answers (.linkUp p speed) s (fun t => (t.port n).up = true ∧ (t.port n).speed = speed.toNat)) ∧
      (x.up = true → Answers (.linkDown p) s (fun t => (t.port n).up = false ∧ (t.port n).errF = true ∧ t.flag irq Fld.pirqErr = true))) ∧
    (direct → s.portEn n = true → x.up = true →
      let trunkOk := kind ≠ 5 ∨ ((s.flag (.trkcfg p.gg.val p.pp.val) Fld.trkcfgMsecreq = true → secured = true) ∧ (secured = true → secOk = true))
      let good := fcsOk = true ∧ 64 ≤ frame.length ∧ frame.length ≤ 1522 ∧ s.macTakes n frame = true ∧ trunkOk
      let c := Instr.ethernetFrameReceive p frame fcsOk secured secOk
      (good → ¬ (kind = 5 ∧ etherKey frame = 0x88B5 * 65536) → Answers c s (fun t => (t.group p.gg.val).accept = (s.group p.gg.val).accept ++
        [⟨n, 5, etherKey (frame.take (frame.length - 4)), s.mtime, 0xFFFF, 0, frame.take (frame.length - 4)⟩] ∧ t.st = s.st)) ∧
      (¬ good → exec c s = .next (s.rxErr n 1))) ∧
    (direct → s.sends n = true → s.flag ctl Fld.pctrlLoop = false → ∀ g, x.nextFrame = some g → Answers (.transmitFrameEnd p 0) s (fun t => (t.port n).queue = x.queue.erase g ∧ t.st = s.st)) ∧
    (kind = 10 → s.groupPasses r px.addr true = true → alive → mine →
      (busy → exec (.pcieTransfer r p v) s = .next (s.log unit clsContained r.pid.toNat r.world px.addr 0)) ∧
      (¬ busy → bitOf v 31 = true → bitOf v 29 = false ∨ role = true →
        (goes → Answers (.pcieTransfer r p v) s (fun t => t.flag px Fld.pxcmdBusy = true ∧ t.fld px Fld.pxcmdCode = 0 ∧ t.fld px Fld.pxcmdLen = bitsOf v 23 0 ∧
          t.flag px Fld.pxcmdDir = bitOf v 30 ∧ (t.port n).syncs = [s.mtime])) ∧
        (¬ goes → Answers (.pcieTransfer r p v) s (ended 4)))) ∧
    (kind = 10 → s.groupPasses r (Reg.pcimsi p.gg.val p.pp.val).addr true = true → alive → mine → goes → role = false →
      exec (.pcimsi r p vec) s = .next (s.pcieOut n [BitVec.ofNat 8 vec.toNat])) ∧
    (busy →
      let pa := (s.rd (.pxlocal p.gg.val p.pp.val)).toNat
      let len := if s.flag px Fld.pxcmdCfg then 4 else s.fld px Fld.pxcmdLen
      let out := s.ioReadN gc pid world pa len
      let into := s.ioWriteN gc pid world pa (padTo len 0 data)
      (code ≠ 0 → Answers (.pcieTransferEnd p code data) s (fun t => ended code.toNat t ∧ t.st = s.st)) ∧
      (code = 0 → s.flag px Fld.pxcmdDir = true → Answers (.pcieTransferEnd p code data) s (fun t => t.st = out.1.st ∧
        (out.2.2 = none → ended 0 t ∧ t.vn.outbox = s.vn.outbox ++ [.pcie n out.2.1]) ∧ (out.2.2 ≠ none → ended 3 t))) ∧
      (code = 0 → s.flag px Fld.pxcmdDir = false → Answers (.pcieTransferEnd p code data) s (fun t => t.st = into.1.st ∧ ended (if into.2 = none then 0 else 3) t)) ∧
      (∀ at_ rest, x.syncs = at_ :: rest → (at_.toNat + 10000000 ≤ s.mtime.toNat → Answers (.pcieCompletionTimeout p) s (ended 2)) ∧
        (s.mtime.toNat < at_.toNat + 10000000 → exec (.pcieCompletionTimeout p) s = .next s))) ∧
    (¬ busy → exec (.pcieTransferEnd p code data) s = .next s) ∧
    (kind = 10 → goes →
      let size := 4096 * 2 ^ s.fld (.pciwin p.gg.val p.pp.val) Fld.pciwinSize
      let base := s.fld (.pciwin p.gg.val p.pp.val) Fld.pciwinBase * 4096
      (off.toNat + data.length ≤ size → base + size ≤ 0x80000000 →
        exec (.pcieInboundRequest p true true off data) s = .next (s.ioWriteN gc pid world (base + off.toNat) data).1 ∧
        (let got := s.ioReadN gc pid world (base + off.toNat) data.length
         got.2.2 = none → exec (.pcieInboundRequest p true false off data) s = .next (got.1.pcieOut n got.2.1))) ∧
      (∀ w, exec (.pcieInboundRequest p false w off data) s = .next s ∧ (size < off.toNat + data.length → exec (.pcieInboundRequest p true w off data) s = .next s)) ∧
      (role = true → s.alive (s.fld (.pcicfg p.gg.val p.pp.val) Fld.pcicfgIcl) = true → exec (.pcieDeviceInterrupt p 0xF000000000 word) s =
        .next (s.msgIrq ⟨BitVec.ofNat 8 pid, world, BitVec.ofNat 12 gc, none⟩ (s.fld (.pcicfg p.gg.val p.pp.val) Fld.pcicfgIcl) (word.toNat % 4096))) ∧
      (role = false → exec (.pcieDeviceInterrupt p 0xF000000000 word) s = .next s))

/-- 13 R343-R365. The outcome of an end-to-end check is the model's `e2eResult` (Table 3, R357).
Where the spec leaves a point open it states the model's own choice (log entries 20, 88, 89 and 156). -/
def Obligations.RouterMatchesAndForwards : Prop :=
  ∀ (s : State) (r : Req) (g dst src : Fin 32) (e : BitVec 12) (f : Frame) (rest : List Frame),
    let gr := s.group g.val
    let b := s.rtBank g.val
    let es := s.rtEntries g.val b
    let stat := Reg.rtstat g.val
    let counted := fun (gg : Nat) (fl : Field) (t : State) => t.fld (.rtcnt gg) fl = (s.bump (.rtcnt gg) fl 1).fld (.rtcnt gg) fl
    let sound := ∀ i ∈ es, s.rtPairs g.val b i = true
    let queued := fun (t : State) (q : Nat) => KV.get [] (t.group g.val).rxJob q
    let still := fun (t : State) => t.ports = s.ports ∧ t.st = s.st ∧ ∀ k, (t.group k).forwards = (s.group k).forwards
    let en := s.flag (.rtcfg g.val) Fld.rtcfgEn = true
    let c := Instr.frameMatch g
    (gr.accept = [] → exec c s = .next s) ∧
    (gr.accept = f :: rest → f.port < 512 →
      (¬ en → Answers c s (fun t => (t.group g.val).accept = rest ∧ counted g.val Fld.rtcntMiss t ∧ still t)) ∧
      (en → sound → (∀ i ∈ es, s.rtMatches g.val b i f = false) →
        let q := s.fld (.rtcfg g.val) Fld.rtcfgMissqp
        (s.flag (.rtcfg g.val) Fld.rtcfgMissdel = false → Answers c s (fun t => (t.group g.val).accept = rest ∧ counted g.val Fld.rtcntMiss t ∧ still t)) ∧
        (s.flag (.rtcfg g.val) Fld.rtcfgMissdel = true → s.qpEn g.val q = true → Answers c s (fun t => (t.group g.val).accept = rest ∧ counted g.val Fld.rtcntMiss t ∧
          queued t q = queued s q ++ [{ f with id := f.key, entry := 0xFFFF }] ∧ still t))) ∧
      (en → sound → ∀ i, es.find? (fun k => s.rtMatches g.val b k f) = some i →
        let x := fun (w hi lo : Nat) => s.rtf g.val b i w hi lo
        let hit := fun (t : State) => (t.group g.val).accept = rest ∧ t.fld (.rtehit g.val i) Fld.rtehitHits = (s.bump (.rtehit g.val i) Fld.rtehitHits 1).fld (.rtehit g.val i) Fld.rtehitHits
        let acts := fun (d f0 f1 m : Nat) => x 4 31 31 = d ∧ x 4 30 30 = f0 ∧ x 4 29 29 = f1 ∧ x 4 28 28 = m
        let port := x 5 31 23
        let seq := Reg.rteseq g.val i
        let res := s.e2eResult g.val b i f
        (x 6 31 30 = 0 →
          (acts 0 0 0 0 → Answers c s (fun t => hit t ∧ still t ∧ ∀ q, queued t q = queued s q)) ∧
          (acts 1 0 0 0 → s.qpEn g.val (x 4 27 21) = true → Answers c s (fun t => hit t ∧ still t ∧
            queued t (x 4 27 21) = queued s (x 4 27 21) ++ [{ f with id := f.key, entry := i, status := 0 }])) ∧
          (acts 0 0 0 1 → s.qpEn g.val (x 4 20 14) = true → Answers c s (fun t => hit t ∧ still t ∧
            queued t (x 4 20 14) = queued s (x 4 20 14) ++ [{ f with id := f.key, entry := i, status := 0 }])) ∧
          (acts 0 1 0 0 → port / 16 = g.val → directIfc (s.ifc port) = true → f.kind = 5 → (s.port port).queue.length < 16 → s.bufferUsed port + f.size ≤ s.bufferOf port →
            Answers c s (fun t => hit t ∧ (t.port port).queue = (s.port port).queue ++ [f])) ∧
          (acts 0 1 0 0 → port / 16 ≠ g.val → s.groupAlive (port / 16) = true → Answers c s (fun t => hit t ∧ t.ports = s.ports ∧
            (t.group (port / 16)).forwards = (s.group (port / 16)).forwards ++ [⟨g.val, port / 16, port, f, 0, 0⟩])) ∧
          (acts 0 1 0 0 → port / 16 ≠ g.val → s.groupAlive (port / 16) = false → Answers c s (fun t => hit t ∧ still t ∧ counted g.val Fld.rtcntAbsent t))) ∧
        (x 6 31 30 ≠ 0 → i < 4096 → res = 0 → Answers c s (fun t => hit t ∧ t.fld seq Fld.rteseqResult = 0 ∧ t.fld seq Fld.rteseqEstate = 1)) ∧
        (x 6 31 30 ≠ 0 → i < 4096 → res ≠ 0 → x 6 25 25 = 1 → x 4 28 28 = 0 → Answers c s (fun t => hit t ∧ still t ∧ (∀ q, queued t q = queued s q) ∧ t.fld seq Fld.rteseqResult = res ∧
          t.fld (.rtehit g.val i) Fld.rtehitFails = (s.bump (.rtehit g.val i) Fld.rtehitFails 1).fld (.rtehit g.val i) Fld.rtehitFails)))) ∧
    (let fw := (s.group dst.val).forwards
     (fw.find? (fun w => w.src == src.val) = none → exec (.frfwd src dst) s = .next s) ∧
     (∀ w, fw.find? (fun w => w.src == src.val) = some w → w.dst = dst.val → w.frame.port < 512 →
       (s.groupAlive dst.val = false → Answers (.frfwd src dst) s (fun t => (t.group dst.val).forwards = fw.erase w ∧ counted src.val Fld.rtcntAbsent t ∧ t.ports = s.ports)) ∧
       (s.groupAlive dst.val = true →
         (w.got = 0 → s.bitIn (.rtaccept dst.val) Fld.rtacceptAccept src.val = false → Answers (.frfwd src dst) s (fun t => (t.group dst.val).forwards = fw.erase w ∧
           counted dst.val Fld.rtcntDenied t ∧ t.ports = s.ports)) ∧
         (w.got ≠ 0 ∨ s.bitIn (.rtaccept dst.val) Fld.rtacceptAccept src.val = true →
           (w.got + 1 < w.frame.fragments → Answers (.frfwd src dst) s (fun t => t.ports = s.ports ∧
             (t.group dst.val).forwards.find? (fun w => w.src == src.val) = some { w with got := w.got + 1, at_ := if w.got = 0 then s.mtime else w.at_ })) ∧
           (w.frame.fragments ≤ w.got + 1 → directIfc (s.ifc w.port) = true → w.frame.kind = 5 → (s.port w.port).queue.length < 16 →
             s.bufferUsed w.port + w.frame.size ≤ s.bufferOf w.port → Answers (.frfwd src dst) s (fun t =>
               (t.port w.port).queue = (s.port w.port).queue ++ [w.frame] ∧ (t.group dst.val).forwards = fw.erase w))))) ∧
     (∀ w, fw.find? (fun w => w.src == src.val && w.got != 0) = some w → w.dst = dst.val → w.frame.port < 512 →
       (w.at_.toNat + 10000 ≤ s.mtime.toNat → Answers (.forwardReassemblyTimeout src dst) s (fun t => (t.group dst.val).forwards = fw.erase w ∧
         counted dst.val Fld.rtcntQdrop t ∧ t.ports = s.ports)) ∧
       (s.mtime.toNat < w.at_.toNat + 10000 → exec (.forwardReassemblyTimeout src dst) s = .next s))) ∧
    (∃ t, exec (.e2eTimeoutScan g) s = .next t ∧ ∀ i ∈ es, i < 4096 →
      let x := fun (w hi lo : Nat) => s.rtf g.val b i w hi lo
      let seq := Reg.rteseq g.val i
      let age := (s.mtime.toNat % 2 ^ 48 + 2 ^ 48 - s.fld seq Fld.rteseqLast) % 2 ^ 48
      if x 0 31 31 = 1 ∧ x 6 31 30 ≠ 0 ∧ x 6 23 16 ≠ 0 ∧ s.fld seq Fld.rteseqEstate = 1 ∧ x 6 23 16 * 1000000 ≤ age then
        t.fld seq Fld.rteseqEstate = 2 ∧ t.fld seq Fld.rteseqResult = 5
      else t.fld seq Fld.rteseqEstate = s.fld seq Fld.rteseqEstate ∧ t.fld seq Fld.rteseqResult = s.fld seq Fld.rteseqResult) ∧
    ((∀ k, ∀ i ∈ s.rtEntries g.val k, s.rtPairs g.val k i = true) → exec (.routerIntegrityScan g) s = .next s) ∧
    (∀ k, ∀ i ∈ s.rtEntries g.val k, s.rtPairs g.val k i = false → Answers (.routerIntegrityScan g) s (fun t => t.flag stat Fld.rtstatInteg = true)) ∧
    (s.groupPasses r (Reg.rtupdcmd g.val).addr true = true → s.groupAlive g.val = true →
      let w := fun (k : Nat) => s.fld (.rtupdw g.val k) Fld.rtupdwValue
      let taken := s.layCarries 5 0 = false ∧ s.flag stat Fld.rtstatUbusy = false
      let fresh := fun (t : State) => t.fld stat Fld.rtstatUcode = 0 ∧ t.rd (.rtehit g.val e.toNat) = 0 ∧ t.fld (.rteseq g.val e.toNat) Fld.rteseqEstate = 0 ∧ t.rtBank g.val = b
      let both := [Instr.routerEntryWrite r g e, .routerEntryInvalidate r g e]
      (isHost r = true →
        (taken → s.rtInvalid w = false → Answers (.routerEntryWrite r g e) s (fun t => fresh t ∧ ∀ k, k < 8 → t.rtWord g.val b e.toNat k = keyedPair (w k))) ∧
        (taken → s.rtInvalid w = true → Answers (.routerEntryWrite r g e) s (fun t => t.fld stat Fld.rtstatUcode = 2 ∧ ∀ k, t.rtWord g.val b e.toNat k = s.rtWord g.val b e.toNat k)) ∧
        (taken → Answers (.routerEntryInvalidate r g e) s (fun t => fresh t ∧ t.rtf g.val b e.toNat 0 31 31 = 0)) ∧
        (¬ taken → ∀ c ∈ both, Answers c s (fun t => t.fld stat Fld.rtstatUcode = 1 ∧ ∀ k, t.rtWord g.val b e.toNat k = s.rtWord g.val b e.toNat k))) ∧
      (isHost r = false → ∀ c ∈ both, exec c s = .next (s.log (0x300 + g.val * 8 + 5) clsContained r.pid.toNat r.world (Reg.rtupdcmd g.val).addr 0)))

/-- 14 R368-R372, R385, Table 3. A claim made at run time is the record with no image mark.
Where the spec leaves a point open it states the model's own choice (log entries 100, 101 and 103). -/
def Obligations.ServiceCommandsChangePartitions : Prop :=
  ∀ (s : State) (r : Req) (k : Fin 129),
    let arg := Reg.svarg k.val
    let p := s.fld arg Fld.svargPid
    let idx := s.fld arg Fld.svargIndex
    let c : Claim := ⟨s.fld arg Fld.svargClass, idx, s.fld arg Fld.svargCount, s.fld arg Fld.svargFeat * 256 + p, false, 33⟩
    let ent := Reg.ptent p
    let state := s.fld ent Fld.ptentState
    let part := s.lay.parts.find? (fun x => x.pid == p)
    let force := s.lay.created.find? (fun x => x.pid == p)
    let declared := p = 0 ∨ p = 255 ∨ state ≠ 0
    let range := c.cls = 1 ∨ c.cls = 2 ∨ c.cls = 3
    let ok := fun (t : State) => t.fld (.svres k.val) Fld.svresCode = 0 ∧ t.flag (.svres k.val) Fld.svresBusy = false
    let fails := fun (i : Instr) (code : Nat) => Answers i s (fun t => t.fld (.svres k.val) Fld.svresCode = code ∧ t.lay = s.lay ∧ t.rd ent = s.rd ent ∧ t.cores = s.cores)
    let rows : List (SvcCmd × (Req → SvcCall → Instr)) := [(.claim, .claim), (.release, .release), (.create, .create), (.start, .start),
      (.stop, .stop), (.destroy, .destroy), (.epreset, .epreset)]
    let all := [Instr.claim r ⟨k, []⟩, .release r ⟨k, []⟩, .create r ⟨k, []⟩, .start r ⟨k, []⟩, .stop r ⟨k, []⟩, .destroy r ⟨k, []⟩, .epreset r ⟨k, []⟩]
    (slotServes r k.val = false → ∀ i ∈ all, ∃ cmd, exec i s = .next (s.log 0x700 clsContained r.pid.toNat r.world (Reg.svcmd k.val).addr cmd)) ∧
    (slotServes r k.val = true → s.flag (.svres k.val) Fld.svresBusy = true → ∀ i ∈ all, exec i s = .next (s.reject r (.svcmd k.val))) ∧
    (∀ a ∈ rows, ∀ b ∈ rows, ∀ r2 k2, let first := decide (s.slotRank ⟨r, k, a.1⟩ < s.slotRank ⟨r2, k2, b.1⟩)
      s.slotRank ⟨r, k, a.1⟩ ≠ s.slotRank ⟨r2, k2, b.1⟩ → ∀ t, exec (if first then a.2 r ⟨k, []⟩ else b.2 r2 ⟨k2, []⟩) s = .next t →
        exec (a.2 r ⟨k, [⟨r2, k2, b.1⟩]⟩) s = exec (if first then b.2 r2 ⟨k2, []⟩ else a.2 r ⟨k, []⟩) t) ∧
    (slotServes r k.val = true → s.flag (.svres k.val) Fld.svresBusy = false → state = 4 → ∀ i ∈ all.take 6, fails i 1) ∧
    (slotServes r k.val = true → s.flag (.svres k.val) Fld.svresBusy = false → (0x1001 < idx ∨ (idx < 0x1000 ∧ idx % 256 = 255) → fails (.epreset r ⟨k, []⟩) 0x22) ∧
      (idx ≤ 0x1001 → idx % 256 ≠ 255 → Answers (.epreset r ⟨k, []⟩) s (fun t => ok t ∧ t.epoch idx = s.epoch idx + 1 ∧ (∀ e, e ≠ idx → t.epoch e = s.epoch e) ∧
        ∀ m, m < 1024 → s.mbFull m = true → if s.mbRep m = idx then t.mbFull m = false ∧ t.fld (.mbstat m) Fld.mbstatOutcome = 2 else t.rd (.mbstat m) = s.rd (.mbstat m)))) ∧
    (slotServes r k.val = true → s.flag (.svres k.val) Fld.svresBusy = false → state ≠ 4 →
      (¬ range ∨ c.count = 0 ∨ classSize c.cls < c.first + c.count → fails (.claim r ⟨k, []⟩) 0x22 ∧ fails (.release r ⟨k, []⟩) 0x22) ∧
      (range → c.count ≠ 0 → c.first + c.count ≤ classSize c.cls →
        (¬ declared → fails (.claim r ⟨k, []⟩) 0x20 ∧ fails (.release r ⟨k, []⟩) 0x20) ∧
        (declared →
          ((∀ x ∈ s.lay.claims, x.cls = c.cls → x.owner ≠ c.owner → x.first + x.count ≤ c.first ∨ c.first + c.count ≤ x.first) →
            Answers (.claim r ⟨k, []⟩) s (fun t => ok t ∧ t.lay.claims = s.lay.claims.filter (fun x => x != c) ++ [c])) ∧
          (∀ x ∈ s.lay.claims, x.cls = c.cls → x.owner ≠ c.owner → x.first < c.first + c.count → c.first < x.first + x.count → fails (.claim r ⟨k, []⟩) 0x11) ∧
          ((∃ i, i < c.count ∧ ∀ x ∈ s.lay.claims, x.image = true ∨ x.owner ≠ c.owner ∨ x.covers c.cls (c.first + i) = false) → fails (.release r ⟨k, []⟩) 0x23) ∧
          ((∀ i, i < c.count → ∃ x ∈ s.lay.claims, x.image = false ∧ x.owner = c.owner ∧ x.covers c.cls (c.first + i) = true) →
            (c.cls = 1 → (∃ i, i < c.count ∧ s.portEn (c.first + i) = true) → fails (.release r ⟨k, []⟩) 0x21) ∧
            (c.cls ≠ 1 ∨ (∀ i, i < c.count → s.portEn (c.first + i) = false) → Answers (.release r ⟨k, []⟩) s (fun t => ok t ∧
              (∀ x ∈ t.lay.claims, x.image = false → x.owner = c.owner → ∀ i, i < c.count → x.covers c.cls (c.first + i) = false) ∧
              (∀ x ∈ s.lay.claims, x.image = true ∨ x.cls ≠ c.cls ∨ x.owner ≠ c.owner → x ∈ t.lay.claims)))))) ∧
      (state = 0 → fails (.create r ⟨k, []⟩) 0x20 ∧ fails (.start r ⟨k, []⟩) 0x20 ∧ fails (.destroy r ⟨k, []⟩) 0x20) ∧
      (∀ x, part = some x → state ≠ 0 →
        (x.world = true → k.val < 128 → fails (.create r ⟨k, []⟩) 0x24) ∧
        (x.world = false ∨ k.val = 128 → state ≠ 1 → fails (.create r ⟨k, []⟩) 0x21) ∧
        (x.world = false ∨ k.val = 128 → state = 1 → Answers (.create r ⟨k, []⟩) s (fun t => ok t ∧ t.fld ent Fld.ptentState = 2 ∧ t.flag ent Fld.ptentWorld = x.world ∧
          x ∈ t.lay.created ∧ ∀ cc, cc < 16 → t.epoch (cc * 256 + p) = s.epoch (cc * 256 + p) + 1 ∧ t.rd (.dbcfg cc p) = (Reg.dbcfg cc p).reset))) ∧
      (state = 1 → fails (.start r ⟨k, []⟩) 0x21) ∧
      (∀ x, force = some x → state = 2 ∨ state = 3 →
        (128 ≤ idx ∨ x.mask.getLsbD idx = false → fails (.start r ⟨k, []⟩) 0x25) ∧
        (idx < 128 → x.mask.getLsbD idx = true → s.armedCore idx = true → fails (.start r ⟨k, []⟩) 0x11) ∧
        (idx < 128 → x.mask.getLsbD idx = true → s.armedCore idx = false → Answers (.start r ⟨k, []⟩) s (fun t => ok t ∧ t.inRunSet p idx = true ∧
          t.fld ent Fld.ptentState = 3 ∧ t.lay = s.lay ∧ ∀ l, l < 128 → l ≠ idx → t.inRunSet p l = s.inRunSet p l))) ∧
      (idx < 128 → bitsOf ((s.lc idx).creg 0x48) 7 0 = p → fails (.stop r ⟨k, []⟩) 0x21) ∧
      (128 ≤ idx ∨ (bitsOf ((s.lc idx).creg 0x48) 7 0 ≠ p ∧ s.inRunSet p idx = false) → fails (.stop r ⟨k, []⟩) 0x25) ∧
      (idx < 128 → bitsOf ((s.lc idx).creg 0x48) 7 0 ≠ p → s.inRunSet p idx = true → Answers (.stop r ⟨k, []⟩) s (fun t => ok t ∧ t.inRunSet p idx = false ∧ t.lay = s.lay ∧
        ((∀ l, l < 128 → l ≠ idx → s.inRunSet p l = false) → t.fld ent Fld.ptentState = 2) ∧
        ((∃ l, l < 128 ∧ l ≠ idx ∧ s.inRunSet p l = true) → t.fld ent Fld.ptentState = state))) ∧
      (state = 1 ∨ state = 3 → fails (.destroy r ⟨k, []⟩) 0x21) ∧
      (state = 2 → Answers (.destroy r ⟨k, []⟩) s (fun t => ok t ∧ t.fld ent Fld.ptentState = (if part.isSome then 1 else 0) ∧
        (∀ x ∈ t.lay.claims, x ∈ s.lay.claims ∧ (x.image = true ∨ x.owner % 256 ≠ p)) ∧ (∀ x ∈ s.lay.claims, x.image = true ∨ x.owner % 256 ≠ p → x ∈ t.lay.claims) ∧
        (∀ g j, g < 32 → j < 4 → s.fld (.jctl g j) Fld.jctlOwner % 256 = p → t.flag (.jctl g j) Fld.jctlRun = false) ∧
        (∀ g q, g < 32 → q < 128 → s.qpPid g q = p → t.qpEn g q = false ∧ t.qpPid g q = 0) ∧
        (∀ cc, cc < 16 → t.epoch (cc * 256 + p) = s.epoch (cc * 256 + p) + 1) ∧
        (∀ m, m < 1023 → (s.mbSep m < 0x1000 ∧ s.mbSep m % 256 = p) ∨ (s.mbRep m < 0x1000 ∧ s.mbRep m % 256 = p) → t.mbEn m = false))))

/-- 14 R375-R383. The answer of the last load of MBSEND and MBTAKE stands at the register's address, the model's choice (log entry 44).
Where the spec leaves a point open it states the model's own choice (log entry 44). -/
def Obligations.MailboxesSendAndTake : Prop :=
  ∀ (s : State) (r : Req) (m : Fin 1024) (c : Fin 16) (p : Fin 255) (v : W32),
    let stat := Reg.mbstat m.val
    let sep := s.mbSep m.val
    let rep := s.mbRep m.val
    let full := s.mbFull m.val = true
    let seq := (s.fld stat Fld.mbstatMseq + 1) % 65536
    let limit := if m.val = 1023 then 0 else s.fld (.mbsctl m.val) Fld.mbsctlMbto
    let away := s.powered (rep / 256) = false ∧ s.flag (.dbcfg (rep / 256) (rep % 256)) Fld.dbcfgWake = false
    let kept := fun (t : State) => t.rd stat = s.rd stat ∧ t.lay = s.lay ∧ t.trust = s.trust
    let returns := fun (code : Nat) => Answers (.mbsend r ⟨m, []⟩) s (fun t => t.rd (.mbsend m.val) = BitVec.ofNat 64 code ∧ kept t)
    let bell := fun (t : State) (e b : Nat) => if e = 0x1000 then t.trust.doorbell.getLsbD b = true else e < 0x1000 → t.bitIn (.dbbits (e / 256) (e % 256)) Fld.dbbitsBits b = true
    let rbit := s.fld (.mbbell m.val) Fld.mbbellRbit
    let sbit := s.fld (.mbbell m.val) Fld.mbbellSbit
    let timer := KV.get none s.lay.mbTimer m.val
    (s.poolAnswers = false → exec (.mbsend r ⟨m, []⟩) s = .next s ∧ exec (.mbtake r m) s = .next s) ∧
    (epPid sep ≠ some r.pid.toNat → exec (.mbsend r ⟨m, []⟩) s = .next s) ∧ (epPid rep ≠ some r.pid.toNat → exec (.mbtake r m) s = .next s) ∧
    (s.poolAnswers = true → epPid sep = some r.pid.toNat →
      (s.mbEn m.val = false → returns 2) ∧
      (s.mbEn m.val = true → full → returns 1) ∧
      (s.mbEn m.val = true → ¬ full →
        (rep = 0x1000 → s.trustAway = true → returns 4) ∧
        (rep < 0x1000 → away → returns 3) ∧
        ((rep = 0x1000 ∧ s.trustAway = false) ∨ (rep < 0x1000 ∧ ¬ away) → Answers (.mbsend r ⟨m, []⟩) s (fun t => t.mbFull m.val = true ∧
          t.fld stat Fld.mbstatMseq = seq ∧ t.fld stat Fld.mbstatOutcome = 0 ∧ KV.get 0 t.lay.sepoch m.val = s.epoch sep ∧
          KV.get none t.lay.mbTimer m.val = (if limit = 0 then none else some (s.mtime + BitVec.ofNat 64 (limit * 1000))) ∧ bell t rep rbit ∧
          t.rd (.mbsend m.val) = BitVec.ofNat 64 (seq * 2 ^ 48) ∧ t.st = s.st)))) ∧
    (s.poolAnswers = true → epPid rep = some r.pid.toNat → m.val ≠ 1023 →
      (¬ full → Answers (.mbtake r m) s (fun t => t.rd (.mbtake m.val) = 0 ∧ kept t)) ∧
      (full → Answers (.mbtake r m) s (fun t => t.mbFull m.val = false ∧ t.fld stat Fld.mbstatOutcome = 1 ∧ KV.get none t.lay.mbTimer m.val = none ∧
        (KV.get 0 s.lay.sepoch m.val = s.epoch sep → bell t sep sbit) ∧ (KV.get 0 s.lay.sepoch m.val ≠ s.epoch sep → t.trust = s.trust) ∧
        t.rd (.mbtake m.val) = BitVec.ofNat 64 (s.fld stat Fld.mbstatMseq * 2 ^ 48 + s.fld stat Fld.mbstatLen * 2 ^ 40 +
          (if KV.get 0 s.lay.sepoch m.val = s.epoch sep then 0 else 2) + 1) ∧ t.st = s.st))) ∧
    (∀ r2 k2, ∀ q ∈ [(MbMeet.take r2, Instr.mbtake r2 m), (.expiry, .mbtoExpiry m), (.reset ⟨r2, k2, .epreset⟩, .epreset r2 ⟨k2, []⟩),
      (.reset ⟨r2, k2, .destroy⟩, .destroy r2 ⟨k2, []⟩), (.reset ⟨r2, k2, .create⟩, .create r2 ⟨k2, []⟩)], ∀ t, exec q.2 s = .next t →
      exec (.mbsend r ⟨m, [q.1]⟩) s = exec (.mbsend r ⟨m, []⟩) t) ∧
    (∀ r2 t, meetRank (.send r2) ≠ meetRank (.send r) →
      exec (.mbsend (if meetRank (.send r2) < meetRank (.send r) then r2 else r) ⟨m, []⟩) s = .next t →
      exec (.mbsend r ⟨m, [.send r2]⟩) s = exec (.mbsend (if meetRank (.send r2) < meetRank (.send r) then r else r2) ⟨m, []⟩) t) ∧
    (timer = none ∨ ¬ full → exec (.mbtoExpiry m) s = .next s) ∧
    (∀ at_, timer = some at_ → full → (s.mtime < at_ → exec (.mbtoExpiry m) s = .next s) ∧
      (at_ ≤ s.mtime → Answers (.mbtoExpiry m) s (fun t => t.mbFull m.val = false ∧ t.fld stat Fld.mbstatOutcome = 3 ∧ KV.get none t.lay.mbTimer m.val = none ∧
        (KV.get 0 s.lay.sepoch m.val = s.epoch sep → bell t sep sbit) ∧ t.st = s.st))) ∧
    (isHost r = true → Answers (.dbring r c p v) s (fun t => t.fld (.dbbits c.val p.val) Fld.dbbitsBits =
      Nat.lor (s.fld (.dbbits c.val p.val) Fld.dbbitsBits) v.toNat ∧ t.cores = s.cores ∧ t.st = s.st)) ∧
    (isHost r = false → exec (.dbring r c p v) s = .next (s.log (0x10F + c.val * 16) clsContained r.pid.toNat r.world (Reg.dbring c.val p.val).addr 0))

/-- 15 R387-R393, R402, R403, Tables 1-6. Arguments and results of the services, and the crypto engines, are the model's opaque functions
(log entry 20); bytes and key values are free values (log entry 9).
Where the spec leaves a point open it states the model's own choice (log entries 9, 20, 105, 106, 107, 108, 109 and 110). -/
def Obligations.TrustServicesAnswer : Prop :=
  ∀ (s : State) (k : Fin 511) (n : Fin 16),
    let u := s.trustTook k.val
    let call := fun (svc : Nat) => s.trustCall k.val svc
    let pid := (call 0).pid
    let serves := fun (svc : Nat) => s.trustServes k.val svc
    let replied := fun (i : Instr) (svc status : Nat) (results : List Byte) => Answers i s (AnsweredWith s (call svc) status results)
    let key := fun (svc : Nat) => KV.get none u.trust.keys (call svc).args.handle
    let res := Config.trustResults
    let keyed := [(Instr.seal k, 5, 0, [0]), (.openSvc k, 6, 0, [0]), (.sign k, 7, 1, [1, 2, 4]), (.decaps k, 9, 3, [3])]
    let free := fun (h : Nat) => h < 512 ∧ KV.get none u.trust.keys h = none
    let all := [(Instr.info k, 1), (.random k, 2), (.hash k, 3), (.keygen k, 4), (.seal k, 5), (.openSvc k, 6), (.sign k, 7), (.verify k, 8), (.decaps k, 9),
      (.keydel k, 10), (.handover k, 11)]
    (s.trustUp = false ∨ s.trustAway = true → ∀ c ∈ all, exec c.1 s = .next s) ∧
    (∀ c ∈ all, serves c.2 → (call c.2).args.ok = false → replied c.1 c.2 2 []) ∧
    (serves 1 → (call 1).args.ok = true → replied (.info k) 1 0 (res 1 [s.fld .tsstat Fld.tsstatEpoch, s.lifeCycle, s.otp.counter] [])) ∧
    (serves 2 → (call 2).args.ok = true → let len := (call 2).args.count
      (1 ≤ len → len ≤ 160 → s.trust.trngOk = true → Answers (.random k) s (fun t => ∃ bs, bs.length = len ∧ AnsweredWith s (call 2) 0 (res 2 [] bs) t)) ∧
      (len = 0 ∨ 160 < len ∨ s.trust.trngOk = false → replied (.random k) 2 2 [])) ∧
    (serves 3 → (call 3).args.ok = true → (call 3).args.alg ≤ 5 → (call 3).args.a.2 ≤ 0x1000000 →
      ∀ b, u.callBufs (call 3) [(call 3).args.a] [] = some b → replied (.hash k) 3 0 (res 3 [] (Config.digest (call 3).args.alg (b.2.headD [])))) ∧
    (serves 4 → (call 4).args.ok = true → (call 4).args.alg ≤ 4 → s.trust.trngOk = true →
      ((∃ h, free h) → Answers (.keygen k) s (fun t => ∃ h v, free h ∧ KV.get none t.trust.keys h = some ⟨(call 4).args.alg, (call 4).args.usage.toNat, pid, v⟩ ∧
        AnsweredWith s (call 4) 0 (res 4 [h] (if (call 4).args.alg = 0 then [] else Config.publicKey (call 4).args.alg v)) t)) ∧
      ((∀ h, ¬ free h) → replied (.keygen k) 4 7 [])) ∧
    (∀ c ∈ keyed, serves c.2.1 → (call c.2.1).args.ok = true →
      (key c.2.1 = none → replied c.1 c.2.1 3 []) ∧
      (∀ x, key c.2.1 = some x → (x.owner ≠ pid ∨ x.usage.testBit c.2.2.1 = false → replied c.1 c.2.1 1 []) ∧
        (x.owner = pid → x.usage.testBit c.2.2.1 = true → c.2.2.2.contains x.alg = false → replied c.1 c.2.1 2 []))) ∧
    (serves 5 → (call 5).args.ok = true → (call 5).args.b.2 = (call 5).args.c.2 → ∀ x b, key 5 = some x → x.owner = pid → x.usage.testBit 0 = true → x.alg = 0 →
      u.callBufs (call 5) [(call 5).args.a, (call 5).args.b] [(call 5).args.c] = some b →
      let y := Config.gcmSeal x.value (call 5).args.nonce (b.2.getD 0 []) (b.2.getD 1 [])
      Answers (.seal k) s (fun t => AnsweredWith s (call 5) 0 (res 5 [] y.2) t ∧ t.st.main = (b.1.bufWrite (call 5) (call 5).args.c y.1).st.main)) ∧
    (serves 6 → (call 6).args.ok = true → (call 6).args.b.2 = (call 6).args.c.2 → ∀ x b, key 6 = some x → x.owner = pid → x.usage.testBit 0 = true → x.alg = 0 →
      u.callBufs (call 6) [(call 6).args.a, (call 6).args.b] [(call 6).args.c] = some b →
      let y := Config.gcmOpen x.value (call 6).args.nonce (b.2.getD 0 []) (b.2.getD 1 []) (call 6).args.tag
      let out := y.getD (List.replicate (call 6).args.c.2 0)
      Answers (.openSvc k) s (fun t => AnsweredWith s (call 6) (if y.isSome then 0 else 6) [] t ∧ t.st.main = (b.1.bufWrite (call 6) (call 6).args.c out).st.main)) ∧
    (serves 7 → (call 7).args.ok = true → ∀ x b, key 7 = some x → x.owner = pid → x.usage.testBit 1 = true → x.alg = 1 ∨ x.alg = 2 ∨ x.alg = 4 →
      u.callBufs (call 7) [(call 7).args.a] [] = some b → Answers (.sign k) s (fun t => ∃ v, AnsweredWith s (call 7) 0 (res 7 [] (Config.signature x.alg x.value (b.2.headD []) v)) t)) ∧
    (serves 8 → (call 8).args.ok = true → (call 8).args.pub = true → (call 8).args.alg = 1 ∨ (call 8).args.alg = 2 ∨ (call 8).args.alg = 4 →
      (∀ b, u.callBufs (call 8) [(call 8).args.a, (call 8).args.b, (call 8).args.c] [] = some b →
        replied (.verify k) 8 (if Config.verifies (call 8).args.alg (b.2.getD 2 []) (b.2.getD 0 []) (b.2.getD 1 []) then 0 else 6) []) ∧
      ([(call 8).args.a, (call 8).args.b, (call 8).args.c].all (u.bufFits k.val) = true → [(call 8).args.a, (call 8).args.b, (call 8).args.c].all (u.bufAllowed (call 8) false) = false →
        replied (.verify k) 8 4 [])) ∧
    (serves 9 → (call 9).args.ok = true → ∀ x b, key 9 = some x → x.owner = pid → x.usage.testBit 3 = true → x.alg = 3 →
      u.callBufs (call 9) [(call 9).args.a] [] = some b →
      (Config.decapsulate x.value (b.2.headD []) = none → replied (.decaps k) 9 6 []) ∧
      (∀ v, Config.decapsulate x.value (b.2.headD []) = some v → (∃ h, free h) → Answers (.decaps k) s (fun t => ∃ h, free h ∧
        KV.get none t.trust.keys h = some ⟨0, Config.sharedUsage.toNat, pid, v⟩ ∧ AnsweredWith s (call 9) 0 (res 9 [h] []) t))) ∧
    (serves 10 → (call 10).args.ok = true →
      (key 10 = none → replied (.keydel k) 10 3 []) ∧
      (∀ x, key 10 = some x → (x.owner ≠ pid → replied (.keydel k) 10 1 []) ∧
        (x.owner = pid → Answers (.keydel k) s (fun t => AnsweredWith s (call 10) 0 [] t ∧ KV.get none t.trust.keys (call 10).args.handle = none)))) ∧
    (serves 11 → (call 11).args.ok = true →
      let a := (call 11).args
      let old := u.ownerOf a.kind a.block
      let may := (pid = 0 ∧ old.2 = false) ∨ pid = old.1
      let fine := blockOk a.kind a.block = true ∧ (a.kind = 1 → a.toClass ≤ 62 ∧ u.member [] 0 a.toPid.toNat a.toClass = true)
      let busy := u.inHandover a.kind a.block = true ∨ (a.kind = 5 ∧ u.inAnyRunSet a.block = true) ∨ (∀ i, i < 16 → u.hoState i ≠ 0)
      (¬ fine → replied (.handover k) 11 2 []) ∧ (fine → ¬ may → replied (.handover k) 11 1 []) ∧ (fine → may → busy → replied (.handover k) 11 5 []) ∧
      (fine → may → ¬ busy → Answers (.handover k) s (fun t => t.mbFull (2 * k.val) = false ∧ ∃ i, i < 16 ∧ u.hoState i = 0 ∧
        t.hoKind i = a.kind ∧ t.hoBlock i = a.block ∧ t.hoState i = (if a.kind = 1 then 1 else 2) ∧ t.fld (.horec i) Fld.horecTopid = a.toPid.toNat ∧
        t.flag (.horec i) Fld.horecToworld = a.toWorld ∧ t.fld (.horec i) Fld.horecFrompid = old.1 % 256 ∧
        (a.kind = 1 → t.flag (.fwstat 0) Fld.fwstatPend = true) ∧ (a.kind = 2 → t.portEn a.block = false ∧ t.claimOwner 1 a.block = none) ∧
        (a.kind = 4 → t.rd (.qpcfg (a.block / 128) (a.block % 128)) = (Reg.qpcfg (a.block / 128) (a.block % 128)).reset) ∧
        (a.kind = 5 → (t.lc a.block).g = [] ∧ (t.lc a.block).f = [] ∧ ∀ x, x / 65536 = a.block → KV.get 0 t.st.lmem x = 0) ∧
        (a.kind = 6 → t.mbFull a.block = false ∧ t.rd (.mbcfg a.block) = (Reg.mbcfg a.block).reset)))) ∧
    (∀ h, s.trust.hands.find? (fun x => x.n == n.val) = some h → s.trustUp = true → s.trustAway = false →
      let kind := s.hoKind n.val
      let block := s.hoBlock n.val
      let new := s.fld (.horec n.val) Fld.horecTopid
      let world := s.flag (.horec n.val) Fld.horecToworld
      let closed := fun (t : State) => t.ownerOf kind block = (new, world) ∧ t.rd (.horec n.val) = 0 ∧ ∀ x ∈ t.trust.hands, x.n ≠ n.val
      (s.hoState n.val = 2 → h.pair < 511 → s.mbFull (2 * h.pair + 1) = false →
        (kind = 2 → s.claimOwner 1 block = none → Answers (.handoverGrant n) s (fun t => closed t ∧ ∃ o, t.claimOwner 1 block = some o ∧ o % 256 = new)) ∧
        (kind = 3 → Answers (.handoverGrant n) s (fun t => closed t ∧ t.fld (.jctl (block / 4) (block % 4)) Fld.jctlOwner % 256 = new)) ∧
        (kind = 4 → Answers (.handoverGrant n) s (fun t => closed t ∧ t.qpPid (block / 128) (block % 128) = new)) ∧
        (kind = 5 → s.windowOf block < 8 → Answers (.handoverGrant n) s (fun t => closed t ∧ t.bitIn (.clworld (s.lc block).cluster) Fld.clworldTcore (s.windowOf block) = world)) ∧
        (kind = 6 → Answers (.handoverGrant n) s closed)) ∧
      (kind = 1 → s.hoState n.val = 1 → s.fwSettled = true → s.regionClass block = 63 → Answers (.handoverGrant n) s (fun t => t.hoState n.val = 3 ∧
        t.flag (.fwstat 0) Fld.fwstatPend = true)) ∧
      (kind = 1 → s.hoState n.val = 1 → s.fwSettled = false ∨ s.regionClass block ≠ 63 → exec (.handoverGrant n) s = .next s) ∧
      (kind = 1 → s.hoState n.val = 3 → s.fwSettled = true → s.regionClass block = h.cls → h.pair < 511 → s.mbFull (2 * h.pair + 1) = false → Answers (.handoverGrant n) s closed)) ∧
    (s.trust.hands.find? (fun x => x.n == n.val) = none → exec (.handoverGrant n) s = .next s) ∧
    exec .trngHealthFail s = .next ({ s with trust := { s.trust with trngOk := false } }.logEvent 0x700 clsContained 0 0) ∧
    exec .trngHealthRecovered s = .next { s with trust := { s.trust with trngOk := true } }

/-- 15 R396-R400, R408, R409. While LOOKOUT_OK has stopped Lookout nothing is declared (16 R429).
Where the spec leaves a point open it states the model's own choice (log entries 60, 111, 112 and 116). -/
def Obligations.FirebreaksSwitchAndTheTrustCoreRestarts : Prop :=
  ∀ (s : State) (r : Req) (u : Fin 40) (all : Bool) (a : Fin 48) (v : W64),
    let stat := Reg.fwstat u.val
    let code := fun (t : State) => t.fld stat Fld.fwstatCode
    let trusted := r.pid = 255 ∧ r.world = true
    let tables := fun (t : State) (h : Nat) => ∀ x ∈ fwTable h, t.rd x = s.rd x
    let pend := KV.get none s.fw.applyAt u.val
    let ts := s.fld .tsstat Fld.tsstatState
    let dead := s.trustUp = true ∧ s.lko.stopped = false ∧ (s.core .trust).halted = false ∧
      (s.lko.trustBeat.toNat + 10000000 ≤ s.mtime.toNat ∨ (s.core .trust).run = false)
    let restarting := fun (t : State) => t.fld .tsstat Fld.tsstatState = 2 ∧ t.fld .tsstat Fld.tsstatEpoch = (s.bump .tsstat Fld.tsstatEpoch 1).fld .tsstat Fld.tsstatEpoch ∧
      t.epoch epTrust = s.epoch epTrust + 1 ∧ t.fw.staged = [] ∧ t.st.sram = [] ∧ t.trust.startedAt = s.mtime ∧ (t.core .trust).run = false
    let late := s.trust.startedAt.toNat + 200000000 ≤ s.mtime.toNat
    let fails := (s.trust.restarts.filter (fun x => s.mtime.toNat ≤ x.toNat + 60000000000)).length + 1
    let refusal := s.log (fwUnitId u.val) clsContained r.pid.toNat r.world (Reg.fwcmd u.val).addr 0
    (¬ trusted → exec (.apply r u all) s = .next refusal ∧ exec (.discard r u all) s = .next refusal) ∧
    (trusted → (u.val = 0 ∧ all = true) ∨ (8 ≤ u.val ∧ all = false) →
      (s.trustDown = true → Answers (.apply r u all) s (fun t => code t = 2 ∧ t.fw = s.fw)) ∧
      (s.trustDown = false → s.flag stat Fld.fwstatPend = true → Answers (.apply r u all) s (fun t => code t = 3 ∧ t.fw = s.fw)) ∧
      (s.trustDown = false → s.flag stat Fld.fwstatPend = false → Answers (.apply r u all) s (fun t => t.flag stat Fld.fwstatPend = true ∧
        KV.get none t.fw.applyAt u.val = some s.mtime ∧ t.fw.staged = s.fw.staged ∧ tables t u.val))) ∧
    (trusted → ¬ ((u.val = 0 ∧ all = true) ∨ (8 ≤ u.val ∧ all = false)) → exec (.apply r u all) s = .next (s.reject r (.fwcmd u.val))) ∧
    (trusted → all = false → Answers (.discard r u all) s (fun t => code t = 0 ∧ (∀ x ∈ fwTable u.val, t.stagedAt x = s.rd x) ∧ tables t u.val)) ∧
    (trusted → all = true → u.val = 0 → Answers (.discard r u all) s (fun t => code t = 0 ∧ ∀ h, h < 8 → (∀ x ∈ fwTable h, t.stagedAt x = s.rd x) ∧ tables t h)) ∧
    (pend = none → exec (.firebreakSwitch u) s = .next s) ∧
    (∀ at_, pend = some at_ → u.val = 0 ∨ 8 ≤ u.val →
      (s.mtime.toNat < at_.toNat + 1000 → exec (.firebreakSwitch u) s = .next s) ∧
      (at_.toNat + 1000 ≤ s.mtime.toNat →
        (u.val ≠ 0 → Answers (.firebreakSwitch u) s (fun t => code t = 0 ∧ t.flag stat Fld.fwstatPend = false ∧ ∀ x ∈ fwTable u.val, t.rd x = s.stagedAt x ∧ t.stagedAt x = s.stagedAt x)) ∧
        (u.val = 0 → (∀ h, h < 8 → s.stagedCrc h = s.stagedCrc 0) → Answers (.firebreakSwitch u) s (fun t => code t = 0 ∧ t.flag stat Fld.fwstatPend = false ∧
          ∀ h, h < 8 → ∀ x ∈ fwTable h, t.rd x = s.stagedAt x)) ∧
        (u.val = 0 → (∃ h, h < 8 ∧ s.stagedCrc h ≠ s.stagedCrc 0) → Answers (.firebreakSwitch u) s (fun t => code t = 1 ∧ t.flag stat Fld.fwstatPend = false ∧
          ∀ h, h < 8 → tables t h)))) ∧
    (let old := KV.get ([], 0) s.fw.old u.val
     (s.mtime.toNat < old.2.toNat + 2000 → exec (.firebreakGraceEnd u) s = .next s) ∧
     (old.2.toNat + 2000 ≤ s.mtime.toNat → Answers (.firebreakGraceEnd u) s (fun t => (KV.get ([], 0) t.fw.old u.val).1 = [] ∧ t.regs = s.regs))) ∧
    (s.alive a.val = true → Answers (.verdictCopyCheck a true) s (fun t => a.val ∈ t.fw.reload ∧ t.st = s.st)) ∧
    exec (.verdictCopyCheck a false) s = .next s ∧
    Answers (.verdictCopyReloadDone a) s (fun t => a.val ∉ t.fw.reload ∧ t.regs = s.regs ∧ t.st = s.st) ∧
    (r.pid = 255 → exec (.lkobeat r v) s = .next { s with lko := { s.lko with trustBeat := s.mtime } }) ∧
    (r.pid = 0 → Answers (.lkobeat r v) s (fun t => (s.lko.hBeat ≠ none → t.lko.hBeat = some s.mtime) ∧ t.lko.trustBeat = s.lko.trustBeat)) ∧
    (isHost r = false → exec (.lkobeat r v) s = .next (s.log 0x710 clsContained r.pid.toNat r.world Reg.lkobeat.addr 0)) ∧
    (dead → Answers .trustCoreDown s restarting) ∧ (¬ dead → exec .trustCoreDown s = .next s) ∧
    (ts = 2 → Answers .trustCoreRunning s (fun t => t.fld .tsstat Fld.tsstatState = 1 ∧ (t.core .trust).run = true ∧ t.st.sram = [] ∧ t.lko.trustBeat = s.mtime)) ∧
    (ts ≠ 2 → exec .trustCoreRunning s = .next s) ∧
    (ts = 0 ∨ ts = 2 → s.clk.started = true → s.lko.stopped = false → late →
      (3 ≤ fails → Answers .trustCoreRestartFail s (fun t => t.fld .tsstat Fld.tsstatState = 3 ∧ t.st = s.st)) ∧
      (fails < 3 → Answers .trustCoreRestartFail s restarting)) ∧
    (¬ late → exec .trustCoreRestartFail s = .next s)

/-- 15 R406, R407; 16 R413-R429, Tables 3, 4 and 7; 19 R479. The confirmed state of a pair is the model's present group boundary (log entry 50).
Where the spec leaves a point open it states the model's own choice (log entries 50, 61, 117, 119, 121, 131 and 180). -/
def Obligations.FaultsRecoverTheCarouselTurns : Prop :=
  ∀ (s : State) (r : Req) (l : Fin 128) (n : Scope) (h : Fin 8) (thermal ok : Bool) (mask : BitVec 61),
    let k := s.lc l.val
    let c := k.cluster
    let spare := s.spareOf c
    let noted := fun (t : State) (kind : Nat) => t.rd (.lkorec l.val) = BitVec.ofNat 64 (2 ^ 63 + kind * 2 ^ 48 + s.mtime.toNat % 2 ^ 48)
    let gone := fun (kind : Nat) (t : State) => noted t kind ∧ (t.lc l.val).duty = .lost ∧ (t.lc l.val).run = false ∧ t.st = s.st
    let recent := (k.rollbacks.filter (fun x => s.mtime.toNat < x + 1000000000)).length + 1
    let soon := ∃ x xs, k.rollbacks = x :: xs ∧ s.mtime.toNat < x + 3000
    let placed := k.place.isSome = true ∧ c < 16 ∧ k.lead < 9 ∧ ∀ m, k.mate = some m → m < 9
    let none_ := fun (t : State) => t.scState c = scNoSpare ∧ t.spareOf c = 0xF
    let bad := fun (leading : Bool) => if leading then k.lead else k.mate.getD 0
    let good := fun (leading : Bool) => if leading then k.mate.getD 0 else k.lead
    let votes := placed ∧ k.pausing = true ∧ k.duty = .pair
    let resumed := fun (t : State) => (t.lc l.val).pausing = false ∧ (t.lc l.val).recovery = true ∧ (t.lc l.val).g = k.g ∧ (t.lc l.val).pc = k.pc
    let x := s.spareOf n.val
    let calm := if s.car.hold.contains n.val then scHeld else scReady
    let rotates := s.carReady n.val = true
    let due := s.bitIn .carctl Fld.carctlKinds (scopeKind n.val) = true ∧
      (KV.get 0 s.car.swapAt n.val).toNat + s.fld (.carper (scopeKind n.val)) Fld.carperPeriod * 1000000000 ≤ s.mtime.toNat
    let goes := fun (i : Instr) => ∀ y, s.longest n.val = some y →
      (n.val < 16 → (∀ m, m < 128 → s.hosts n.val m = true → (s.lc m).duty ≠ .degraded) → Answers i s (fun t => t.scState n.val = scWaiting ∧
        KV.get none t.car.swapping n.val = some y ∧ t.cores = s.cores)) ∧
      (n.val = 48 ∨ n.val = 49 → s.steer (n.val - 48) Fld.spsteerState = 0 → Answers i s (fun t => t.scState n.val = scJoining)) ∧
      (n.val = 50 → x < 9 → s.phase x = 1 → Answers i s (fun t => t.phase x = 0 ∧ t.phase y = 2 ∧ t.spareOf 50 = y ∧ t.scState 50 = scTesting)) ∧
      (n.val = 51 → Answers i s (fun t => t.scState 51 = scJoining ∧ t.fab.emptying = some (y == 1)))
    let denied := fun (cmd : Nat) => s.log carUnit clsContained r.pid.toNat r.world Reg.carcmd.addr cmd
    let inactive := fun (cause : Nat) (t : State) => cause ∈ t.lko.causes ∧ t.lko.okOn = false ∧ t.flag .lkostat Fld.lkostatOk = false ∧ t.fld .lkostat Fld.lkostatCause = cause
    (k.duty = .pair → placed → s.lko.stopped = false → k.pausing = false →
      (¬ soon → Answers (.pairMismatch l) s (fun t => noted t 1 ∧ (t.lc l.val).recovery = true ∧ (t.lc l.val).resv = none ∧ (t.lc l.val).g = k.g ∧
        (t.lc l.val).pc = k.pc ∧ (t.lc l.val).pausing = decide (16 ≤ recent) ∧ t.st = s.st)) ∧
      (soon → Answers (.pairMismatch l) s (fun t => (t.lc l.val).pausing = true ∧ (t.lc l.val).pc = k.pc))) ∧
    (k.duty ≠ .pair ∨ s.lko.stopped = true ∨ k.pausing = true → exec (.pairMismatch l) s = .next s) ∧
    (votes → s.hasSpare c = true → spare < 9 →
      (∀ lead, Answers (.tripleVote l (.oneOriginal lead)) s (fun t => resumed t ∧ noted t 2 ∧ (t.lc l.val).lead = good lead ∧ (t.lc l.val).mate = some spare ∧
        t.isRetired c (bad lead) = true ∧ none_ t)) ∧
      Answers (.tripleVote l .spareAlone) s (fun t => resumed t ∧ noted t 3 ∧ (t.lc l.val).lead = k.lead ∧ (t.lc l.val).mate = k.mate ∧ t.isRetired c spare = true ∧ none_ t) ∧
      Answers (.tripleVote l .noMismatch) s (fun t => resumed t ∧ noted t 3 ∧ (t.lc l.val).lead = k.lead ∧ t.scState c = scTesting) ∧
      Answers (.tripleVote l .allDiffer) s (gone 5)) ∧
    (votes → s.hasSpare c = false →
      (∀ lead, Answers (.tripleVote l (.oneOriginal lead)) s (fun t => resumed t ∧ noted t 4 ∧ (t.lc l.val).lead = good lead ∧ (t.lc l.val).mate = none ∧
        (t.lc l.val).duty = .degraded ∧ t.isRetired c (bad lead) = true)) ∧
      ∀ v ∈ [Vote.spareAlone, .noMismatch, .allDiffer], Answers (.tripleVote l v) s (gone 5)) ∧
    (placed → k.duty = .split ∨ k.duty = .degraded → ∀ why,
      let passes := why ≠ .registerParity ∧ why ≠ .drainSecondFault ∧ s.hasSpare c = true ∧ s.lko.stopped = false
      (passes → Answers (.splitHardFault l why) s (fun t => noted t 2 ∧ (t.lc l.val).lead = spare ∧ (t.lc l.val).duty = k.duty ∧ (t.lc l.val).inflight = [] ∧
        t.isRetired c k.lead = true ∧ none_ t)) ∧
      (¬ passes → Answers (.splitHardFault l why) s (gone 5))) ∧
    (let hung := k.place.isSome = true ∧ k.duty ≠ .lost ∧ k.wait = none ∧ k.halted = false ∧ k.pausing = false ∧ s.alive c = true ∧ s.lko.stopped = false ∧
       k.issuedAt.toNat + s.fld .lkocfg Fld.lkocfgHang * 1000 ≤ s.mtime.toNat
     (hung → Answers (.hungLogicalCore l) s (gone 6)) ∧ (¬ hung → exec (.hungLogicalCore l) s = .next s)) ∧
    (isHost r = true → k.duty = .lost → s.alive c = true →
      (∀ y, k.slots.find? (fun y => !s.car.lostTest.contains (16 * c + y) && !s.isRetired c y) = some y → Answers (.restart r l) s (fun t => let m := t.lc l.val
        m.duty = .degraded ∧ m.lead = y ∧ m.mate = none ∧ m.run = true ∧ m.place = k.place ∧ m.g = [] ∧ m.pc = BitVec.ofNat 64 (s.fld .pwrres Fld.pwrresAddr))) ∧
      ((∀ y ∈ k.slots, 16 * c + y ∈ s.car.lostTest ∨ s.isRetired c y = true) → Answers (.restart r l) s (fun t => t.lc l.val = k))) ∧
    (isHost r = false → exec (.restart r l) s = .next (s.log 0x710 clsContained r.pid.toNat r.world Reg.lkocmd.addr 3)) ∧
    (rotates → due → goes (.carouselStep n)) ∧ (¬ rotates ∨ ¬ due → exec (.carouselStep n) s = .next s) ∧ (r.pid = 255 → rotates → goes (.carcmdStep r n)) ∧
    (r.pid = 255 →
      Answers (.carcmdHold r n) s (fun t => n.val ∈ t.car.hold ∧ t.scState n.val = (if s.scState n.val = scReady then scHeld else s.scState n.val)) ∧
      Answers (.carcmdResume r n) s (fun t => n.val ∉ t.car.hold ∧ t.scState n.val = (if s.scState n.val = scHeld then scReady else s.scState n.val))) ∧
    (r.pid ≠ 255 → exec (.carcmdStep r n) s = .next (denied 1) ∧ exec (.carcmdHold r n) s = .next (denied 2) ∧ exec (.carcmdResume r n) s = .next (denied 3)) ∧
    (s.scState n.val = scTesting → x < 9 →
      Answers (.carouselTestDone n ⟨true, []⟩) s (fun t => t.scState n.val = calm ∧ (n.val = 50 → t.phase x = 1) ∧ (n.val < 51 → t.spareOf n.val = x)) ∧
      (s.car.retest.contains n.val = false → Answers (.carouselTestDone n ⟨false, []⟩) s (fun t => n.val ∈ t.car.retest ∧ t.scState n.val = scTesting ∧ t.regs = s.regs)) ∧
      (s.car.retest.contains n.val = true → Answers (.carouselTestDone n ⟨false, []⟩) s (fun t => t.isRetired n.val x = true ∧ t.scState n.val = scNoSpare ∧ t.spareOf n.val = 0xF))) ∧
    (∀ pl y, k.place = some pl → c < 16 → KV.get none s.car.swapping c = some y → y < 9 → s.scState c = scWaiting → k.lead = y ∨ k.mate = some y → k.duty ≠ .lost → k.frozen = none → k.doom = none →
      s.lko.stopped = false → k.shadow = 0 → k.pausing = false → k.halted = false →
      (s.windowOpen pl = true → Answers (.swapPause l) s (fun t => t.scState c = scTesting ∧ t.spareOf c = y ∧ (t.lc l.val).lead = (if k.lead = y then spare else k.lead) ∧
        (t.lc l.val).mate = (if k.lead = y then k.mate else some spare) ∧ (t.lc l.val).pc = k.pc ∧ (t.lc l.val).inflight = [])) ∧
      (s.windowOpen pl = false → exec (.swapPause l) s = .next s)) ∧
    (s.alive (48 + h.val) = true →
      Answers (.analogueReferenceCheck h false) s (fun t => (t.home h.val).refFail = true) ∧
      ((s.home h.val).refFail = true → Answers (.analogueReferenceRepeat h true) s (fun t => (t.home h.val).refFail = false ∧ t.lko = s.lko) ∧
        (s.lko.stopped = false → Answers (.analogueReferenceRepeat h false) s (fun t => 48 + h.val ∈ t.lko.dead)))) ∧
    exec (.analogueReferenceCheck h true) s = .next s ∧ ((s.home h.val).refFail = false → exec (.analogueReferenceRepeat h ok) s = .next s) ∧
    Answers (.emergencyNotice thermal mask) s (fun t => t.lko.emergencies = s.lko.emergencies ++ [(if thermal then 1 else 2, mask.toNat, s.mtime + 100000)] ∧
      (s.trustAway = false → s.trust.notices = [] → s.mbFull 1023 = false → t.mbFull 1023 = true ∧ KV.getAll 0 t.st.mbdata (1023 * 256 + 0x40) 24 =
        toBytes 8 (if thermal then 1 else 2) ++ toBytes 8 mask.toNat ++ toBytes 8 (s.mtime + 100000).toNat)) ∧
    (s.lko.emergencies = [] → exec .emergencyCut s = .next s) ∧
    (∀ kind m at_ rest, s.lko.emergencies = (kind, m, at_) :: rest → (s.mtime < at_ → exec .emergencyCut s = .next s) ∧
      (at_ ≤ s.mtime → s.pwr.falling = false → Answers .emergencyCut s (fun t => inactive 8 t ∧ t.lko.emergencies = rest ∧ ∀ d ∈ domainsOf m, t.powered d = false))) ∧
    (∀ at_, s.lko.hBeat = some at_ → (at_.toNat + s.fld .lkocfg Fld.lkocfgHbto * 1000000 < s.mtime.toNat → Answers .hHeartbeatMissed s (inactive 5)) ∧
      (s.mtime.toNat ≤ at_.toNat + s.fld .lkocfg Fld.lkocfgHbto * 1000000 → exec .hHeartbeatMissed s = .next s)) ∧
    (s.lko.hBeat = none → exec .hHeartbeatMissed s = .next s) ∧
    Answers .lookoutLockstepMismatch s (fun t => inactive 3 t ∧ t.lko.stopped = true ∧ t.flag .lkostat Fld.lkostatLkerr = true) ∧
    (r.pid = 255 → Answers (.rearm r) s (fun t => if s.lko.causes = [] then t.lko.okOn = true ∧ t.flag .lkostat Fld.lkostatOk = true else t.lko = s.lko)) ∧
    (isHost r = true → Answers (.forceOff r) s (fun t => t.lko.okOn = false ∧ t.lko.causes = s.lko.causes ∧ t.fld .lkostat Fld.lkostatCause = 7)) ∧
    (r.pid ≠ 255 → exec (.rearm r) s = .next (s.log 0x710 clsContained r.pid.toNat r.world Reg.lkocmd.addr 1)) ∧
    (isHost r = false → exec (.forceOff r) s = .next (s.log 0x710 clsContained r.pid.toNat r.world Reg.lkocmd.addr 2))

/-- 17 R437-R456, 15 R405. The sets of the POWER section are the model's opaque `powerSet` (log entry 20); a supply's trim is CALE (19 R487).
Where the spec leaves a point open it states the model's own choice (log entries 122, 123, 124, 126, 127 and 181). -/
def Obligations.PowerFollowsFeedsRequestsAndWakes : Prop :=
  ∀ (s : State) (r : Req) (d n : BitVec 8) (port : BitVec 9) (ph : Fin 9) (why : PhaseFault) (rail : Fin 26) (mw : Nat) (sn : Sensor) (temp vina vinb vbus : Int) (b : Bool),
    let st := s.fld .pwrstat Fld.pwrstatState
    let auto := s.flag .pwrstat Fld.pwrstatAuto
    let v := vbus * 10 + s.trimOf 0x142
    let band := bandOf v
    let sample := Instr.vbusSample vina vinb vbus
    let feed := if b then Fld.pwrstatVinb else Fld.pwrstatVina
    let fk := if b then 1 else 0
    let rest := (if b then s.pwr.vinb else s.pwr.vina) * 10
    let slot := r.pid.toNat
    let ends := fun (i : Instr) (code : Nat) => Answers i s (fun t => t.rd (.pwrreqs slot) = BitVec.ofNat 64 code ∧ t.pwr = s.pwr ∧ t.rd .pwrdom = s.rd .pwrdom)
    let starts := fun (i : Instr) (op arg : Nat) => Answers i s (fun t => t.flag (.pwrreqs slot) Fld.pwrreqsBusy = true ∧ t.pwrReq slot = some (op, arg) ∧ t.rd .pwrdom = s.rd .pwrdom ∧
      (0x10 ≤ op → t.fld .pwrstat Fld.pwrstatState = 5))
    let idle := s.flag (.pwrreqs slot) Fld.pwrreqsBusy = false
    let denied := ownerDenies (s.rd (.pwrown d.toNat)) r = true
    let states := [(Instr.full r, opFull, 0), (.trim r n, opTrim, n.toNat), (.lean r, opLean, 0), (.doze r, opDoze, 0), (.standby r, opStandby, 0)]
    let asleep := s.pwr.dozing = true ∨ s.pwr.standby = true
    let wakes := fun (i : Instr) (from_ p : Nat) =>
      (s.pwr.dozing = true → Answers i s (fun t => t.pwr.dozing = false ∧ t.fld .pwrstat Fld.pwrstatState = (if s.flag .pwrwake Fld.pwrwakeTo then 1 else 0) ∧
        t.fld .pwrcause Fld.pwrcauseSrc = from_ % 16 ∧ t.fld .pwrcause Fld.pwrcausePort = p % 512 ∧ t.flag .pwrcause Fld.pwrcauseValid = true)) ∧
      (s.pwr.dozing = false → s.pwr.standby = true → Answers i s (fun t => t.pwr.standby = false ∧ t.clk.started = false ∧ t.flag .rstcause Fld.rstcauseWake = true ∧
        t.fld .pwrcause Fld.pwrcauseSrc = from_ % 16)) ∧
      (¬ asleep → s.dozeAsked = true → Answers i s (fun t => t.pwr.latched = s.pwr.latched ++ [(from_, p)] ∧ t.regs = s.regs)) ∧
      (¬ asleep → s.dozeAsked = false → exec i s = .next s)
    let alarm := s.flag .pwrwake Fld.pwrwakeAlarm = true ∧ (s.rd .pwrwaket).toNat ≤ s.mtime.toNat
    let hot := temp + s.trimOf (0x100 + sn.val)
    let quiet := s.scState 50 ≠ scNoSpare
    (band ≠ s.pwr.candidate → Answers sample s (fun t => t.pwr.band = s.pwr.band ∧ t.pwr.candidate = band ∧ t.fld .pwrstat Fld.pwrstatVbus = (v / 10).toNat % 1024)) ∧
    (band = s.pwr.candidate → band ≠ s.pwr.band → Answers sample s (fun t => t.pwr.band = band ∧
      (band = 2 → s.clk.started = true → s.pwr.standby = false → auto = false → t.fld .pwrstat Fld.pwrstatState = 2 ∧ t.flag .pwrstat Fld.pwrstatAuto = true) ∧
      (band = 3 → s.clk.started = true → s.pwr.standby = false → s.pwr.falling = false → t.pwr.falling = true ∧ t.flag .pwrstat Fld.pwrstatAuto = true) ∧
      (band = 4 → t.elog = [] ∧ t.st.main = [] ∧ t.otp = s.otp ∧ t.st.flash = s.st.flash))) ∧
    (s.pwr.feedOff.getLsbD fk = true → s.heldFor (2 + fk) 10000000 = true → rest ≤ 7200 → Answers (.feedReconnect b) s (fun t => t.pwr.feedOff.getLsbD fk = false ∧
      t.fld .pwrstat feed = if rest < -100 then 3 else if rest < 2400 then 1 else 0)) ∧
    (s.pwr.feedOff.getLsbD fk = false ∨ s.heldFor (2 + fk) 10000000 = false → exec (.feedReconnect b) s = .next s) ∧
    (auto = true → st = 2 → s.pwr.falling = false → s.heldFor 6 10000000 = true → Answers .leanExit s (fun t => t.pwr.cutByAuto = 0 ∧ t.fld .pwrstat Fld.pwrstatState = s.pwr.back % 8 ∧
      ∀ x, x < 61 → s.pwr.cutByAuto.testBit x = true → t.powered x = true)) ∧
    (auto = false ∨ st ≠ 2 ∨ s.pwr.falling = true ∨ s.heldFor 6 10000000 = false → exec .leanExit s = .next s) ∧
    (s.phase ph.val = 3 → exec (.phaseFailure ph why) s = .next s) ∧
    (s.phase ph.val ≠ 3 → Answers (.phaseFailure ph why) s (fun t => t.phase ph.val = 3 ∧ t.isRetired 50 ph.val = true ∧
      (s.phase ph.val ≠ 0 → t.scState 50 = scNoSpare) ∧
      ∀ q, s.phase ph.val = 0 → (List.range 9).find? (fun q => s.phase q == 1 || s.phase q == 2) = some q → t.phase q = 0 ∧ t.scState 50 = scNoSpare)) ∧
    (s.bitIn .pwrph Fld.pwrphPolhalf rail.val = false → Answers (.polHalfFailure rail) s (fun t => t.bitIn .pwrph Fld.pwrphPolhalf rail.val = true ∧ t.rd .pwrdom = s.rd .pwrdom)) ∧
    (s.bitIn .pwrph Fld.pwrphPolhalf rail.val = true → s.pwr.polHalf2.testBit rail.val = false → Answers (.polHalfFailure rail) s (fun t => t.pwr.polHalf2.testBit rail.val = true ∧
      ∀ x ∈ railDomains rail.val, t.powered x = false)) ∧
    (idle → d.toNat < 48 →
      (denied → Answers (.domOn r d) s (fun t => t.rd (.pwrreqs slot) = 0x24 ∧ t.pwr = s.pwr) ∧ Answers (.domOff r d) s (fun t => t.rd (.pwrreqs slot) = 0x24 ∧ t.pwr = s.pwr)) ∧
      (¬ denied →
        (s.domBusy slot d.toNat = true → ends (.domOn r d) 1 ∧ ends (.domOff r d) 1) ∧
        (s.domBusy slot d.toNat = false →
          (auto = false → starts (.domOn r d) opDomOn d.toNat) ∧
          (s.domInUse d.toNat = true → ends (.domOff r d) 0x26) ∧ (s.domInUse d.toNat = false → starts (.domOff r d) opDomOff d.toNat)))) ∧
    (n.toNat ≤ 7 → idle → ∀ c ∈ states,
      (isHost r = false → ends c.1 0x24) ∧
      (isHost r = true → auto = true → c.2.1 ≠ opStandby → ends c.1 1) ∧
      (s.stateCheck slot c.2.1 c.2.2 r = none → s.needsConsent r c.2.1 c.2.2 = false → starts c.1 c.2.1 c.2.2) ∧
      (s.stateCheck slot c.2.1 c.2.2 r = none → s.needsConsent r c.2.1 c.2.2 = true → Answers c.1 s (fun t => t.pwr.consent = [0] ∧ t.pwrReq 0 = some (c.2.1, c.2.2)))) ∧
    (n.toNat ≤ 7 → s.flag (.pwrreqs slot) Fld.pwrreqsBusy = true → ∀ c ∈ states, exec c.1 s = .next (s.reject r (.pwrreq slot))) ∧
    (s.pwrReq n.toNat = none → exec (.powerRequestDone n) s = .next s) ∧
    (∀ op arg, s.pwrReq n.toNat = some (op, arg) → (n = 0 → s.pwr.consent.contains 0 = false) →
      let done := fun (t : State) => t.pwrReq n.toNat = none ∧ t.rd (.pwrreqs n.toNat) = 0
      (op = opDomOn → arg < 48 → Answers (.powerRequestDone n) s (fun t => done t ∧ t.powered arg = true)) ∧
      (op = opDomOff → arg < 48 → Answers (.powerRequestDone n) s (fun t => done t ∧ t.powered arg = false)) ∧
      (op = opFull ∨ op = opTrim ∨ op = opLean ∨ op = opDoze → s.pwr.latched = [] → Answers (.powerRequestDone n) s (fun t => done t ∧ (t.pwr.dozing = true ↔ op = opDoze) ∧
        ∀ x, x < 61 → t.powered x = s.onIn op arg x)) ∧
      (op = opStandby → s.pwr.latched = [] → Answers (.powerRequestDone n) s (fun t => done t ∧ t.pwr.standby = true ∧ t.st.main = [] ∧ ∀ x, x < 61 → t.powered x = false))) ∧
    (let late := s.pwr.consent.contains 0 = true ∧ (KV.get 0 s.pwr.since 20).toNat + 10000000 ≤ s.mtime.toNat
     (late → Answers .trustConsentTimeout s (fun t => t.pwr.consent = [] ∧ t.pwrReq 0 = none ∧ t.rd (.pwrreqs 0) = 0x24)) ∧ (¬ late → exec .trustConsentTimeout s = .next s)) ∧
    (∀ k : BitVec 4, k = 1 ∨ k = 2 ∨ k = 3 → (s.wakeHolds k.toNat port.toNat = true → wakes (.wake k port) k.toNat port.toNat) ∧
      (s.wakeHolds k.toNat port.toNat = false → exec (.wake k port) s = .next s)) ∧
    (alarm → wakes .wakeAlarm 4 0) ∧ (¬ alarm → exec .wakeAlarm s = .next s) ∧
    (quiet → s.budget < mw → Answers (.budgetCheck mw) s (fun t => ∀ c, c < 16 → s.throttlable c = true → t.throttleOf c = min (s.throttleOf c + 1) 4 ∧
      t.fld (.clkpll c) Fld.clkpllFreq = 1600 - min (s.throttleOf c + 1) 4 * 200)) ∧
    (quiet → mw + 5000 ≤ s.budget → s.sinceAt 7 ≠ 0 → (s.heldFor 7 1000000 = true → Answers (.budgetCheck mw) s (fun t => ∀ c, c < 16 → s.throttlable c = true →
        t.throttleOf c = min (s.throttleOf c - 1) 4)) ∧
      (s.heldFor 7 1000000 = false → Answers (.budgetCheck mw) s (fun t => t.regs = s.regs ∧ t.pwr.throttle = s.pwr.throttle))) ∧
    (hot ≤ s.fld .pwrtemp Fld.pwrtempTjwarn * 10 → exec (.temperatureWarn sn temp) s = .next s) ∧
    ((s.fld .pwrtemp Fld.pwrtempTjwarn : Int) * 10 < hot → Answers (.temperatureWarn sn temp) s (fun t => (sn.val < 16 → s.throttlable sn.val = true →
      t.throttleOf sn.val = min (s.throttleOf sn.val + 1) 4) ∧ t.rd .pwrdom = s.rd .pwrdom)) ∧
    (hot ≤ s.fld .pwrtemp Fld.pwrtempTjcrit * 10 → exec (.temperatureCritical sn temp) s = .next s) ∧
    (∀ x, (s.fld .pwrtemp Fld.pwrtempTjcrit : Int) * 10 < hot → sensorDomain sn.val = some x → s.powered x = true → (∀ e ∈ s.lko.emergencies, e.2.1 / 2 ^ x % 2 = 0) →
      Answers (.temperatureCritical sn temp) s (fun t => t.lko.emergencies = s.lko.emergencies ++ [(1, 2 ^ x, s.mtime + 100000)])) ∧
    ((s.fld .pwrtemp Fld.pwrtempTjcrit : Int) * 10 < hot → sensorDomain sn.val = none → s.pwr.standby = false → auto = false → Answers (.temperatureCritical sn temp) s (fun t =>
      t.fld .pwrstat Fld.pwrstatState = 2 ∧ t.flag .pwrstat Fld.pwrstatAuto = true))

/-- 18 R459-R473, 19 R477, R489. What Lookout declares comes with `declareDead` (16 R426); the firmware and image of a start-up are opaque to the model
(log entry 20).
Where the spec leaves a point open it states the model's own choice (log entries 128, 129, 130 and 131). -/
def Obligations.ClocksTimeAndResets : Prop :=
  ∀ (s : State) (r : Req) (v : W64) (n m : Fin 24) (k : Fin 17) (d : BitVec 8) (g : Fin 32) (err cycles : Nat) (tmode ran : Bool),
    let b := pllBackup n.val
    let st := s.pllState n.val
    let backupOk := s.pllState b = 2 ∨ s.pllState b = 3
    let trust := r.pid = 255
    let step := toSigned 32 (bitsOf v 31 0)
    let down := ∀ c, c < 16 → s.powered c = false ∨ s.inReset c = true
    let kept := fun (t : State) (f : Field) => t.mtime = s.mtime ∧ t.mtFrac = s.mtFrac ∧ t.elog = s.elog ∧ t.otp = s.otp ∧ t.st.flash = s.st.flash ∧ t.trust.gen = s.trust.gen ∧
      t.rd .pwrwake = s.rd .pwrwake ∧ t.rd .pwrwaket = s.rd .pwrwaket ∧ t.test.repairs = s.test.repairs ∧ t.flag .rstcause f = true ∧
      (∀ x, x < 52 → t.fld (.carscope x) Fld.carscopeRetired = s.fld (.carscope x) Fld.carscopeRetired) ∧
      (∀ o ∈ [Fld.rstcausePor, Fld.rstcausePin, Fld.rstcauseCmd, Fld.rstcauseDebug, Fld.rstcauseWake], s.flag .rstcause o = true → t.flag .rstcause o = true) ∧
      t.st.main = [] ∧ t.cores = [] ∧ t.clk.started = false ∧ t.pending = s.pending ∧ ∀ x, x < 61 → t.powered x = false
    let p := r.pid.toNat
    let denied := ownerDenies (s.rd (.pwrown d.toNat)) r = true
    let ends := fun (i : Instr) (code : Nat) => Answers i s (fun t => t.rd (.rstreqs p) = BitVec.ofNat 64 code ∧ t.rd .rstdom = s.rd .rstdom ∧ t.lko = s.lko ∧ t.st = s.st ∧
      (code ≠ 0x24 → t.elog = s.elog))
    let released := fun (i : Instr) => Answers i s (fun t => t.rd (.rstreqs p) = 0 ∧ d.toNat ∉ t.lko.dead ∧ (d.toNat < 16 ∨ s.trustUp = true → t.inReset d.toNat = false) ∧
      (16 ≤ d.toNat → s.trustUp = false → t.inReset d.toNat = true ∧ (t.group (d.toNat - 16)).restoring = true) ∧
      ∀ l, d.toNat < 16 → l < 128 → s.hosts d.toNat l = true → (t.lc l).run = true ∧ (t.lc l).pc = BitVec.ofNat 64 (s.fld .pwrres Fld.pwrresAddr))
    let stale := (KV.get 0 s.test.adcSeen g.val).toNat + 1000000000 ≤ s.mtime.toNat
    let failed := s.bitIn .caladc Fld.caladcFail g.val
    let marked := s.test.repairs.filter (fun e => e.fuse)
    let used := s.otp.fuses.length
    let starts := s.clk.started = false ∧ s.clk.maker = false ∧ s.dbg.scan = false ∧ s.pwr.standby = false ∧ s.vinValid = true
    (s.clk.internal = true → exec .referenceLost s = .next s) ∧
    (s.clk.internal = false → Answers .referenceLost s (fun t => t.clk.internal = true ∧ t.flag .mtstat Fld.mtstatHold = true ∧ t.flag .mtstat Fld.mtstatAligned = false ∧ t.mtime = s.mtime)) ∧
    (s.clk.internal = false ∨ s.pwr.standby = true → exec .referenceRestored s = .next s) ∧
    (s.clk.internal = true → s.pwr.standby = false → Answers .referenceRestored s (fun t => t.clk.internal = false ∧ t.flag .mtstat Fld.mtstatHold = false ∧ t.mtime = s.mtime ∧
      t.flag .mtstat Fld.mtstatAligned = (s.fld .vnstat Fld.vnstatRole == 2 || s.flag .mtstat Fld.mtstatAligned))) ∧
    (st ≠ 1 → st ≠ 2 → st ≠ 3 → exec (.pllFailure n) s = .next s) ∧
    (st = 3 → backupOk → Answers (.pllFailure n) s (fun t => t.pllState n.val = 5 ∧ t.pllState b = s.pllState b ∧ t.rd .rstdom = s.rd .rstdom ∧ t.lko = s.lko)) ∧
    (st = 1 ∨ st = 2 → backupOk → Answers (.pllFailure n) s (fun t => t.pllState n.val = 5 ∧ t.flag (.clkpll n.val) Fld.clkpllBackup = true ∧ t.pllState b = 2 ∧
      t.rd .rstdom = s.rd .rstdom ∧ t.lko = s.lko ∧ t.st = s.st)) ∧
    (st = 1 ∨ st = 2 → ¬ backupOk → n.val = 16 ∨ n.val = 17 → Answers (.pllFailure n) s (fun t => t.plane false = 3 ∧ t.plane true = 3 ∧ 4 ∈ t.lko.causes ∧ t.lko.okOn = false)) ∧
    (st = 1 ∨ st = 2 → ¬ backupOk → n.val ≠ 16 → n.val ≠ 17 → s.lko.stopped = false → Answers (.pllFailure n) s (fun t => ∀ x ∈ pllDomains n.val, s.powered x = true →
      x ∈ t.lko.dead ∧ (x ∉ s.lko.dead → x < 48 → t.inReset x = true))) ∧
    (∀ x : XCheck, st ≠ 2 ∨ s.visitWaits n.val = true ∨ ¬ backupOk → exec (.pllCrossCheck n x) s = .next s) ∧
    (st = 2 → backupOk → s.visitWaits n.val = false → exec (.pllCrossCheck n .agree) s = .next s ∧ exec (.pllCrossCheck n .pllWrong) s = exec (.pllFailure n) s ∧
      (m.val = b → exec (.pllCrossCheck n .backupWrong) s = exec (.pllFailure m) s)) ∧
    Answers (.spreadChange k) s (fun t => KV.get 0 t.clk.spread k.val = BitVec.ofNat 64 (bitsOf (s.rd (.clkss k.val)) 31 0) ∧ t.regs = s.regs) ∧
    (trust → keyedOk .mtrate 8 v = true → Answers (.mtrateWrite r v) s (fun t => t.rd .mtrate = v ∧ t.mtime = s.mtime ∧ ∀ q : Reg, q.addr ≠ Reg.mtrate.addr → t.rd q = s.rd q)) ∧
    (trust → keyedOk .mtrate 8 v = false → exec (.mtrateWrite r v) s = .next (s.reject r .mtrate)) ∧
    (¬ trust → exec (.mtrateWrite r v) s = .next (s.refuse r 0x7F0 Reg.mtrate.addr 0) ∧ exec (.mtstepWrite r v) s = .next (s.refuse r 0x7F0 Reg.mtstep.addr 0)) ∧
    (trust → keyedOk .mtstep 8 v = true → 0 ≤ step ∨ down → Answers (.mtstepWrite r v) s (fun t => t.rd .mtstep = v ∧ t.clk.mtAdd = s.clk.mtAdd + step ∧ t.mtime = s.mtime)) ∧
    (trust → keyedOk .mtstep 8 v = false ∨ (step < 0 ∧ ¬ down) → exec (.mtstepWrite r v) s = .next (s.reject r .mtstep)) ∧
    (s.pending = [] → ∃ t, Sys2Proof.Machine.step s = .next t ∧ t.clk.mtAdd = 0 ∧ (t.mtime.toNat * 2 ^ 24 + t.mtFrac.toNat : Int) =
      ((s.mtime.toNat * 2 ^ 24 + s.mtFrac.toNat : Nat) + 40 * 2 ^ 24 + 40 * toSigned 32 (s.fld .mtrate Fld.mtrateRate) * 2 ^ 24 / 1000000000 + s.clk.mtAdd * 2 ^ 24) % 2 ^ 88) ∧
    Answers (.powerOnReset tmode) s (fun t => t.otp = s.otp ∧ t.st.flash = s.st.flash ∧ t.mtime = 0 ∧ t.elog = [] ∧ t.st.main = [] ∧ t.cores = [] ∧ t.rd .rstcause = 1 ∧
      t.clk.started = false ∧ t.pending = s.pending ∧ (t.clk.maker = true ↔ tmode = true ∧ (s.lifeCycle = 0 ∨ s.lifeCycle = 1 ∨ s.lifeCycle = 4))) ∧
    (cycles < 125 → exec (.resetN cycles) s = .next s) ∧
    (125 ≤ cycles → Answers (.resetN cycles) s (fun t => kept t Fld.rstcausePin ∧ t.dbg.scan = false)) ∧
    (isHost r = true → Answers (.rstcmdModule r) s (fun t => kept t Fld.rstcauseCmd)) ∧
    (isHost r = false → exec (.rstcmdModule r) s = .next (s.refuse r 0x7F0 Reg.rstcmd.addr 1)) ∧
    (d.toNat ≤ 60 → s.flag (.rstreqs p) Fld.rstreqsBusy = false →
      (denied → ends (.domainReset r d) 0x24 ∧ ends (.domainRelease r d) 0x24) ∧
      (¬ denied → 48 ≤ d.toNat → ends (.domainReset r d) 0x27 ∧ ends (.domainRelease r d) 0x27) ∧
      (¬ denied → d.toNat < 48 →
        (s.domBusy p d.toNat = true → ends (.domainReset r d) 1 ∧ ends (.domainRelease r d) 1) ∧
        (s.domBusy p d.toNat = false →
          (s.powered d.toNat = false → ends (.domainReset r d) 0x2A ∧ ends (.domainRelease r d) 0x2A) ∧
          (s.powered d.toNat = true → s.inReset d.toNat = true → released (.domainReset r d) ∧ released (.domainRelease r d)) ∧
          (s.powered d.toNat = true → s.inReset d.toNat = false → ends (.domainRelease r d) 0x29 ∧
            (s.domInUse d.toNat = true → ends (.domainReset r d) 0x26) ∧ (s.domInUse d.toNat = false → released (.domainReset r d)))))) ∧
    (60 < d.toNat ∨ s.flag (.rstreqs p) Fld.rstreqsBusy = true → exec (.domainReset r d) s = .next (s.reject r (.rstreq p)) ∧ exec (.domainRelease r d) s = .next (s.reject r (.rstreq p))) ∧
    (starts → Answers .startUp s (fun t => t.clk.started = true ∧ (s.sinceAt 11 ≠ 0 → t.flag .rstcause Fld.rstcauseWake = true))) ∧
    (¬ starts → exec .startUp s = .next s) ∧
    (hasField g.val = true → s.alive (16 + g.val) = true →
      (err ≤ 10 ∨ failed = true → Answers (.adcReferenceCheck g true err) s (fun t => t.bitIn .caladc Fld.caladcStale g.val = false ∧
        t.bitIn .caladc Fld.caladcFail g.val = (failed && !(decide (err ≤ 10) && s.test.adcFresh.contains g.val)) ∧ g.val ∉ t.test.adcFresh)) ∧
      (10 < err → failed = false → Answers (.adcReferenceCheck g true err) s (fun t => t.bitIn .caladc Fld.caladcStale g.val = false ∧ t.bitIn .caladc Fld.caladcFail g.val = true ∧
        (t.group g.val).adcQ = [])) ∧
      (stale → Answers (.adcReferenceCheck g false err) s (fun t => t.bitIn .caladc Fld.caladcStale g.val = true ∧ t.bitIn .caladc Fld.caladcFail g.val = failed)) ∧
      (¬ stale → exec (.adcReferenceCheck g false err) s = .next s)) ∧
    (hasField g.val = false ∨ s.alive (16 + g.val) = false → exec (.adcReferenceCheck g ran err) s = .next s) ∧
    (¬ trust → exec (.fuse r) s = .next (s.refuse r 0x7F0 Reg.calcmd.addr 1)) ∧
    (trust → s.lifeCycle ≠ 1 → s.lifeCycle ≠ 4 → Answers (.fuse r) s (fun t => t.fld .calstat Fld.calstatCode = 0x24 ∧ t.otp = s.otp ∧ t.test = s.test)) ∧
    (trust → s.lifeCycle = 1 ∨ s.lifeCycle = 4 → 512 < used + marked.length → Answers (.fuse r) s (fun t => t.fld .calstat Fld.calstatCode = 0x2B ∧ t.otp = s.otp ∧ t.test = s.test)) ∧
    (trust → s.lifeCycle = 1 ∨ s.lifeCycle = 4 → used + marked.length ≤ 512 → Answers (.fuse r) s (fun t => t.fld .calstat Fld.calstatCode = 0 ∧
      t.test.repairs = s.test.repairs.filter (fun e => !e.fuse) ∧ ∀ i, i < marked.length → KV.get 0 t.otp.fuses (used + i) = (marked.map Repair.word).getD i 0))

/-- 20 R490-R510. A token's signatures are opaque to the model (log entry 20); the order of the checks is the model's choice.
Where the spec leaves a point open it states the model's own choice (log entries 134, 135, 136, 137, 139, 140, 141 and 143). -/
def Obligations.DebugPortsAnswerByReach : Prop :=
  ∀ (s : State) (d : DbgReq) (r : Req) (token data : List Byte) (of slot target : BitVec 8) (a : BitVec 64) (n : Nat) (c : DbgCore) (rn : BitVec 16) (v : W64)
    (off : BitVec 32) (on p2 : Bool) (ch : Fin 4),
    let p := d.port
    let tag := d.tag.toNat
    let port := s.dbgPort p
    let reach := s.reach p
    let idle := [Instr.ident d, .challenge d, .auth d token, .deauth d, .getres d of, .lcadv d target token]
    let core := [Instr.halt d c, .debugResume d c, .step d c, .regrd d c rn, .regwr d c rn v]
    let image := Instr.imgload d slot off data
    let all := idle ++ core ++ [.read d a n, .write d a data, .debugReset d, image, .scan d]
    let replied := fun (t : State) (code : Nat) (bs : List Byte) => (t.dbgPort p).last = some (tag, code, bs) ∧ (t.dbgPort p).sent = dbgBytes tag code bs
    let ends := fun (i : Instr) (code : Nat) (bs : List Byte) => Answers i s (fun t => replied t code bs ∧ t = s.setDbg p (t.dbgPort p) ∧ (t.dbgPort p).level = port.level ∧
      (t.dbgPort p).pid = port.pid ∧ (t.dbgPort p).nonce = port.nonce)
    let ready := s.dbgAnswers p = true ∧ d.crcOk = true ∧ port.step = none
    let size := dbgSize a.toNat n
    let x := s.busRead (s.dbgReq p) a.toNat size
    let wsize := dbgSize a.toNat data.length
    let y := s.dbgStore (s.dbgReq p) (if reach = reachAll then (List.range 7).filter s.otpTakes else []) a.toNat wsize data
    let reset := fun (t : State) => t.mtime = s.mtime ∧ t.elog = s.elog ∧ t.otp = s.otp ∧ t.st.flash = s.st.flash ∧ t.flag .rstcause Fld.rstcauseDebug = true ∧ t.st.main = [] ∧
      t.clk.started = false ∧ t.dbg.p0.level = 0 ∧ t.dbg.p1.level = 0
    let from_ := flashSlot (slot == 1)
    let inSlot := fun (k : Nat) => from_ ≤ k ∧ k < from_ + flashSize
    let put := fun (k : Nat) => from_ + off.toNat ≤ k ∧ k < from_ + off.toNat + data.length
    let late := 1 < slot.toNat ∨ flashSize < off.toNat + data.length ∨ (off ≠ 0 ∧ off.toNat < KV.get 0 port.next slot.toNat)
    let b := KV.get ⟨[], 0⟩ s.dbg.tr ch.val
    let line := s.traceLine ch.val
    let head := s.fld (.lcdtri ch.val) Fld.lcdtriHead
    let ring := s.ioWriteN 0x7F0 0 false (s.fld (.lcdtrb ch.val) Fld.lcdtrbBase * 4096 + head % s.ringRecords ch.val * 16) (b.buf.take line).flatten
    let full := s.flag (.lcdtrc ch.val) Fld.lcdtrcEn = true ∧ line ≤ b.buf.length
    (s.dbgAnswers p = false → ∀ i ∈ all, exec i s = .next s) ∧
    (s.dbgAnswers p = true → d.crcOk = false → ∀ i ∈ all, ends i 0x2C []) ∧
    (s.dbgAnswers p = true → d.crcOk = true → port.step ≠ none → ∀ i ∈ all, ends i 1 []) ∧
    (ready → reach < reachPart → ∀ i ∈ core ++ [.write d a data], ends i 0x24 []) ∧
    (ready → (reach < reachLog → ends (.read d a n) 0x24 []) ∧ (reach < reachMod → ends (.debugReset d) 0x24 [] ∧ ends image 0x24 []) ∧ (reach < reachAll → ends (.scan d) 0x24 [])) ∧
    (ready → ends (.ident d) 0 (toBytes 8 s.otp.id.toNat ++ toBytes 8 s.lcdWord.toNat)) ∧
    (ready → Answers (.challenge d) s (fun t => ∃ w, replied t 0 (toBytes 32 w) ∧ (t.dbgPort p).nonce = some (w, s.mtime) ∧ (t.dbgPort p).level = port.level)) ∧
    (ready →
      (s.dbgNonce p = none → Answers (.auth d token) s (fun t => replied t 0x31 [] ∧ (t.dbgPort p).nonce = none ∧ (t.dbgPort p).level = port.level)) ∧
      (∀ w, s.dbgNonce p = some w →
        (s.trustAway = true → Answers (.auth d token) s (fun t => replied t 0x13 [] ∧ (t.dbgPort p).nonce = none ∧ (t.dbgPort p).level = port.level)) ∧
        (s.trustAway = false → s.tokenOf w token = none → Answers (.auth d token) s (fun t => replied t 0x24 [] ∧ (t.dbgPort p).nonce = none ∧ (t.dbgPort p).level = port.level)) ∧
        (∀ k, s.trustAway = false → s.tokenOf w token = some k → Answers (.auth d token) s (fun t => replied t 0 [] ∧ (t.dbgPort p).nonce = none ∧ (t.dbgPort p).level = k.level ∧
          (t.dbgPort p).pid = k.pid)))) ∧
    (ready → Answers (.deauth d) s (fun t => replied t 0 [] ∧ (t.dbgPort p).level = 0 ∧ (t.dbgPort p).nonce = port.nonce)) ∧
    (ready → (∀ code bs, port.last = some (of.toNat, code, bs) → Answers (.getres d of) s (fun t => (t.dbgPort p).sent = dbgBytes tag 0 (dbgBytes of.toNat code bs) ∧
      (t.dbgPort p).last = port.last)) ∧
      ((∀ e, port.last = some e → e.1 ≠ of.toNat) → Answers (.getres d of) s (fun t => (t.dbgPort p).sent = dbgBytes tag 0x2D [] ∧ (t.dbgPort p).last = port.last))) ∧
    (ready → reachLog ≤ reach →
      (n = 0 ∨ 4096 < n → ends (.read d a n) 0x2D []) ∧
      (0 < n → n ≤ 4096 → reach = reachLog → dbgLogBlock a.toNat = false → ends (.read d a n) 0x24 []) ∧
      (n = size → reach ≠ reachLog ∨ (dbgLogBlock a.toNat = true ∧ dbgLogBlock (a.toNat + n - 1) = true) → Answers (.read d a n) s (fun t => t = x.1.setDbg p (t.dbgPort p) ∧
        (∀ w, x.2 = .val w → replied t 0 (toBytes size w.toNat)) ∧ (x.2 = .denied → replied t 0x30 []) ∧ (x.2 = .absent → replied t 0x2F [])))) ∧
    (ready → reachPart ≤ reach →
      (data = [] ∨ 4088 < data.length → ends (.write d a data) 0x2D []) ∧
      (data.length = wsize → Answers (.write d a data) s (fun t => t = y.1.setDbg p (t.dbgPort p) ∧ replied t y.2 [])) ∧
      (∀ m, data.length = wsize → a.toNat < 0x80000000 → s.target a.toNat ≠ .unmapped → s.ioWriteN 0x7F0 (s.dbgReq p).pid.toNat (s.dbgReq p).world a.toNat data = (m, none) →
        Answers (.write d a data) s (fun t => t = m.setDbg p (t.dbgPort p) ∧ replied t 0 [])) ∧
      (dbgEng c = none → ∀ i ∈ core, ends i 0x2D []) ∧
      (dbgEng c = some .trust → reach ≠ reachAll → ∀ i ∈ core, ends i 0x24 [])) ∧
    (∀ e, ready → reachPart ≤ reach → dbgEng c = some e → e ≠ .trust ∨ reach = reachAll →
      let k := s.core e
      let k2 : Core := { k with haltPend := some (s.haltScope p) }
      let off := s.dbgCoreOff e = true
      let safe := s.dbgSafe e = true
      (off → ∀ i ∈ core, ends i 0x2A []) ∧
      (¬ off → safe → ends (.halt d c) 0x24 [] ∧ ends (.step d c) 0x24 []) ∧
      (¬ off → ¬ safe →
        (k.halted = true → ends (.halt d c) 0 []) ∧
        (k.halted = false → k2.boundary = true → k2.haltActs e = true → Answers (.halt d c) s (fun t => replied t 0 [] ∧ (t.core e).halted = true ∧ (t.core e).pc = k.pc ∧ (t.core e).resv = none)) ∧
        (k.halted = false → k2.boundary = false ∨ k2.haltActs e = false → Answers (.halt d c) s (fun t => replied t 0 [] ∧ t.core e = k2)) ∧
        (k.halted = false → ends (.step d c) 0x2E []) ∧
        (k.halted = true → Answers (.step d c) s (fun t => (t.dbgPort p).step = some (tag, engKey e) ∧ (t.dbgPort p).sent = port.sent ∧
          t.core e = { k with halted := false, haltPend := some (s.haltScope p), stepFree := true, issuedAt := s.mtime }))) ∧
      (¬ off → Answers (.debugResume d c) s (fun t => replied t 0 [] ∧ t.core e = { k with halted := false, haltPend := none, stepFree := false, issuedAt := s.mtime })) ∧
      (¬ off → k.halted = false → ends (.regrd d c rn) 0x2E [] ∧ ends (.regwr d c rn v) 0x2E []) ∧
      (¬ off → k.halted = true →
        (rn.toNat < 32 → ends (.regrd d c rn) 0 (toBytes 8 (k.greg rn.toNat).toNat) ∧
          Answers (.regwr d c rn v) s (fun t => replied t 0 [] ∧ (rn = 0 → t.core e = k) ∧ (rn ≠ 0 → t.core e = { k with g := KV.set 0 k.g rn.toNat v }))) ∧
        (0x100 ≤ rn.toNat → rn.toNat < 0x120 → ends (.regrd d c rn) 0 (toBytes 8 (k.freg (rn.toNat - 0x100)).toNat) ∧
          Answers (.regwr d c rn v) s (fun t => replied t 0 [] ∧ t.core e = { k with f := KV.set 0 k.f (rn.toNat - 0x100) v })) ∧
        (rn = 0x200 → ends (.regrd d c rn) 0 (toBytes 8 k.pc.toNat) ∧ Answers (.regwr d c rn v) s (fun t => replied t 0 [] ∧ (t.core e).pc = v ∧ (t.core e).g = k.g ∧ (t.core e).f = k.f)) ∧
        (32 ≤ rn.toNat → rn.toNat < 0x1000 → (rn.toNat < 0x100 ∨ 0x120 ≤ rn.toNat) → rn ≠ 0x200 → ends (.regrd d c rn) 0x2D [] ∧ ends (.regwr d c rn v) 0x2D []) ∧
        (0x1000 ≤ rn.toNat →
          let m := rn.toNat - 0x1000
          (s.dbgRight p m = none → ends (.regrd d c rn) 0x2D [] ∧ ends (.regwr d c rn v) 0x2D []) ∧
          (s.dbgRight p m = some 0 → ends (.regrd d c rn) 0x24 [] ∧ ends (.regwr d c rn v) 0x24 []) ∧
          (s.dbgRight p m = some 1 → ends (.regwr d c rn v) 0 []) ∧
          (∀ q, s.dbgRight p m = some q → q = 1 ∨ q = 3 → m ≠ 0x39 → m ≠ 0x59 → ends (.regrd d c rn) 0 (toBytes 8 (s.crShow e (reach ≠ reachPart) m).toNat)) ∧
          (∀ q, s.dbgRight p m = some q → q = 2 ∨ q = 3 → Answers (.regwr d c rn v) s (fun t => replied t 0 [] ∧ t = (s.crStore e (reach ≠ reachPart) m v).setDbg p (t.dbgPort p)))))) ∧
    (ready → reachMod ≤ reach → Answers (.debugReset d) s (fun t => replied t 0 [] ∧ reset t)) ∧
    (ready → reachMod ≤ reach → late → ends image 0x2D []) ∧
    (ready → reachMod ≤ reach → ¬ late → Answers image s (fun t => replied t 0 [] ∧ t.st.main = s.st.main ∧ ∀ k, KV.get 0xFF t.st.flash k =
      if put k then data.getD (k - (from_ + off.toNat)) 0xFF else if off = 0 ∧ inSlot k then 0xFF else KV.get 0xFF s.st.flash k)) ∧
    (ready → (lcNeeds s.lifeCycle target.toNat = none → ends (.lcadv d target token) 0x24 []) ∧
      (∀ need, lcNeeds s.lifeCycle target.toNat = some need →
        (s.lcAuthorised p need token = false ∨ s.lcReady target.toNat = false → ends (.lcadv d target token) 0x24 []) ∧
        (s.lcAuthorised p need token = true → s.lcReady target.toNat = true → Answers (.lcadv d target token) s (fun t => replied t 0 [] ∧
          t.otp.lcFuse = Nat.lor s.otp.lcFuse (2 ^ (target.toNat - 1)) ∧ t.otp.lcDone = Nat.lor s.otp.lcDone t.otp.lcFuse ∧ t.flag .rstcause Fld.rstcauseDebug = true ∧
          t.dbg.p0.level = 0 ∧ t.dbg.p1.level = 0 ∧ t.clk.started = false ∧ (4 ≤ target.toNat → t.trust.keys = []))))) ∧
    (ready → reachAll ≤ reach → Answers (.scan d) s (fun t => replied t 0 [] ∧ t.dbg.scan = true ∧ reset t)) ∧
    ((s.dbgPort p2).nonce ≠ none → s.dbgNonce p2 = none → Answers (.nonceExpiry p2) s (fun t => t = s.setDbg p2 { s.dbgPort p2 with nonce := none })) ∧
    ((s.dbgPort p2).nonce = none ∨ s.dbgNonce p2 ≠ none → exec (.nonceExpiry p2) s = .next s) ∧
    (isHost r = false → exec (.serviceModeWrite r on) s = .next (s.refuse r 0x7F0 Reg.lcdctl.addr 0)) ∧
    (isHost r = true → Answers (.serviceModeWrite r true) s (fun t => t.flag .lcdctl Fld.lcdctlServicemode = true ∧ t.lko.okOn = false ∧ t.fld .lkostat Fld.lkostatCause = 7) ∧
      Answers (.serviceModeWrite r false) s (fun t => t.flag .lcdctl Fld.lcdctlServicemode = false ∧ t.lko = s.lko ∧
        ∀ l, l < 128 → (t.lc l).halted = ((s.lc l).halted && !s.safeCore l))) ∧
    (¬ full → exec (.traceLineWrite ch) s = .next s) ∧
    (full → ring.2 = none → Answers (.traceLineWrite ch) s (fun t => t.st = ring.1.st ∧ t.fld (.lcdtri ch.val) Fld.lcdtriHead = (head + line) % 65536 ∧
      KV.get ⟨[], 0⟩ t.dbg.tr ch.val = { b with buf := b.buf.drop line })) ∧
    (full → ring.2 ≠ none → Answers (.traceLineWrite ch) s (fun t => t.flag (.lcdtrc ch.val) Fld.lcdtrcEn = false ∧ KV.get ⟨[], 0⟩ t.dbg.tr ch.val = ⟨[], b.lost⟩))

/-- 21 R516-R523, 22 R525-R537. A snapshot's SEQ and the rate for a small offset are free values (log entry 20).
Where the spec leaves a point open it states the model's own choice (log entries 145, 146, 147, 149, 150, 151 and 153). -/
def Obligations.SnapshotsAndTheVehicleNetwork : Prop :=
  ∀ (s : State) (r : Req) (k : Fin 9) (d : Fin 8) (via : Fin 4) (b : BeaconMsg) (again : Bool) (o : Int) (f : RemoteFrame) (tag : BitVec 16) (code : BitVec 8) (sent : BitVec 32),
    let per := s.tickPeriod
    let at_ := s.mtime.toNat / per * per
    let ticks := s.talOn = true ∧ per ≠ 0 ∧ s.tal.next.toNat ≤ at_
    let busy := s.flag .talstat Fld.talstatBusy = true
    let n := s.tal.snap.length / 128
    let head := s.fld .talri Fld.talriHead
    let w := State.snapWrite n 0 s.tal.snap { s.putFlag .talstat Fld.talstatBusy false with tal := { s.tal with snap := [] } }
    let pid := r.pid.toNat
    let runs := s.vnRuns = true
    let own := s.otp.slot
    let ports := fun (g : Nat → Bool) (x : BeaconMsg) => ((List.range 4).filter (fun i => g i && (s.port (trunkPort i)).up && s.alive 47)).map (fun i => Sent.beacon i x)
    let e := b.slot.val
    let heard := b.secured = true ∧ runs ∧ (s.port (trunkPort via.val)).up = true
    let gone := d.val ≠ own ∧ s.vnPresent d.val = true ∧ s.beaconsGone d.val = true ∧ runs
    let takes := s.vnRole = 1 ∧ s.vn.hold = false ∧ runs ∧ s.beaconsGone s.ringmaster = true
    let lowest := fun (x : Nat) => (s.vnSlots.filter (fun y => y != x)).headD own
    let held := s.vn.hold = true ∧ runs ∧ ∃ t0, s.vn.upAt = some t0 ∧ t0.toNat + 10000000 ≤ s.mtime.toNat
    let syncs := runs ∧ s.vnRole ≠ 2
    let out := fun (t : State) (x : Sent) => t.vn.outbox = s.vn.outbox ++ [x]
    let frame := fun (cmd src dst : Nat) (bs : List Byte) => Sent.remote dst (remoteBytes cmd src dst f.tag.toNat f.offset.toNat f.mask.toNat bs)
    let serves := s.alive 47 = true ∧ s.vnRole ≠ 3
    let vin := Reg.vnin f.source.val
    let line := f.offset.toNat / 64
    let passes := s.flag vin Fld.vninEn = true ∧ remoteOffset f.offset.toNat = true ∧ f.mask.toNat ≠ 0
    let memory := f.offset.toNat < 0x80000000 ∧ s.lineFail (s.fld vin Fld.vninPid) false f.write (line * 64) = none
    let cmds := [(Instr.vnxFlash r d, 1), (.vnxStage r d, 2), (.vnxActivate r d, 3), (.vnxCancel r d, 4)]
    let xbusy := s.flag .vnxstat Fld.vnxstatBusy = true
    let xends := fun (i : Instr) (c : Nat) => Answers i s (fun t => t.fld .vnxstat Fld.vnxstatCode = c ∧ t.flag .vnxstat Fld.vnxstatBusy = false ∧ t.flag .vnint Fld.vnintXfer = true ∧
      t.vn.outbox = s.vn.outbox)
    (¬ ticks → exec .snapshotTick s = .next s) ∧
    (ticks → busy → Answers .snapshotTick s (fun t => t.fld .talstat Fld.talstatSkip = min (s.fld .talstat Fld.talstatSkip + 1) (2 ^ 32 - 1) ∧ t.tal.snap = s.tal.snap ∧ t.cores = s.cores)) ∧
    (ticks → ¬ busy → Answers .snapshotTick s (fun t => t.flag .talstat Fld.talstatBusy = true ∧ t.tal.snap.length = 128 * (4 + ((List.range 256).filter s.snapHas).length) ∧
      (∃ seq, t.tal.snap.take 24 = toBytes 8 (seq * 2 ^ 32 + 1) ++ toBytes 8 at_ ++ toBytes 8 ((List.range 256).filter s.snapHas).length) ∧ ∀ l, l < 128 → (t.lc l).live = [])) ∧
    (¬ busy → exec .snapshotComplete s = .next s) ∧
    (busy → s.ringSize < s.ringUsed + n → Answers .snapshotComplete s (fun t => t.flag .talstat Fld.talstatBusy = false ∧ t.st = s.st ∧ t.fld .talri Fld.talriHead = head ∧
      t.fld .talri Fld.talriLost = min (s.fld .talri Fld.talriLost + 1) (2 ^ 32 - 1))) ∧
    (busy → s.ringUsed + n ≤ s.ringSize → w.2 = true → Answers .snapshotComplete s (fun t => t.flag .talstat Fld.talstatBusy = false ∧ t.st = w.1.st ∧
      t.fld .talri Fld.talriHead = (head + n) % 65536 ∧ (s.flag .talcfg Fld.talcfgSnapie = true → (t.lc (s.fld .talcfg Fld.talcfgLcore)).privPend.getLsbD 4 = true))) ∧
    (busy → s.ringUsed + n ≤ s.ringSize → w.2 = false → Answers .snapshotComplete s (fun t => t.flag .talcfg Fld.talcfgEn = false ∧ t.fld .talri Fld.talriHead = head)) ∧
    (pid = 255 → exec (.talview r k) s = .next (s.wr (.talview k.val) 0)) ∧
    (pid ≠ 255 → Answers (.talview r k) s (fun t => t.rd (.talview k.val) = t.rd (.talacc pid k.val) ∧ ∀ l, l < 128 → bitsOf ((s.lc l).creg 0x48) 7 0 = pid → (t.lc l).live = [])) ∧
    (¬ runs → exec .beacon s = .next s) ∧
    (runs → Answers .beacon s (fun t => t.vn.outbox = s.vn.outbox ++ ports (fun _ => true) s.ownBeacon ∧ t.rd .vnstat = s.rd .vnstat)) ∧
    (¬ heard → exec (.beaconReceive via again b) s = .next s) ∧
    (heard → e = own → (b.lcdid < s.otp.id → Answers (.beaconReceive via again b) s (fun t => t.vnRole = 3)) ∧ (s.otp.id ≤ b.lcdid → exec (.beaconReceive via again b) s = .next s)) ∧
    (heard → e ≠ own → Answers (.beaconReceive via again b) s (fun t => t.vnPresent e = true ∧ KV.get none t.vn.seen e = some s.mtime ∧
      t.vn.outbox = s.vn.outbox ++ (if again then [] else ports (fun i => i != via.val) b) ∧
      (∀ m, s.vn.hold = true → b.rm = some m → t.ringmaster = m.val ∧ t.fld .vnstat Fld.vnstatEpoch = b.epoch.toNat ∧ t.vn.named = true) ∧
      (s.vn.hold = false → b.role = 2 → e < s.ringmaster → t.ringmaster = e ∧ t.vnRole ≠ 2 ∧ t.fld .vnstat Fld.vnstatEpoch = b.epoch.toNat) ∧
      (s.vn.hold = false → b.role ≠ 2 ∨ s.ringmaster ≤ e → s.vnSlots.contains s.ringmaster = true → t.ringmaster = s.ringmaster) ∧
      (s.vn.hold = false → s.vnRole = 2 → s.ringmaster = own → own < 8 → b.role ≠ 2 ∨ own ≤ e → t.vnRole = 2 ∧ t.rd (.vnhlth e) = BitVec.ofNat 64 (2 ^ 63 + b.health.toNat)))) ∧
    (¬ gone → exec (.slotAbsent d) s = .next s) ∧
    (gone → own < 8 → Answers (.slotAbsent d) s (fun t => t.vnPresent d.val = false ∧ (s.vnRole = 2 → t.flag (.vnhlth d.val) Fld.vnhlthValid = false) ∧
      (s.vn.hold = false → s.vnSlots.contains s.ringmaster = true → t.ringmaster = if d.val = s.ringmaster then lowest d.val else s.ringmaster))) ∧
    (¬ takes → exec .ringmasterTakeover s = .next s) ∧
    (takes → own < 8 → s.ringmaster ≠ own → Answers .ringmasterTakeover s (fun t => t.vnPresent s.ringmaster = false ∧ t.ringmaster = lowest s.ringmaster ∧
      (lowest s.ringmaster = own → t.vnRole = 2 ∧ t.fld .vnstat Fld.vnstatEpoch = (s.fld .vnstat Fld.vnstatEpoch + 1) % 2 ^ 32))) ∧
    (¬ held → exec .roleHoldEnd s = .next s) ∧
    (held → own < 8 → Answers .roleHoldEnd s (fun t => t.vn.hold = false ∧ t.ringmaster = if s.vn.named then s.ringmaster else s.vnSlots.headD own)) ∧
    (¬ syncs ∨ s.vn.hold = true → exec (.syncResult o) s = .next s) ∧
    (syncs → s.vn.hold = false → Answers (.syncResult o) s (fun t => t.mtime = s.mtime ∧ t.vn.lastSync = s.mtime ∧ t.vn.good = (if o.natAbs ≤ 10 then s.vn.good + 1 else 0) ∧
      (15 < o.natAbs ∨ (s.vn.newRm = true ∧ 10 < o.natAbs) → t.flag .mtstat Fld.mtstatAligned = false) ∧ (o.natAbs ≤ 10 → 3 ≤ s.vn.good → t.flag .mtstat Fld.mtstatAligned = true) ∧
      (o < -1000 → t.clk.mtAdd = s.clk.mtAdd + min (-o) 2147483647) ∧ (1000 < o → s.clustersDown = true → t.clk.mtAdd = s.clk.mtAdd - min o 2147483648) ∧
      (1000 < o → s.clustersDown = false → t.clk.mtAdd = s.clk.mtAdd ∧ t.fld .mtrate Fld.mtrateRate = 2 ^ 32 - 500000) ∧ (o.natAbs ≤ 1000 → t.clk.mtAdd = s.clk.mtAdd))) ∧
    (syncs → s.vn.lastSync.toNat + 23437500 ≤ s.mtime.toNat → Answers .syncResultTimeout s (fun t => t.flag .mtstat Fld.mtstatAligned = false ∧ t.vn = s.vn)) ∧
    (¬ syncs ∨ s.mtime.toNat < s.vn.lastSync.toNat + 23437500 → exec .syncResultTimeout s = .next s) ∧
    (¬ serves → exec (.remoteRequest f) s = .next s) ∧
    (serves → f.target.val ≠ own → Answers (.remoteRequest f) s (fun t => out t (frame (if f.write then 0x21 else 0x20) f.source.val f.target.val (if f.write then f.data else [])) ∧ t.st = s.st)) ∧
    (serves → f.target.val = own → ¬ passes → Answers (.remoteRequest f) s (fun t => out t (frame 0x10 own f.source.val []) ∧ t.st = s.st)) ∧
    (serves → f.target.val = own → passes → memory → f.write = true → Answers (.remoteRequest f) s (fun t => out t (frame 0x22 own f.source.val []) ∧
      t.st = (s.lineWriteMask line f.mask.toNat (padTo 64 0 f.data) 0).st)) ∧
    (serves → f.target.val = own → passes → memory → f.write = false → let x := s.lineGet line
      (∀ i, i < 64 → f.mask.getLsbD i = true → x.2.2.getLsbD (i / 8) = false) → Answers (.remoteRequest f) s (fun t => out t (frame 0x22 own f.source.val (masked f.mask.toNat x.2.1)) ∧ t.st = x.1.st)) ∧
    (s.vn.remotes.find? (fun x => x.tag == tag.toNat) = none → exec (.remoteResponseTimeout tag) s = .next s) ∧
    (∀ x, s.vn.remotes.find? (fun y => y.tag == tag.toNat) = some x → (s.mtime.toNat < x.left.toNat + 30000 → exec (.remoteResponseTimeout tag) s = .next s) ∧
      (x.left.toNat + 30000 ≤ s.mtime.toNat → Answers (.remoteResponseTimeout tag) s (fun t => t.vn.remotes = s.vn.remotes.erase x ∧
        ∃ m ∈ t.net, m.kind = .absent ∧ m.src = x.msg.dst ∧ m.dst = x.msg.src ∧ m.tag = x.msg.tag ∧ m.addr = x.msg.addr))) ∧
    (∀ c ∈ cmds,
      (isHost r = false → exec c.1 s = .next (s.refuse r 0x700 Reg.vnxcmd.addr c.2)) ∧
      (isHost r = true → xbusy → exec c.1 s = .next (s.reject r .vnxcmd)) ∧
      (isHost r = true → ¬ xbusy →
        (s.trustUp = false ∨ s.trustAway = true → xends c.1 0x13) ∧
        (s.trustUp = true → s.trustAway = false →
          (s.vnRole ≠ 2 → xends c.1 0x32) ∧
          (s.vnRole = 2 → d.val = own ∨ s.vnPresent d.val = false → xends c.1 0x33) ∧
          (s.vnRole = 2 → d.val ≠ own → s.vnPresent d.val = true →
            let x := ((s.wr .vnxcmd (keyedPair (c.2 + d.val * 256))).wr .vnxstat 0).vnxImage
            let sends := fun (act : W64) (bs : List Byte) => Answers c.1 s (fun t => t.flag .vnxstat Fld.vnxstatBusy = true ∧ out t (.transfer d.val c.2 act bs))
            (c.2 ≤ 2 → (x.2 = none → xends c.1 0x16) ∧ ∀ bs, x.2 = some bs → sends 0 bs) ∧
            (c.2 = 3 → sends (s.rd .layact) []) ∧ (c.2 = 4 → sends 0 []))))) ∧
    (¬ xbusy → exec (.vnxDone code sent) s = .next s) ∧
    (xbusy → Answers (.vnxDone code sent) s (fun t => t.flag .vnxstat Fld.vnxstatBusy = false ∧ t.fld .vnxstat Fld.vnxstatCode = code.toNat ∧ t.fld .vnxstat Fld.vnxstatSent = sent.toNat ∧
      t.flag .vnint Fld.vnintXfer = true))

/-- 20 R490, R491: the life cycle goes forward alone, along Table 1's transitions, over every command of the module.
Where the spec leaves a point open it states the model's own choice (log entry 8). -/
def Obligations.LifePathKept : Prop :=
  ∀ s t : State, lifePath s.otp.lcFuse = true → step s = .next t →
    lifePath t.otp.lcFuse = true ∧ (∀ i, s.otp.lcFuse.testBit i = true → t.otp.lcFuse.testBit i = true) ∧
    ((∀ d target token rest, s.pending ≠ Instr.lcadv d target token :: rest) → t.otp.lcFuse = s.otp.lcFuse)

/-- Log entry 3: the canonical form of the stores, kept by every command. -/
def Obligations.MemoryCanonicalKept : Prop := ∀ s t : State, Memory.wf s.st = true → step s = .next t → Memory.wf t.st = true

/-- 18 R465, R468, Table 3; the OTP of a fresh module is the model's choice (log entry 8).
Where the spec leaves a point open it states the model's own choice (log entries 5, 7 and 8). -/
def Obligations.ResetHoldsWhatTheSpecGives : Prop :=
  let s := State.reset
  Memory.wf s.st = true ∧ lifePath s.otp.lcFuse = true ∧ s.pending = [] ∧ s.elog = [] ∧ s.mtime = 0 ∧ (∀ r : Reg, s.rd r = r.reset) ∧ s.rd .rstcause = 1 ∧
  s.rd .clkxchk = 0xFFFFFFC30000003C ∧ (∀ g p, g < 32 → p < 16 → s.fld (.portid g p) ⟨15, 0, .ro, []⟩ = g * 256 + p) ∧ (∀ d, d < 61 → s.powered d = false ∧ s.inReset d = false) ∧
  (∀ l, l < 128 → (s.lc l).run = false) ∧ s.lko.okOn = false ∧ s.lko.causes = [1] ∧ s.flag .lkostat Fld.lkostatOk = false
end

