-- ==== Sys2Proof/Laws/KV.lean ====
section
/-! SUPPORT. What the sparse stores read after a write, and that every operation on them keeps the canonical form. -/
namespace Sys2Proof.Machine

variable {α : Type}

theorem KV.get_insert_self (d v : α) (n : Nat) (m : KV α) (h : ∀ e ∈ m, e.1 ≠ n) : KV.get d (KV.insert n v m) n = v := by
  induction m with
  | nil => simp [KV.insert, KV.get]
  | cons e m ih =>
    obtain ⟨k, w⟩ := e
    have hk : k ≠ n := h (k, w) (by simp)
    have ht := ih (fun e he => h e (by simp [he]))
    unfold KV.insert
    split
    · simp [KV.get]
    · rw [if_neg (Ne.symm hk)]
      simp [KV.get, hk, ht]

theorem KV.get_insert_of_ne (d v : α) {n i : Nat} (hi : i ≠ n) (m : KV α) : KV.get d (KV.insert n v m) i = KV.get d m i ∨ ∃ e ∈ m, e.1 = n := by
  induction m with
  | nil => simp [KV.insert, KV.get, Ne.symm hi]
  | cons e m ih =>
    obtain ⟨k, w⟩ := e
    by_cases hk : k = n
    · exact .inr ⟨(k, w), by simp, hk⟩
    rcases ih with h | ⟨e, he, h⟩
    · refine .inl ?_
      unfold KV.insert
      split
      · simp [KV.get, Ne.symm hi]
      · rw [if_neg (Ne.symm hk)]; simp [KV.get, h]
    · exact .inr ⟨e, by simp [he], h⟩

theorem KV.erase_keys (n : Nat) (m : KV α) : ∀ e ∈ KV.erase n m, e.1 ≠ n := by
  intro e he
  simp only [KV.erase, List.mem_filter, bne_iff_ne] at he
  exact he.2

theorem KV.get_of_absent (d : α) (n : Nat) (m : KV α) (h : ∀ e ∈ m, e.1 ≠ n) : KV.get d m n = d := by
  induction m with
  | nil => rfl
  | cons e m ih =>
    simp [KV.get, h e (by simp), ih (fun f hf => h f (by simp [hf]))]

theorem KV.get_erase_of_ne (d : α) {n i : Nat} (hi : i ≠ n) (m : KV α) : KV.get d (KV.erase n m) i = KV.get d m i := by
  induction m with
  | nil => rfl
  | cons e m ih =>
    obtain ⟨k, w⟩ := e
    by_cases hk : k = n
    · subst hk
      simpa [KV.erase, KV.get, Ne.symm hi] using ih
    · have : KV.erase n ((k, w) :: m) = (k, w) :: KV.erase n m := by simp [KV.erase, hk]
      simp [this, KV.get, ih]

/-- A write is read back. -/
@[simp] theorem KV.get_set_self [DecidableEq α] (d : α) (m : KV α) (n : Nat) (v : α) : KV.get d (KV.set d m n v) n = v := by
  unfold KV.set
  split
  · next h => rw [KV.get_of_absent d n _ (KV.erase_keys n m), h]
  · exact KV.get_insert_self d v n _ (KV.erase_keys n m)

/-- A write leaves every other key as it was. -/
theorem KV.get_set_of_ne [DecidableEq α] (d : α) (m : KV α) {n i : Nat} (h : i ≠ n) (v : α) :
    KV.get d (KV.set d m n v) i = KV.get d m i := by
  unfold KV.set
  split
  · exact KV.get_erase_of_ne d h m
  · rcases KV.get_insert_of_ne d v h (KV.erase n m) with h' | ⟨e, he, hn⟩
    · rw [h', KV.get_erase_of_ne d h m]
    · exact absurd hn (KV.erase_keys n m e he)

theorem KV.get_set [DecidableEq α] (d : α) (m : KV α) (n i : Nat) (v : α) :
    KV.get d (KV.set d m n v) i = if i = n then v else KV.get d m i := by
  by_cases h : i = n
  · subst h; simp
  · simp [h, KV.get_set_of_ne d m h]

/-! ### The canonical form -/

theorem KV.wf_cons [DecidableEq α] (d : α) (k : Nat) (v : α) (m : KV α) :
    KV.wf d ((k, v) :: m) = true ↔ v ≠ d ∧ KV.wf d m = true ∧ ∀ e ∈ m, k < e.1 := by
  induction m generalizing k v with
  | nil => simp [KV.wf]
  | cons e m ih =>
    obtain ⟨k', v'⟩ := e
    have := ih k' v'
    simp only [KV.wf, Bool.and_eq_true, decide_eq_true_eq, List.mem_cons, forall_eq_or_imp]
    constructor
    · rintro ⟨⟨h1, h2⟩, h3⟩
      exact ⟨h2, h3, h1, fun e he => lt_trans h1 ((this.1 h3).2.2 e he)⟩
    · rintro ⟨h2, h3, h1, _⟩
      exact ⟨⟨h1, h2⟩, h3⟩

theorem KV.wf_nil [DecidableEq α] (d : α) : KV.wf d ([] : KV α) = true := rfl

theorem KV.keep_wf [DecidableEq α] (d : α) (p : Nat → Bool) (m : KV α) (h : KV.wf d m = true) : KV.wf d (KV.keep p m) = true := by
  induction m with
  | nil => rfl
  | cons e m ih =>
    obtain ⟨k, v⟩ := e
    obtain ⟨h1, h2, h3⟩ := (KV.wf_cons d k v m).1 h
    by_cases hp : p k
    · have : KV.keep p ((k, v) :: m) = (k, v) :: KV.keep p m := by simp [KV.keep, hp]
      rw [this, KV.wf_cons]
      exact ⟨h1, ih h2, fun e he => h3 e (List.mem_filter.1 he).1⟩
    · have : KV.keep p ((k, v) :: m) = KV.keep p m := by simp [KV.keep, hp]
      rw [this]; exact ih h2

theorem KV.erase_wf [DecidableEq α] (d : α) (n : Nat) (m : KV α) (h : KV.wf d m = true) : KV.wf d (KV.erase n m) = true :=
  KV.keep_wf d (fun k => k != n) m h

theorem KV.mem_insert (n : Nat) (v : α) (m : KV α) (e : Nat × α) (h : e ∈ KV.insert n v m) : e = (n, v) ∨ e ∈ m := by
  induction m with
  | nil => simpa [KV.insert] using h
  | cons f m ih =>
    obtain ⟨k, w⟩ := f
    unfold KV.insert at h
    split at h
    · simpa using h
    · split at h
      · rcases List.mem_cons.1 h with h | h
        · exact .inl h
        · exact .inr (by simp [h])
      · rcases List.mem_cons.1 h with h | h
        · exact .inr (by simp [h])
        · rcases ih h with h | h
          · exact .inl h
          · exact .inr (by simp [h])

theorem KV.insert_wf [DecidableEq α] (d : α) (n : Nat) (v : α) (hv : v ≠ d) (m : KV α) (h : KV.wf d m = true) :
    KV.wf d (KV.insert n v m) = true := by
  induction m with
  | nil => simp [KV.insert, KV.wf, hv]
  | cons e m ih =>
    obtain ⟨k, w⟩ := e
    obtain ⟨h1, h2, h3⟩ := (KV.wf_cons d k w m).1 h
    unfold KV.insert
    split
    · next hn =>
      rw [KV.wf_cons]
      refine ⟨hv, h, fun e he => ?_⟩
      rcases List.mem_cons.1 he with rfl | he
      · exact hn
      · exact lt_trans hn (h3 e he)
    · split
      · next hn => subst hn; rw [KV.wf_cons]; exact ⟨hv, h2, h3⟩
      · next hn1 hn2 =>
        rw [KV.wf_cons]
        refine ⟨h1, ih h2, fun e he => ?_⟩
        rcases KV.mem_insert n v m e he with rfl | he
        · show k < n; omega
        · exact h3 e he

theorem KV.set_wf [DecidableEq α] (d : α) (m : KV α) (n : Nat) (v : α) (h : KV.wf d m = true) : KV.wf d (KV.set d m n v) = true := by
  unfold KV.set
  split
  · exact KV.erase_wf d n m h
  · next hv => exact KV.insert_wf d n v hv _ (KV.erase_wf d n m h)

theorem KV.setAll_wf [DecidableEq α] (d : α) (vs : List α) : ∀ (m : KV α) (n : Nat), KV.wf d m = true → KV.wf d (KV.setAll d m n vs) = true := by
  induction vs with
  | nil => intro m n h; exact h
  | cons v vs ih => intro m n h; exact ih _ _ (KV.set_wf d m n v h)

theorem KV.remap_wf [DecidableEq α] (d : α) (f : Nat → α → α) (m : KV α) (h : KV.wf d m = true) : KV.wf d (KV.remap d m f) = true := by
  induction m with
  | nil => rfl
  | cons e m ih =>
    obtain ⟨k, v⟩ := e
    obtain ⟨_, h2, h3⟩ := (KV.wf_cons d k v m).1 h
    by_cases hf : f k v = d
    · have : KV.remap d ((k, v) :: m) f = KV.remap d m f := by simp [KV.remap, hf]
      rw [this]; exact ih h2
    · have : KV.remap d ((k, v) :: m) f = (k, f k v) :: KV.remap d m f := by simp [KV.remap, hf]
      rw [this, KV.wf_cons]
      refine ⟨hf, ih h2, fun e he => ?_⟩
      simp only [KV.remap, List.mem_filter, List.mem_map] at he
      obtain ⟨⟨e', he', rfl⟩, _⟩ := he
      exact h3 e' he'

/-- The bytes of a block written at consecutive keys are read back, and every other key reads as before. -/
theorem KV.erase_insert (n : Nat) (v : α) (m : KV α) : KV.erase n (KV.insert n v m) = KV.erase n m := by
  induction m with
  | nil => simp [KV.insert, KV.erase]
  | cons e m ih =>
    obtain ⟨k, w⟩ := e
    simp only [KV.insert]
    split
    · simp [KV.erase]
    · split
      · next h => simp [KV.erase, h]
      · simp only [KV.erase, List.filter_cons] at ih ⊢
        rw [ih]

theorem KV.erase_erase (n : Nat) (m : KV α) : KV.erase n (KV.erase n m) = KV.erase n m := by
  simp [KV.erase, List.filter_filter]

/-- Of two values set at one key the second stands. -/
@[simp] theorem KV.set_set [DecidableEq α] (d : α) (m : KV α) (n : Nat) (v w : α) : KV.set d (KV.set d m n w) n v = KV.set d m n v := by
  have h : KV.erase n (KV.set d m n w) = KV.erase n m := by
    simp only [KV.set]; split <;> simp [KV.erase_insert, KV.erase_erase]
  rw [KV.set, h, KV.set]

theorem KV.get_setAll [DecidableEq α] (d : α) (vs : List α) : ∀ (m : KV α) (n i : Nat),
    KV.get d (KV.setAll d m n vs) i = if n ≤ i ∧ i < n + vs.length then vs.getD (i - n) d else KV.get d m i := by
  induction vs with
  | nil =>
    intro m n i
    have : ¬ (n ≤ i ∧ i < n + ([] : List α).length) := by simp
    rw [if_neg this]; rfl
  | cons v vs ih =>
    intro m n i
    rw [KV.setAll, ih, KV.get_set]
    by_cases h0 : i = n
    · subst h0
      have h1 : ¬ (i + 1 ≤ i ∧ i < i + 1 + vs.length) := by omega
      rw [if_neg h1]; simp
    · by_cases h1 : n + 1 ≤ i ∧ i < n + 1 + vs.length
      · have h2 : n ≤ i ∧ i < n + (v :: vs).length := by simp; omega
        rw [if_pos h1, if_pos h2]
        obtain ⟨j, hj⟩ : ∃ j, i - n = j + 1 := ⟨i - n - 1, by omega⟩
        have : i - (n + 1) = j := by omega
        simp [hj, this]
      · have h2 : ¬ (n ≤ i ∧ i < n + (v :: vs).length) := by simp; omega
        rw [if_neg h1, if_neg h2]; simp [h0]

end Sys2Proof.Machine
end

