-- ==== Sys2Proof/Laws/State.lean ====
section
/-! SUPPORT. What the named updates of the state and of an engine leave unchanged: one lemma per field and update. -/
namespace Sys2Proof.Machine

variable (s : State) (c : Core)

@[simp] theorem State.pending_wr (r : Reg) (v : W64) : (s.wr r v).pending = s.pending := rfl
@[simp] theorem State.fresh_wr (r : Reg) (v : W64) : (s.wr r v).fresh = s.fresh := rfl
@[simp] theorem State.mtime_wr (r : Reg) (v : W64) : (s.wr r v).mtime = s.mtime := rfl
@[simp] theorem State.mtFrac_wr (r : Reg) (v : W64) : (s.wr r v).mtFrac = s.mtFrac := rfl
@[simp] theorem State.st_wr (r : Reg) (v : W64) : (s.wr r v).st = s.st := rfl
@[simp] theorem State.otp_wr (r : Reg) (v : W64) : (s.wr r v).otp = s.otp := rfl
@[simp] theorem State.cores_wr (r : Reg) (v : W64) : (s.wr r v).cores = s.cores := rfl
@[simp] theorem State.lines_wr (r : Reg) (v : W64) : (s.wr r v).lines = s.lines := rfl
@[simp] theorem State.lfsr_wr (r : Reg) (v : W64) : (s.wr r v).lfsr = s.lfsr := rfl
@[simp] theorem State.ageErr_wr (r : Reg) (v : W64) : (s.wr r v).ageErr = s.ageErr := rfl
@[simp] theorem State.dieAt_wr (r : Reg) (v : W64) : (s.wr r v).dieAt = s.dieAt := rfl
@[simp] theorem State.leaving_wr (r : Reg) (v : W64) : (s.wr r v).leaving = s.leaving := rfl
@[simp] theorem State.l2pf_wr (r : Reg) (v : W64) : (s.wr r v).l2pf = s.l2pf := rfl
@[simp] theorem State.skid_wr (r : Reg) (v : W64) : (s.wr r v).skid = s.skid := rfl
@[simp] theorem State.dir_wr (r : Reg) (v : W64) : (s.wr r v).dir = s.dir := rfl
@[simp] theorem State.homes_wr (r : Reg) (v : W64) : (s.wr r v).homes = s.homes := rfl
@[simp] theorem State.net_wr (r : Reg) (v : W64) : (s.wr r v).net = s.net := rfl
@[simp] theorem State.wants_wr (r : Reg) (v : W64) : (s.wr r v).wants = s.wants := rfl
@[simp] theorem State.fab_wr (r : Reg) (v : W64) : (s.wr r v).fab = s.fab := rfl
@[simp] theorem State.groups_wr (r : Reg) (v : W64) : (s.wr r v).groups = s.groups := rfl
@[simp] theorem State.ports_wr (r : Reg) (v : W64) : (s.wr r v).ports = s.ports := rfl
@[simp] theorem State.lay_wr (r : Reg) (v : W64) : (s.wr r v).lay = s.lay := rfl
@[simp] theorem State.trust_wr (r : Reg) (v : W64) : (s.wr r v).trust = s.trust := rfl
@[simp] theorem State.fw_wr (r : Reg) (v : W64) : (s.wr r v).fw = s.fw := rfl
@[simp] theorem State.elog_wr (r : Reg) (v : W64) : (s.wr r v).elog = s.elog := rfl
@[simp] theorem State.lko_wr (r : Reg) (v : W64) : (s.wr r v).lko = s.lko := rfl
@[simp] theorem State.car_wr (r : Reg) (v : W64) : (s.wr r v).car = s.car := rfl
@[simp] theorem State.pwr_wr (r : Reg) (v : W64) : (s.wr r v).pwr = s.pwr := rfl
@[simp] theorem State.clk_wr (r : Reg) (v : W64) : (s.wr r v).clk = s.clk := rfl
@[simp] theorem State.test_wr (r : Reg) (v : W64) : (s.wr r v).test = s.test := rfl
@[simp] theorem State.dbg_wr (r : Reg) (v : W64) : (s.wr r v).dbg = s.dbg := rfl
@[simp] theorem State.tal_wr (r : Reg) (v : W64) : (s.wr r v).tal = s.tal := rfl
@[simp] theorem State.vn_wr (r : Reg) (v : W64) : (s.wr r v).vn = s.vn := rfl

@[simp] theorem State.pending_putFld (r : Reg) (f : Field) (n : Nat) : (s.putFld r f n).pending = s.pending := rfl
@[simp] theorem State.fresh_putFld (r : Reg) (f : Field) (n : Nat) : (s.putFld r f n).fresh = s.fresh := rfl
@[simp] theorem State.mtime_putFld (r : Reg) (f : Field) (n : Nat) : (s.putFld r f n).mtime = s.mtime := rfl
@[simp] theorem State.mtFrac_putFld (r : Reg) (f : Field) (n : Nat) : (s.putFld r f n).mtFrac = s.mtFrac := rfl
@[simp] theorem State.st_putFld (r : Reg) (f : Field) (n : Nat) : (s.putFld r f n).st = s.st := rfl
@[simp] theorem State.otp_putFld (r : Reg) (f : Field) (n : Nat) : (s.putFld r f n).otp = s.otp := rfl
@[simp] theorem State.cores_putFld (r : Reg) (f : Field) (n : Nat) : (s.putFld r f n).cores = s.cores := rfl
@[simp] theorem State.lines_putFld (r : Reg) (f : Field) (n : Nat) : (s.putFld r f n).lines = s.lines := rfl
@[simp] theorem State.lfsr_putFld (r : Reg) (f : Field) (n : Nat) : (s.putFld r f n).lfsr = s.lfsr := rfl
@[simp] theorem State.ageErr_putFld (r : Reg) (f : Field) (n : Nat) : (s.putFld r f n).ageErr = s.ageErr := rfl
@[simp] theorem State.dieAt_putFld (r : Reg) (f : Field) (n : Nat) : (s.putFld r f n).dieAt = s.dieAt := rfl
@[simp] theorem State.leaving_putFld (r : Reg) (f : Field) (n : Nat) : (s.putFld r f n).leaving = s.leaving := rfl
@[simp] theorem State.l2pf_putFld (r : Reg) (f : Field) (n : Nat) : (s.putFld r f n).l2pf = s.l2pf := rfl
@[simp] theorem State.skid_putFld (r : Reg) (f : Field) (n : Nat) : (s.putFld r f n).skid = s.skid := rfl
@[simp] theorem State.dir_putFld (r : Reg) (f : Field) (n : Nat) : (s.putFld r f n).dir = s.dir := rfl
@[simp] theorem State.homes_putFld (r : Reg) (f : Field) (n : Nat) : (s.putFld r f n).homes = s.homes := rfl
@[simp] theorem State.net_putFld (r : Reg) (f : Field) (n : Nat) : (s.putFld r f n).net = s.net := rfl
@[simp] theorem State.wants_putFld (r : Reg) (f : Field) (n : Nat) : (s.putFld r f n).wants = s.wants := rfl
@[simp] theorem State.fab_putFld (r : Reg) (f : Field) (n : Nat) : (s.putFld r f n).fab = s.fab := rfl
@[simp] theorem State.groups_putFld (r : Reg) (f : Field) (n : Nat) : (s.putFld r f n).groups = s.groups := rfl
@[simp] theorem State.ports_putFld (r : Reg) (f : Field) (n : Nat) : (s.putFld r f n).ports = s.ports := rfl
@[simp] theorem State.lay_putFld (r : Reg) (f : Field) (n : Nat) : (s.putFld r f n).lay = s.lay := rfl
@[simp] theorem State.trust_putFld (r : Reg) (f : Field) (n : Nat) : (s.putFld r f n).trust = s.trust := rfl
@[simp] theorem State.fw_putFld (r : Reg) (f : Field) (n : Nat) : (s.putFld r f n).fw = s.fw := rfl
@[simp] theorem State.elog_putFld (r : Reg) (f : Field) (n : Nat) : (s.putFld r f n).elog = s.elog := rfl
@[simp] theorem State.lko_putFld (r : Reg) (f : Field) (n : Nat) : (s.putFld r f n).lko = s.lko := rfl
@[simp] theorem State.car_putFld (r : Reg) (f : Field) (n : Nat) : (s.putFld r f n).car = s.car := rfl
@[simp] theorem State.pwr_putFld (r : Reg) (f : Field) (n : Nat) : (s.putFld r f n).pwr = s.pwr := rfl
@[simp] theorem State.clk_putFld (r : Reg) (f : Field) (n : Nat) : (s.putFld r f n).clk = s.clk := rfl
@[simp] theorem State.test_putFld (r : Reg) (f : Field) (n : Nat) : (s.putFld r f n).test = s.test := rfl
@[simp] theorem State.dbg_putFld (r : Reg) (f : Field) (n : Nat) : (s.putFld r f n).dbg = s.dbg := rfl
@[simp] theorem State.tal_putFld (r : Reg) (f : Field) (n : Nat) : (s.putFld r f n).tal = s.tal := rfl
@[simp] theorem State.vn_putFld (r : Reg) (f : Field) (n : Nat) : (s.putFld r f n).vn = s.vn := rfl

@[simp] theorem State.pending_putFlag (r : Reg) (f : Field) (b : Bool) : (s.putFlag r f b).pending = s.pending := rfl
@[simp] theorem State.fresh_putFlag (r : Reg) (f : Field) (b : Bool) : (s.putFlag r f b).fresh = s.fresh := rfl
@[simp] theorem State.mtime_putFlag (r : Reg) (f : Field) (b : Bool) : (s.putFlag r f b).mtime = s.mtime := rfl
@[simp] theorem State.mtFrac_putFlag (r : Reg) (f : Field) (b : Bool) : (s.putFlag r f b).mtFrac = s.mtFrac := rfl
@[simp] theorem State.st_putFlag (r : Reg) (f : Field) (b : Bool) : (s.putFlag r f b).st = s.st := rfl
@[simp] theorem State.otp_putFlag (r : Reg) (f : Field) (b : Bool) : (s.putFlag r f b).otp = s.otp := rfl
@[simp] theorem State.cores_putFlag (r : Reg) (f : Field) (b : Bool) : (s.putFlag r f b).cores = s.cores := rfl
@[simp] theorem State.lines_putFlag (r : Reg) (f : Field) (b : Bool) : (s.putFlag r f b).lines = s.lines := rfl
@[simp] theorem State.lfsr_putFlag (r : Reg) (f : Field) (b : Bool) : (s.putFlag r f b).lfsr = s.lfsr := rfl
@[simp] theorem State.ageErr_putFlag (r : Reg) (f : Field) (b : Bool) : (s.putFlag r f b).ageErr = s.ageErr := rfl
@[simp] theorem State.dieAt_putFlag (r : Reg) (f : Field) (b : Bool) : (s.putFlag r f b).dieAt = s.dieAt := rfl
@[simp] theorem State.leaving_putFlag (r : Reg) (f : Field) (b : Bool) : (s.putFlag r f b).leaving = s.leaving := rfl
@[simp] theorem State.l2pf_putFlag (r : Reg) (f : Field) (b : Bool) : (s.putFlag r f b).l2pf = s.l2pf := rfl
@[simp] theorem State.skid_putFlag (r : Reg) (f : Field) (b : Bool) : (s.putFlag r f b).skid = s.skid := rfl
@[simp] theorem State.dir_putFlag (r : Reg) (f : Field) (b : Bool) : (s.putFlag r f b).dir = s.dir := rfl
@[simp] theorem State.homes_putFlag (r : Reg) (f : Field) (b : Bool) : (s.putFlag r f b).homes = s.homes := rfl
@[simp] theorem State.net_putFlag (r : Reg) (f : Field) (b : Bool) : (s.putFlag r f b).net = s.net := rfl
@[simp] theorem State.wants_putFlag (r : Reg) (f : Field) (b : Bool) : (s.putFlag r f b).wants = s.wants := rfl
@[simp] theorem State.fab_putFlag (r : Reg) (f : Field) (b : Bool) : (s.putFlag r f b).fab = s.fab := rfl
@[simp] theorem State.groups_putFlag (r : Reg) (f : Field) (b : Bool) : (s.putFlag r f b).groups = s.groups := rfl
@[simp] theorem State.ports_putFlag (r : Reg) (f : Field) (b : Bool) : (s.putFlag r f b).ports = s.ports := rfl
@[simp] theorem State.lay_putFlag (r : Reg) (f : Field) (b : Bool) : (s.putFlag r f b).lay = s.lay := rfl
@[simp] theorem State.trust_putFlag (r : Reg) (f : Field) (b : Bool) : (s.putFlag r f b).trust = s.trust := rfl
@[simp] theorem State.fw_putFlag (r : Reg) (f : Field) (b : Bool) : (s.putFlag r f b).fw = s.fw := rfl
@[simp] theorem State.elog_putFlag (r : Reg) (f : Field) (b : Bool) : (s.putFlag r f b).elog = s.elog := rfl
@[simp] theorem State.lko_putFlag (r : Reg) (f : Field) (b : Bool) : (s.putFlag r f b).lko = s.lko := rfl
@[simp] theorem State.car_putFlag (r : Reg) (f : Field) (b : Bool) : (s.putFlag r f b).car = s.car := rfl
@[simp] theorem State.pwr_putFlag (r : Reg) (f : Field) (b : Bool) : (s.putFlag r f b).pwr = s.pwr := rfl
@[simp] theorem State.clk_putFlag (r : Reg) (f : Field) (b : Bool) : (s.putFlag r f b).clk = s.clk := rfl
@[simp] theorem State.test_putFlag (r : Reg) (f : Field) (b : Bool) : (s.putFlag r f b).test = s.test := rfl
@[simp] theorem State.dbg_putFlag (r : Reg) (f : Field) (b : Bool) : (s.putFlag r f b).dbg = s.dbg := rfl
@[simp] theorem State.tal_putFlag (r : Reg) (f : Field) (b : Bool) : (s.putFlag r f b).tal = s.tal := rfl
@[simp] theorem State.vn_putFlag (r : Reg) (f : Field) (b : Bool) : (s.putFlag r f b).vn = s.vn := rfl

@[simp] theorem State.pending_bump (r : Reg) (f : Field) (n : Nat) : (s.bump r f n).pending = s.pending := rfl
@[simp] theorem State.fresh_bump (r : Reg) (f : Field) (n : Nat) : (s.bump r f n).fresh = s.fresh := rfl
@[simp] theorem State.mtime_bump (r : Reg) (f : Field) (n : Nat) : (s.bump r f n).mtime = s.mtime := rfl
@[simp] theorem State.mtFrac_bump (r : Reg) (f : Field) (n : Nat) : (s.bump r f n).mtFrac = s.mtFrac := rfl
@[simp] theorem State.st_bump (r : Reg) (f : Field) (n : Nat) : (s.bump r f n).st = s.st := rfl
@[simp] theorem State.otp_bump (r : Reg) (f : Field) (n : Nat) : (s.bump r f n).otp = s.otp := rfl
@[simp] theorem State.cores_bump (r : Reg) (f : Field) (n : Nat) : (s.bump r f n).cores = s.cores := rfl
@[simp] theorem State.lines_bump (r : Reg) (f : Field) (n : Nat) : (s.bump r f n).lines = s.lines := rfl
@[simp] theorem State.lfsr_bump (r : Reg) (f : Field) (n : Nat) : (s.bump r f n).lfsr = s.lfsr := rfl
@[simp] theorem State.ageErr_bump (r : Reg) (f : Field) (n : Nat) : (s.bump r f n).ageErr = s.ageErr := rfl
@[simp] theorem State.dieAt_bump (r : Reg) (f : Field) (n : Nat) : (s.bump r f n).dieAt = s.dieAt := rfl
@[simp] theorem State.leaving_bump (r : Reg) (f : Field) (n : Nat) : (s.bump r f n).leaving = s.leaving := rfl
@[simp] theorem State.l2pf_bump (r : Reg) (f : Field) (n : Nat) : (s.bump r f n).l2pf = s.l2pf := rfl
@[simp] theorem State.skid_bump (r : Reg) (f : Field) (n : Nat) : (s.bump r f n).skid = s.skid := rfl
@[simp] theorem State.dir_bump (r : Reg) (f : Field) (n : Nat) : (s.bump r f n).dir = s.dir := rfl
@[simp] theorem State.homes_bump (r : Reg) (f : Field) (n : Nat) : (s.bump r f n).homes = s.homes := rfl
@[simp] theorem State.net_bump (r : Reg) (f : Field) (n : Nat) : (s.bump r f n).net = s.net := rfl
@[simp] theorem State.wants_bump (r : Reg) (f : Field) (n : Nat) : (s.bump r f n).wants = s.wants := rfl
@[simp] theorem State.fab_bump (r : Reg) (f : Field) (n : Nat) : (s.bump r f n).fab = s.fab := rfl
@[simp] theorem State.groups_bump (r : Reg) (f : Field) (n : Nat) : (s.bump r f n).groups = s.groups := rfl
@[simp] theorem State.ports_bump (r : Reg) (f : Field) (n : Nat) : (s.bump r f n).ports = s.ports := rfl
@[simp] theorem State.lay_bump (r : Reg) (f : Field) (n : Nat) : (s.bump r f n).lay = s.lay := rfl
@[simp] theorem State.trust_bump (r : Reg) (f : Field) (n : Nat) : (s.bump r f n).trust = s.trust := rfl
@[simp] theorem State.fw_bump (r : Reg) (f : Field) (n : Nat) : (s.bump r f n).fw = s.fw := rfl
@[simp] theorem State.elog_bump (r : Reg) (f : Field) (n : Nat) : (s.bump r f n).elog = s.elog := rfl
@[simp] theorem State.lko_bump (r : Reg) (f : Field) (n : Nat) : (s.bump r f n).lko = s.lko := rfl
@[simp] theorem State.car_bump (r : Reg) (f : Field) (n : Nat) : (s.bump r f n).car = s.car := rfl
@[simp] theorem State.pwr_bump (r : Reg) (f : Field) (n : Nat) : (s.bump r f n).pwr = s.pwr := rfl
@[simp] theorem State.clk_bump (r : Reg) (f : Field) (n : Nat) : (s.bump r f n).clk = s.clk := rfl
@[simp] theorem State.test_bump (r : Reg) (f : Field) (n : Nat) : (s.bump r f n).test = s.test := rfl
@[simp] theorem State.dbg_bump (r : Reg) (f : Field) (n : Nat) : (s.bump r f n).dbg = s.dbg := rfl
@[simp] theorem State.tal_bump (r : Reg) (f : Field) (n : Nat) : (s.bump r f n).tal = s.tal := rfl
@[simp] theorem State.vn_bump (r : Reg) (f : Field) (n : Nat) : (s.bump r f n).vn = s.vn := rfl

@[simp] theorem State.pending_putBit (r : Reg) (f : Field) (n : Nat) (b : Bool) : (s.putBit r f n b).pending = s.pending := rfl
@[simp] theorem State.fresh_putBit (r : Reg) (f : Field) (n : Nat) (b : Bool) : (s.putBit r f n b).fresh = s.fresh := rfl
@[simp] theorem State.mtime_putBit (r : Reg) (f : Field) (n : Nat) (b : Bool) : (s.putBit r f n b).mtime = s.mtime := rfl
@[simp] theorem State.mtFrac_putBit (r : Reg) (f : Field) (n : Nat) (b : Bool) : (s.putBit r f n b).mtFrac = s.mtFrac := rfl
@[simp] theorem State.st_putBit (r : Reg) (f : Field) (n : Nat) (b : Bool) : (s.putBit r f n b).st = s.st := rfl
@[simp] theorem State.otp_putBit (r : Reg) (f : Field) (n : Nat) (b : Bool) : (s.putBit r f n b).otp = s.otp := rfl
@[simp] theorem State.cores_putBit (r : Reg) (f : Field) (n : Nat) (b : Bool) : (s.putBit r f n b).cores = s.cores := rfl
@[simp] theorem State.lines_putBit (r : Reg) (f : Field) (n : Nat) (b : Bool) : (s.putBit r f n b).lines = s.lines := rfl
@[simp] theorem State.lfsr_putBit (r : Reg) (f : Field) (n : Nat) (b : Bool) : (s.putBit r f n b).lfsr = s.lfsr := rfl
@[simp] theorem State.ageErr_putBit (r : Reg) (f : Field) (n : Nat) (b : Bool) : (s.putBit r f n b).ageErr = s.ageErr := rfl
@[simp] theorem State.dieAt_putBit (r : Reg) (f : Field) (n : Nat) (b : Bool) : (s.putBit r f n b).dieAt = s.dieAt := rfl
@[simp] theorem State.leaving_putBit (r : Reg) (f : Field) (n : Nat) (b : Bool) : (s.putBit r f n b).leaving = s.leaving := rfl
@[simp] theorem State.l2pf_putBit (r : Reg) (f : Field) (n : Nat) (b : Bool) : (s.putBit r f n b).l2pf = s.l2pf := rfl
@[simp] theorem State.skid_putBit (r : Reg) (f : Field) (n : Nat) (b : Bool) : (s.putBit r f n b).skid = s.skid := rfl
@[simp] theorem State.dir_putBit (r : Reg) (f : Field) (n : Nat) (b : Bool) : (s.putBit r f n b).dir = s.dir := rfl
@[simp] theorem State.homes_putBit (r : Reg) (f : Field) (n : Nat) (b : Bool) : (s.putBit r f n b).homes = s.homes := rfl
@[simp] theorem State.net_putBit (r : Reg) (f : Field) (n : Nat) (b : Bool) : (s.putBit r f n b).net = s.net := rfl
@[simp] theorem State.wants_putBit (r : Reg) (f : Field) (n : Nat) (b : Bool) : (s.putBit r f n b).wants = s.wants := rfl
@[simp] theorem State.fab_putBit (r : Reg) (f : Field) (n : Nat) (b : Bool) : (s.putBit r f n b).fab = s.fab := rfl
@[simp] theorem State.groups_putBit (r : Reg) (f : Field) (n : Nat) (b : Bool) : (s.putBit r f n b).groups = s.groups := rfl
@[simp] theorem State.ports_putBit (r : Reg) (f : Field) (n : Nat) (b : Bool) : (s.putBit r f n b).ports = s.ports := rfl
@[simp] theorem State.lay_putBit (r : Reg) (f : Field) (n : Nat) (b : Bool) : (s.putBit r f n b).lay = s.lay := rfl
@[simp] theorem State.trust_putBit (r : Reg) (f : Field) (n : Nat) (b : Bool) : (s.putBit r f n b).trust = s.trust := rfl
@[simp] theorem State.fw_putBit (r : Reg) (f : Field) (n : Nat) (b : Bool) : (s.putBit r f n b).fw = s.fw := rfl
@[simp] theorem State.elog_putBit (r : Reg) (f : Field) (n : Nat) (b : Bool) : (s.putBit r f n b).elog = s.elog := rfl
@[simp] theorem State.lko_putBit (r : Reg) (f : Field) (n : Nat) (b : Bool) : (s.putBit r f n b).lko = s.lko := rfl
@[simp] theorem State.car_putBit (r : Reg) (f : Field) (n : Nat) (b : Bool) : (s.putBit r f n b).car = s.car := rfl
@[simp] theorem State.pwr_putBit (r : Reg) (f : Field) (n : Nat) (b : Bool) : (s.putBit r f n b).pwr = s.pwr := rfl
@[simp] theorem State.clk_putBit (r : Reg) (f : Field) (n : Nat) (b : Bool) : (s.putBit r f n b).clk = s.clk := rfl
@[simp] theorem State.test_putBit (r : Reg) (f : Field) (n : Nat) (b : Bool) : (s.putBit r f n b).test = s.test := rfl
@[simp] theorem State.dbg_putBit (r : Reg) (f : Field) (n : Nat) (b : Bool) : (s.putBit r f n b).dbg = s.dbg := rfl
@[simp] theorem State.tal_putBit (r : Reg) (f : Field) (n : Nat) (b : Bool) : (s.putBit r f n b).tal = s.tal := rfl
@[simp] theorem State.vn_putBit (r : Reg) (f : Field) (n : Nat) (b : Bool) : (s.putBit r f n b).vn = s.vn := rfl

@[simp] theorem State.pending_setCore (e : Engine) (c : Core) : (s.setCore e c).pending = s.pending := rfl
@[simp] theorem State.fresh_setCore (e : Engine) (c : Core) : (s.setCore e c).fresh = s.fresh := rfl
@[simp] theorem State.mtime_setCore (e : Engine) (c : Core) : (s.setCore e c).mtime = s.mtime := rfl
@[simp] theorem State.mtFrac_setCore (e : Engine) (c : Core) : (s.setCore e c).mtFrac = s.mtFrac := rfl
@[simp] theorem State.regs_setCore (e : Engine) (c : Core) : (s.setCore e c).regs = s.regs := rfl
@[simp] theorem State.st_setCore (e : Engine) (c : Core) : (s.setCore e c).st = s.st := rfl
@[simp] theorem State.otp_setCore (e : Engine) (c : Core) : (s.setCore e c).otp = s.otp := rfl
@[simp] theorem State.lines_setCore (e : Engine) (c : Core) : (s.setCore e c).lines = s.lines := rfl
@[simp] theorem State.lfsr_setCore (e : Engine) (c : Core) : (s.setCore e c).lfsr = s.lfsr := rfl
@[simp] theorem State.ageErr_setCore (e : Engine) (c : Core) : (s.setCore e c).ageErr = s.ageErr := rfl
@[simp] theorem State.dieAt_setCore (e : Engine) (c : Core) : (s.setCore e c).dieAt = s.dieAt := rfl
@[simp] theorem State.leaving_setCore (e : Engine) (c : Core) : (s.setCore e c).leaving = s.leaving := rfl
@[simp] theorem State.l2pf_setCore (e : Engine) (c : Core) : (s.setCore e c).l2pf = s.l2pf := rfl
@[simp] theorem State.skid_setCore (e : Engine) (c : Core) : (s.setCore e c).skid = s.skid := rfl
@[simp] theorem State.dir_setCore (e : Engine) (c : Core) : (s.setCore e c).dir = s.dir := rfl
@[simp] theorem State.homes_setCore (e : Engine) (c : Core) : (s.setCore e c).homes = s.homes := rfl
@[simp] theorem State.net_setCore (e : Engine) (c : Core) : (s.setCore e c).net = s.net := rfl
@[simp] theorem State.wants_setCore (e : Engine) (c : Core) : (s.setCore e c).wants = s.wants := rfl
@[simp] theorem State.fab_setCore (e : Engine) (c : Core) : (s.setCore e c).fab = s.fab := rfl
@[simp] theorem State.groups_setCore (e : Engine) (c : Core) : (s.setCore e c).groups = s.groups := rfl
@[simp] theorem State.ports_setCore (e : Engine) (c : Core) : (s.setCore e c).ports = s.ports := rfl
@[simp] theorem State.lay_setCore (e : Engine) (c : Core) : (s.setCore e c).lay = s.lay := rfl
@[simp] theorem State.trust_setCore (e : Engine) (c : Core) : (s.setCore e c).trust = s.trust := rfl
@[simp] theorem State.fw_setCore (e : Engine) (c : Core) : (s.setCore e c).fw = s.fw := rfl
@[simp] theorem State.elog_setCore (e : Engine) (c : Core) : (s.setCore e c).elog = s.elog := rfl
@[simp] theorem State.lko_setCore (e : Engine) (c : Core) : (s.setCore e c).lko = s.lko := rfl
@[simp] theorem State.car_setCore (e : Engine) (c : Core) : (s.setCore e c).car = s.car := rfl
@[simp] theorem State.pwr_setCore (e : Engine) (c : Core) : (s.setCore e c).pwr = s.pwr := rfl
@[simp] theorem State.clk_setCore (e : Engine) (c : Core) : (s.setCore e c).clk = s.clk := rfl
@[simp] theorem State.test_setCore (e : Engine) (c : Core) : (s.setCore e c).test = s.test := rfl
@[simp] theorem State.dbg_setCore (e : Engine) (c : Core) : (s.setCore e c).dbg = s.dbg := rfl
@[simp] theorem State.tal_setCore (e : Engine) (c : Core) : (s.setCore e c).tal = s.tal := rfl
@[simp] theorem State.vn_setCore (e : Engine) (c : Core) : (s.setCore e c).vn = s.vn := rfl

@[simp] theorem State.pending_setLc (l : Nat) (c : Core) : (s.setLc l c).pending = s.pending := rfl
@[simp] theorem State.fresh_setLc (l : Nat) (c : Core) : (s.setLc l c).fresh = s.fresh := rfl
@[simp] theorem State.mtime_setLc (l : Nat) (c : Core) : (s.setLc l c).mtime = s.mtime := rfl
@[simp] theorem State.mtFrac_setLc (l : Nat) (c : Core) : (s.setLc l c).mtFrac = s.mtFrac := rfl
@[simp] theorem State.regs_setLc (l : Nat) (c : Core) : (s.setLc l c).regs = s.regs := rfl
@[simp] theorem State.st_setLc (l : Nat) (c : Core) : (s.setLc l c).st = s.st := rfl
@[simp] theorem State.otp_setLc (l : Nat) (c : Core) : (s.setLc l c).otp = s.otp := rfl
@[simp] theorem State.lines_setLc (l : Nat) (c : Core) : (s.setLc l c).lines = s.lines := rfl
@[simp] theorem State.lfsr_setLc (l : Nat) (c : Core) : (s.setLc l c).lfsr = s.lfsr := rfl
@[simp] theorem State.ageErr_setLc (l : Nat) (c : Core) : (s.setLc l c).ageErr = s.ageErr := rfl
@[simp] theorem State.dieAt_setLc (l : Nat) (c : Core) : (s.setLc l c).dieAt = s.dieAt := rfl
@[simp] theorem State.leaving_setLc (l : Nat) (c : Core) : (s.setLc l c).leaving = s.leaving := rfl
@[simp] theorem State.l2pf_setLc (l : Nat) (c : Core) : (s.setLc l c).l2pf = s.l2pf := rfl
@[simp] theorem State.skid_setLc (l : Nat) (c : Core) : (s.setLc l c).skid = s.skid := rfl
@[simp] theorem State.dir_setLc (l : Nat) (c : Core) : (s.setLc l c).dir = s.dir := rfl
@[simp] theorem State.homes_setLc (l : Nat) (c : Core) : (s.setLc l c).homes = s.homes := rfl
@[simp] theorem State.net_setLc (l : Nat) (c : Core) : (s.setLc l c).net = s.net := rfl
@[simp] theorem State.wants_setLc (l : Nat) (c : Core) : (s.setLc l c).wants = s.wants := rfl
@[simp] theorem State.fab_setLc (l : Nat) (c : Core) : (s.setLc l c).fab = s.fab := rfl
@[simp] theorem State.groups_setLc (l : Nat) (c : Core) : (s.setLc l c).groups = s.groups := rfl
@[simp] theorem State.ports_setLc (l : Nat) (c : Core) : (s.setLc l c).ports = s.ports := rfl
@[simp] theorem State.lay_setLc (l : Nat) (c : Core) : (s.setLc l c).lay = s.lay := rfl
@[simp] theorem State.trust_setLc (l : Nat) (c : Core) : (s.setLc l c).trust = s.trust := rfl
@[simp] theorem State.fw_setLc (l : Nat) (c : Core) : (s.setLc l c).fw = s.fw := rfl
@[simp] theorem State.elog_setLc (l : Nat) (c : Core) : (s.setLc l c).elog = s.elog := rfl
@[simp] theorem State.lko_setLc (l : Nat) (c : Core) : (s.setLc l c).lko = s.lko := rfl
@[simp] theorem State.car_setLc (l : Nat) (c : Core) : (s.setLc l c).car = s.car := rfl
@[simp] theorem State.pwr_setLc (l : Nat) (c : Core) : (s.setLc l c).pwr = s.pwr := rfl
@[simp] theorem State.clk_setLc (l : Nat) (c : Core) : (s.setLc l c).clk = s.clk := rfl
@[simp] theorem State.test_setLc (l : Nat) (c : Core) : (s.setLc l c).test = s.test := rfl
@[simp] theorem State.dbg_setLc (l : Nat) (c : Core) : (s.setLc l c).dbg = s.dbg := rfl
@[simp] theorem State.tal_setLc (l : Nat) (c : Core) : (s.setLc l c).tal = s.tal := rfl
@[simp] theorem State.vn_setLc (l : Nat) (c : Core) : (s.setLc l c).vn = s.vn := rfl

@[simp] theorem State.core_setCore_self (e : Engine) (c : Core) : (s.setCore e c).core e = c := by
  simp [State.core, State.setCore]
@[simp] theorem Core.g_setCreg (n : Nat) (v : W64) : (c.setCreg n v).g = c.g := rfl
@[simp] theorem Core.f_setCreg (n : Nat) (v : W64) : (c.setCreg n v).f = c.f := rfl
@[simp] theorem Core.pc_setCreg (n : Nat) (v : W64) : (c.setCreg n v).pc = c.pc := rfl
@[simp] theorem Core.inflight_setCreg (n : Nat) (v : W64) : (c.setCreg n v).inflight = c.inflight := rfl
@[simp] theorem Core.cyc_setCreg (n : Nat) (v : W64) : (c.setCreg n v).cyc = c.cyc := rfl
@[simp] theorem Core.nxt_setCreg (n : Nat) (v : W64) : (c.setCreg n v).nxt = c.nxt := rfl
@[simp] theorem Core.group_setCreg (n : Nat) (v : W64) : (c.setCreg n v).group = c.group := rfl
@[simp] theorem Core.shadow_setCreg (n : Nat) (v : W64) : (c.setCreg n v).shadow = c.shadow := rfl
@[simp] theorem Core.oldCr_setCreg (n : Nat) (v : W64) : (c.setCreg n v).oldCr = c.oldCr := rfl
@[simp] theorem Core.frozen_setCreg (n : Nat) (v : W64) : (c.setCreg n v).frozen = c.frozen := rfl
@[simp] theorem Core.wait_setCreg (n : Nat) (v : W64) : (c.setCreg n v).wait = c.wait := rfl
@[simp] theorem Core.exc_setCreg (n : Nat) (v : W64) : (c.setCreg n v).exc = c.exc := rfl
@[simp] theorem Core.sbuf_setCreg (n : Nat) (v : W64) : (c.setCreg n v).sbuf = c.sbuf := rfl
@[simp] theorem Core.devOut_setCreg (n : Nat) (v : W64) : (c.setCreg n v).devOut = c.devOut := rfl
@[simp] theorem Core.resv_setCreg (n : Nat) (v : W64) : (c.setCreg n v).resv = c.resv := rfl
@[simp] theorem Core.repHit_setCreg (n : Nat) (v : W64) : (c.setCreg n v).repHit = c.repHit := rfl
@[simp] theorem Core.repOn_setCreg (n : Nat) (v : W64) : (c.setCreg n v).repOn = c.repOn := rfl
@[simp] theorem Core.lostStore_setCreg (n : Nat) (v : W64) : (c.setCreg n v).lostStore = c.lostStore := rfl
@[simp] theorem Core.recovery_setCreg (n : Nat) (v : W64) : (c.setCreg n v).recovery = c.recovery := rfl
@[simp] theorem Core.privPend_setCreg (n : Nat) (v : W64) : (c.setCreg n v).privPend = c.privPend := rfl
@[simp] theorem Core.privAct_setCreg (n : Nat) (v : W64) : (c.setCreg n v).privAct = c.privAct := rfl
@[simp] theorem Core.pred_setCreg (n : Nat) (v : W64) : (c.setCreg n v).pred = c.pred := rfl
@[simp] theorem Core.ftlb_setCreg (n : Nat) (v : W64) : (c.setCreg n v).ftlb = c.ftlb := rfl
@[simp] theorem Core.dtlb_setCreg (n : Nat) (v : W64) : (c.setCreg n v).dtlb = c.dtlb := rfl
@[simp] theorem Core.stlb_setCreg (n : Nat) (v : W64) : (c.setCreg n v).stlb = c.stlb := rfl
@[simp] theorem Core.stride_setCreg (n : Nat) (v : W64) : (c.setCreg n v).stride = c.stride := rfl
@[simp] theorem Core.win_setCreg (n : Nat) (v : W64) : (c.setCreg n v).win = c.win := rfl
@[simp] theorem Core.run_setCreg (n : Nat) (v : W64) : (c.setCreg n v).run = c.run := rfl
@[simp] theorem Core.halted_setCreg (n : Nat) (v : W64) : (c.setCreg n v).halted = c.halted := rfl
@[simp] theorem Core.haltPend_setCreg (n : Nat) (v : W64) : (c.setCreg n v).haltPend = c.haltPend := rfl
@[simp] theorem Core.stepFree_setCreg (n : Nat) (v : W64) : (c.setCreg n v).stepFree = c.stepFree := rfl
@[simp] theorem Core.afterEret_setCreg (n : Nat) (v : W64) : (c.setCreg n v).afterEret = c.afterEret := rfl
@[simp] theorem Core.atVec_setCreg (n : Nat) (v : W64) : (c.setCreg n v).atVec = c.atVec := rfl
@[simp] theorem Core.fpEnd_setCreg (n : Nat) (v : W64) : (c.setCreg n v).fpEnd = c.fpEnd := rfl
@[simp] theorem Core.pausing_setCreg (n : Nat) (v : W64) : (c.setCreg n v).pausing = c.pausing := rfl
@[simp] theorem Core.live_setCreg (n : Nat) (v : W64) : (c.setCreg n v).live = c.live := rfl
@[simp] theorem Core.owed_setCreg (n : Nat) (v : W64) : (c.setCreg n v).owed = c.owed := rfl
@[simp] theorem Core.cntPid_setCreg (n : Nat) (v : W64) : (c.setCreg n v).cntPid = c.cntPid := rfl
@[simp] theorem Core.sel_setCreg (n : Nat) (v : W64) : (c.setCreg n v).sel = c.sel := rfl
@[simp] theorem Core.selH_setCreg (n : Nat) (v : W64) : (c.setCreg n v).selH = c.selH := rfl
@[simp] theorem Core.stash_setCreg (n : Nat) (v : W64) : (c.setCreg n v).stash = c.stash := rfl
@[simp] theorem Core.place_setCreg (n : Nat) (v : W64) : (c.setCreg n v).place = c.place := rfl
@[simp] theorem Core.duty_setCreg (n : Nat) (v : W64) : (c.setCreg n v).duty = c.duty := rfl
@[simp] theorem Core.lead_setCreg (n : Nat) (v : W64) : (c.setCreg n v).lead = c.lead := rfl
@[simp] theorem Core.mate_setCreg (n : Nat) (v : W64) : (c.setCreg n v).mate = c.mate := rfl
@[simp] theorem Core.rollbacks_setCreg (n : Nat) (v : W64) : (c.setCreg n v).rollbacks = c.rollbacks := rfl
@[simp] theorem Core.doom_setCreg (n : Nat) (v : W64) : (c.setCreg n v).doom = c.doom := rfl
@[simp] theorem Core.fpWin_setCreg (n : Nat) (v : W64) : (c.setCreg n v).fpWin = c.fpWin := rfl
@[simp] theorem Core.skipOn_setCreg (n : Nat) (v : W64) : (c.setCreg n v).skipOn = c.skipOn := rfl
@[simp] theorem Core.issuedAt_setCreg (n : Nat) (v : W64) : (c.setCreg n v).issuedAt = c.issuedAt := rfl

@[simp] theorem Core.g_raiseExc (x : Exc) : (c.raiseExc x).g = c.g := rfl
@[simp] theorem Core.f_raiseExc (x : Exc) : (c.raiseExc x).f = c.f := rfl
@[simp] theorem Core.pc_raiseExc (x : Exc) : (c.raiseExc x).pc = c.pc := rfl
@[simp] theorem Core.cr_raiseExc (x : Exc) : (c.raiseExc x).cr = c.cr := rfl
@[simp] theorem Core.inflight_raiseExc (x : Exc) : (c.raiseExc x).inflight = c.inflight := rfl
@[simp] theorem Core.cyc_raiseExc (x : Exc) : (c.raiseExc x).cyc = c.cyc := rfl
@[simp] theorem Core.nxt_raiseExc (x : Exc) : (c.raiseExc x).nxt = c.nxt := rfl
@[simp] theorem Core.group_raiseExc (x : Exc) : (c.raiseExc x).group = c.group := rfl
@[simp] theorem Core.shadow_raiseExc (x : Exc) : (c.raiseExc x).shadow = c.shadow := rfl
@[simp] theorem Core.oldCr_raiseExc (x : Exc) : (c.raiseExc x).oldCr = c.oldCr := rfl
@[simp] theorem Core.frozen_raiseExc (x : Exc) : (c.raiseExc x).frozen = c.frozen := rfl
@[simp] theorem Core.wait_raiseExc (x : Exc) : (c.raiseExc x).wait = c.wait := rfl
@[simp] theorem Core.sbuf_raiseExc (x : Exc) : (c.raiseExc x).sbuf = c.sbuf := rfl
@[simp] theorem Core.devOut_raiseExc (x : Exc) : (c.raiseExc x).devOut = c.devOut := rfl
@[simp] theorem Core.resv_raiseExc (x : Exc) : (c.raiseExc x).resv = c.resv := rfl
@[simp] theorem Core.repHit_raiseExc (x : Exc) : (c.raiseExc x).repHit = c.repHit := rfl
@[simp] theorem Core.repOn_raiseExc (x : Exc) : (c.raiseExc x).repOn = c.repOn := rfl
@[simp] theorem Core.lostStore_raiseExc (x : Exc) : (c.raiseExc x).lostStore = c.lostStore := rfl
@[simp] theorem Core.recovery_raiseExc (x : Exc) : (c.raiseExc x).recovery = c.recovery := rfl
@[simp] theorem Core.privPend_raiseExc (x : Exc) : (c.raiseExc x).privPend = c.privPend := rfl
@[simp] theorem Core.privAct_raiseExc (x : Exc) : (c.raiseExc x).privAct = c.privAct := rfl
@[simp] theorem Core.pred_raiseExc (x : Exc) : (c.raiseExc x).pred = c.pred := rfl
@[simp] theorem Core.ftlb_raiseExc (x : Exc) : (c.raiseExc x).ftlb = c.ftlb := rfl
@[simp] theorem Core.dtlb_raiseExc (x : Exc) : (c.raiseExc x).dtlb = c.dtlb := rfl
@[simp] theorem Core.stlb_raiseExc (x : Exc) : (c.raiseExc x).stlb = c.stlb := rfl
@[simp] theorem Core.stride_raiseExc (x : Exc) : (c.raiseExc x).stride = c.stride := rfl
@[simp] theorem Core.win_raiseExc (x : Exc) : (c.raiseExc x).win = c.win := rfl
@[simp] theorem Core.run_raiseExc (x : Exc) : (c.raiseExc x).run = c.run := rfl
@[simp] theorem Core.halted_raiseExc (x : Exc) : (c.raiseExc x).halted = c.halted := rfl
@[simp] theorem Core.haltPend_raiseExc (x : Exc) : (c.raiseExc x).haltPend = c.haltPend := rfl
@[simp] theorem Core.stepFree_raiseExc (x : Exc) : (c.raiseExc x).stepFree = c.stepFree := rfl
@[simp] theorem Core.afterEret_raiseExc (x : Exc) : (c.raiseExc x).afterEret = c.afterEret := rfl
@[simp] theorem Core.atVec_raiseExc (x : Exc) : (c.raiseExc x).atVec = c.atVec := rfl
@[simp] theorem Core.fpEnd_raiseExc (x : Exc) : (c.raiseExc x).fpEnd = c.fpEnd := rfl
@[simp] theorem Core.pausing_raiseExc (x : Exc) : (c.raiseExc x).pausing = c.pausing := rfl
@[simp] theorem Core.live_raiseExc (x : Exc) : (c.raiseExc x).live = c.live := rfl
@[simp] theorem Core.owed_raiseExc (x : Exc) : (c.raiseExc x).owed = c.owed := rfl
@[simp] theorem Core.cntPid_raiseExc (x : Exc) : (c.raiseExc x).cntPid = c.cntPid := rfl
@[simp] theorem Core.sel_raiseExc (x : Exc) : (c.raiseExc x).sel = c.sel := rfl
@[simp] theorem Core.selH_raiseExc (x : Exc) : (c.raiseExc x).selH = c.selH := rfl
@[simp] theorem Core.stash_raiseExc (x : Exc) : (c.raiseExc x).stash = c.stash := rfl
@[simp] theorem Core.place_raiseExc (x : Exc) : (c.raiseExc x).place = c.place := rfl
@[simp] theorem Core.duty_raiseExc (x : Exc) : (c.raiseExc x).duty = c.duty := rfl
@[simp] theorem Core.lead_raiseExc (x : Exc) : (c.raiseExc x).lead = c.lead := rfl
@[simp] theorem Core.mate_raiseExc (x : Exc) : (c.raiseExc x).mate = c.mate := rfl
@[simp] theorem Core.rollbacks_raiseExc (x : Exc) : (c.raiseExc x).rollbacks = c.rollbacks := rfl
@[simp] theorem Core.doom_raiseExc (x : Exc) : (c.raiseExc x).doom = c.doom := rfl
@[simp] theorem Core.fpWin_raiseExc (x : Exc) : (c.raiseExc x).fpWin = c.fpWin := rfl
@[simp] theorem Core.skipOn_raiseExc (x : Exc) : (c.raiseExc x).skipOn = c.skipOn := rfl
@[simp] theorem Core.issuedAt_raiseExc (x : Exc) : (c.raiseExc x).issuedAt = c.issuedAt := rfl

@[simp] theorem Core.g_goTo (pc : W64) : (c.goTo pc).g = c.g := rfl
@[simp] theorem Core.f_goTo (pc : W64) : (c.goTo pc).f = c.f := rfl
@[simp] theorem Core.cr_goTo (pc : W64) : (c.goTo pc).cr = c.cr := rfl
@[simp] theorem Core.inflight_goTo (pc : W64) : (c.goTo pc).inflight = c.inflight := rfl
@[simp] theorem Core.cyc_goTo (pc : W64) : (c.goTo pc).cyc = c.cyc := rfl
@[simp] theorem Core.nxt_goTo (pc : W64) : (c.goTo pc).nxt = c.nxt := rfl
@[simp] theorem Core.shadow_goTo (pc : W64) : (c.goTo pc).shadow = c.shadow := rfl
@[simp] theorem Core.oldCr_goTo (pc : W64) : (c.goTo pc).oldCr = c.oldCr := rfl
@[simp] theorem Core.frozen_goTo (pc : W64) : (c.goTo pc).frozen = c.frozen := rfl
@[simp] theorem Core.wait_goTo (pc : W64) : (c.goTo pc).wait = c.wait := rfl
@[simp] theorem Core.exc_goTo (pc : W64) : (c.goTo pc).exc = c.exc := rfl
@[simp] theorem Core.sbuf_goTo (pc : W64) : (c.goTo pc).sbuf = c.sbuf := rfl
@[simp] theorem Core.devOut_goTo (pc : W64) : (c.goTo pc).devOut = c.devOut := rfl
@[simp] theorem Core.resv_goTo (pc : W64) : (c.goTo pc).resv = c.resv := rfl
@[simp] theorem Core.repHit_goTo (pc : W64) : (c.goTo pc).repHit = c.repHit := rfl
@[simp] theorem Core.repOn_goTo (pc : W64) : (c.goTo pc).repOn = c.repOn := rfl
@[simp] theorem Core.lostStore_goTo (pc : W64) : (c.goTo pc).lostStore = c.lostStore := rfl
@[simp] theorem Core.recovery_goTo (pc : W64) : (c.goTo pc).recovery = c.recovery := rfl
@[simp] theorem Core.privPend_goTo (pc : W64) : (c.goTo pc).privPend = c.privPend := rfl
@[simp] theorem Core.privAct_goTo (pc : W64) : (c.goTo pc).privAct = c.privAct := rfl
@[simp] theorem Core.pred_goTo (pc : W64) : (c.goTo pc).pred = c.pred := rfl
@[simp] theorem Core.ftlb_goTo (pc : W64) : (c.goTo pc).ftlb = c.ftlb := rfl
@[simp] theorem Core.dtlb_goTo (pc : W64) : (c.goTo pc).dtlb = c.dtlb := rfl
@[simp] theorem Core.stlb_goTo (pc : W64) : (c.goTo pc).stlb = c.stlb := rfl
@[simp] theorem Core.stride_goTo (pc : W64) : (c.goTo pc).stride = c.stride := rfl
@[simp] theorem Core.run_goTo (pc : W64) : (c.goTo pc).run = c.run := rfl
@[simp] theorem Core.halted_goTo (pc : W64) : (c.goTo pc).halted = c.halted := rfl
@[simp] theorem Core.haltPend_goTo (pc : W64) : (c.goTo pc).haltPend = c.haltPend := rfl
@[simp] theorem Core.stepFree_goTo (pc : W64) : (c.goTo pc).stepFree = c.stepFree := rfl
@[simp] theorem Core.afterEret_goTo (pc : W64) : (c.goTo pc).afterEret = c.afterEret := rfl
@[simp] theorem Core.atVec_goTo (pc : W64) : (c.goTo pc).atVec = c.atVec := rfl
@[simp] theorem Core.fpEnd_goTo (pc : W64) : (c.goTo pc).fpEnd = c.fpEnd := rfl
@[simp] theorem Core.pausing_goTo (pc : W64) : (c.goTo pc).pausing = c.pausing := rfl
@[simp] theorem Core.live_goTo (pc : W64) : (c.goTo pc).live = c.live := rfl
@[simp] theorem Core.owed_goTo (pc : W64) : (c.goTo pc).owed = c.owed := rfl
@[simp] theorem Core.cntPid_goTo (pc : W64) : (c.goTo pc).cntPid = c.cntPid := rfl
@[simp] theorem Core.sel_goTo (pc : W64) : (c.goTo pc).sel = c.sel := rfl
@[simp] theorem Core.selH_goTo (pc : W64) : (c.goTo pc).selH = c.selH := rfl
@[simp] theorem Core.stash_goTo (pc : W64) : (c.goTo pc).stash = c.stash := rfl
@[simp] theorem Core.place_goTo (pc : W64) : (c.goTo pc).place = c.place := rfl
@[simp] theorem Core.duty_goTo (pc : W64) : (c.goTo pc).duty = c.duty := rfl
@[simp] theorem Core.lead_goTo (pc : W64) : (c.goTo pc).lead = c.lead := rfl
@[simp] theorem Core.mate_goTo (pc : W64) : (c.goTo pc).mate = c.mate := rfl
@[simp] theorem Core.rollbacks_goTo (pc : W64) : (c.goTo pc).rollbacks = c.rollbacks := rfl
@[simp] theorem Core.doom_goTo (pc : W64) : (c.goTo pc).doom = c.doom := rfl
@[simp] theorem Core.fpWin_goTo (pc : W64) : (c.goTo pc).fpWin = c.fpWin := rfl
@[simp] theorem Core.skipOn_goTo (pc : W64) : (c.goTo pc).skipOn = c.skipOn := rfl
@[simp] theorem Core.issuedAt_goTo (pc : W64) : (c.goTo pc).issuedAt = c.issuedAt := rfl

@[simp] theorem Core.g_setFlags (fl : Nat) : (c.setFlags fl).g = c.g := rfl
@[simp] theorem Core.f_setFlags (fl : Nat) : (c.setFlags fl).f = c.f := rfl
@[simp] theorem Core.pc_setFlags (fl : Nat) : (c.setFlags fl).pc = c.pc := rfl
@[simp] theorem Core.inflight_setFlags (fl : Nat) : (c.setFlags fl).inflight = c.inflight := rfl
@[simp] theorem Core.cyc_setFlags (fl : Nat) : (c.setFlags fl).cyc = c.cyc := rfl
@[simp] theorem Core.nxt_setFlags (fl : Nat) : (c.setFlags fl).nxt = c.nxt := rfl
@[simp] theorem Core.group_setFlags (fl : Nat) : (c.setFlags fl).group = c.group := rfl
@[simp] theorem Core.shadow_setFlags (fl : Nat) : (c.setFlags fl).shadow = c.shadow := rfl
@[simp] theorem Core.oldCr_setFlags (fl : Nat) : (c.setFlags fl).oldCr = c.oldCr := rfl
@[simp] theorem Core.frozen_setFlags (fl : Nat) : (c.setFlags fl).frozen = c.frozen := rfl
@[simp] theorem Core.wait_setFlags (fl : Nat) : (c.setFlags fl).wait = c.wait := rfl
@[simp] theorem Core.exc_setFlags (fl : Nat) : (c.setFlags fl).exc = c.exc := rfl
@[simp] theorem Core.sbuf_setFlags (fl : Nat) : (c.setFlags fl).sbuf = c.sbuf := rfl
@[simp] theorem Core.devOut_setFlags (fl : Nat) : (c.setFlags fl).devOut = c.devOut := rfl
@[simp] theorem Core.resv_setFlags (fl : Nat) : (c.setFlags fl).resv = c.resv := rfl
@[simp] theorem Core.repHit_setFlags (fl : Nat) : (c.setFlags fl).repHit = c.repHit := rfl
@[simp] theorem Core.repOn_setFlags (fl : Nat) : (c.setFlags fl).repOn = c.repOn := rfl
@[simp] theorem Core.lostStore_setFlags (fl : Nat) : (c.setFlags fl).lostStore = c.lostStore := rfl
@[simp] theorem Core.recovery_setFlags (fl : Nat) : (c.setFlags fl).recovery = c.recovery := rfl
@[simp] theorem Core.privPend_setFlags (fl : Nat) : (c.setFlags fl).privPend = c.privPend := rfl
@[simp] theorem Core.privAct_setFlags (fl : Nat) : (c.setFlags fl).privAct = c.privAct := rfl
@[simp] theorem Core.pred_setFlags (fl : Nat) : (c.setFlags fl).pred = c.pred := rfl
@[simp] theorem Core.ftlb_setFlags (fl : Nat) : (c.setFlags fl).ftlb = c.ftlb := rfl
@[simp] theorem Core.dtlb_setFlags (fl : Nat) : (c.setFlags fl).dtlb = c.dtlb := rfl
@[simp] theorem Core.stlb_setFlags (fl : Nat) : (c.setFlags fl).stlb = c.stlb := rfl
@[simp] theorem Core.stride_setFlags (fl : Nat) : (c.setFlags fl).stride = c.stride := rfl
@[simp] theorem Core.win_setFlags (fl : Nat) : (c.setFlags fl).win = c.win := rfl
@[simp] theorem Core.run_setFlags (fl : Nat) : (c.setFlags fl).run = c.run := rfl
@[simp] theorem Core.halted_setFlags (fl : Nat) : (c.setFlags fl).halted = c.halted := rfl
@[simp] theorem Core.haltPend_setFlags (fl : Nat) : (c.setFlags fl).haltPend = c.haltPend := rfl
@[simp] theorem Core.stepFree_setFlags (fl : Nat) : (c.setFlags fl).stepFree = c.stepFree := rfl
@[simp] theorem Core.afterEret_setFlags (fl : Nat) : (c.setFlags fl).afterEret = c.afterEret := rfl
@[simp] theorem Core.atVec_setFlags (fl : Nat) : (c.setFlags fl).atVec = c.atVec := rfl
@[simp] theorem Core.fpEnd_setFlags (fl : Nat) : (c.setFlags fl).fpEnd = c.fpEnd := rfl
@[simp] theorem Core.pausing_setFlags (fl : Nat) : (c.setFlags fl).pausing = c.pausing := rfl
@[simp] theorem Core.live_setFlags (fl : Nat) : (c.setFlags fl).live = c.live := rfl
@[simp] theorem Core.owed_setFlags (fl : Nat) : (c.setFlags fl).owed = c.owed := rfl
@[simp] theorem Core.cntPid_setFlags (fl : Nat) : (c.setFlags fl).cntPid = c.cntPid := rfl
@[simp] theorem Core.sel_setFlags (fl : Nat) : (c.setFlags fl).sel = c.sel := rfl
@[simp] theorem Core.selH_setFlags (fl : Nat) : (c.setFlags fl).selH = c.selH := rfl
@[simp] theorem Core.stash_setFlags (fl : Nat) : (c.setFlags fl).stash = c.stash := rfl
@[simp] theorem Core.place_setFlags (fl : Nat) : (c.setFlags fl).place = c.place := rfl
@[simp] theorem Core.duty_setFlags (fl : Nat) : (c.setFlags fl).duty = c.duty := rfl
@[simp] theorem Core.lead_setFlags (fl : Nat) : (c.setFlags fl).lead = c.lead := rfl
@[simp] theorem Core.mate_setFlags (fl : Nat) : (c.setFlags fl).mate = c.mate := rfl
@[simp] theorem Core.rollbacks_setFlags (fl : Nat) : (c.setFlags fl).rollbacks = c.rollbacks := rfl
@[simp] theorem Core.doom_setFlags (fl : Nat) : (c.setFlags fl).doom = c.doom := rfl
@[simp] theorem Core.fpWin_setFlags (fl : Nat) : (c.setFlags fl).fpWin = c.fpWin := rfl
@[simp] theorem Core.skipOn_setFlags (fl : Nat) : (c.setFlags fl).skipOn = c.skipOn := rfl
@[simp] theorem Core.issuedAt_setFlags (fl : Nat) : (c.setFlags fl).issuedAt = c.issuedAt := rfl

@[simp] theorem Core.g_put (fp : Bool) (r : Nat) (v : W64) (t : Nat) : (c.put fp r v t).g = c.g := by unfold Core.put; split <;> rfl
@[simp] theorem Core.f_put (fp : Bool) (r : Nat) (v : W64) (t : Nat) : (c.put fp r v t).f = c.f := by unfold Core.put; split <;> rfl
@[simp] theorem Core.pc_put (fp : Bool) (r : Nat) (v : W64) (t : Nat) : (c.put fp r v t).pc = c.pc := by unfold Core.put; split <;> rfl
@[simp] theorem Core.cr_put (fp : Bool) (r : Nat) (v : W64) (t : Nat) : (c.put fp r v t).cr = c.cr := by unfold Core.put; split <;> rfl
@[simp] theorem Core.cyc_put (fp : Bool) (r : Nat) (v : W64) (t : Nat) : (c.put fp r v t).cyc = c.cyc := by unfold Core.put; split <;> rfl
@[simp] theorem Core.nxt_put (fp : Bool) (r : Nat) (v : W64) (t : Nat) : (c.put fp r v t).nxt = c.nxt := by unfold Core.put; split <;> rfl
@[simp] theorem Core.group_put (fp : Bool) (r : Nat) (v : W64) (t : Nat) : (c.put fp r v t).group = c.group := by unfold Core.put; split <;> rfl
@[simp] theorem Core.shadow_put (fp : Bool) (r : Nat) (v : W64) (t : Nat) : (c.put fp r v t).shadow = c.shadow := by unfold Core.put; split <;> rfl
@[simp] theorem Core.oldCr_put (fp : Bool) (r : Nat) (v : W64) (t : Nat) : (c.put fp r v t).oldCr = c.oldCr := by unfold Core.put; split <;> rfl
@[simp] theorem Core.frozen_put (fp : Bool) (r : Nat) (v : W64) (t : Nat) : (c.put fp r v t).frozen = c.frozen := by unfold Core.put; split <;> rfl
@[simp] theorem Core.wait_put (fp : Bool) (r : Nat) (v : W64) (t : Nat) : (c.put fp r v t).wait = c.wait := by unfold Core.put; split <;> rfl
@[simp] theorem Core.exc_put (fp : Bool) (r : Nat) (v : W64) (t : Nat) : (c.put fp r v t).exc = c.exc := by unfold Core.put; split <;> rfl
@[simp] theorem Core.sbuf_put (fp : Bool) (r : Nat) (v : W64) (t : Nat) : (c.put fp r v t).sbuf = c.sbuf := by unfold Core.put; split <;> rfl
@[simp] theorem Core.devOut_put (fp : Bool) (r : Nat) (v : W64) (t : Nat) : (c.put fp r v t).devOut = c.devOut := by unfold Core.put; split <;> rfl
@[simp] theorem Core.resv_put (fp : Bool) (r : Nat) (v : W64) (t : Nat) : (c.put fp r v t).resv = c.resv := by unfold Core.put; split <;> rfl
@[simp] theorem Core.repHit_put (fp : Bool) (r : Nat) (v : W64) (t : Nat) : (c.put fp r v t).repHit = c.repHit := by unfold Core.put; split <;> rfl
@[simp] theorem Core.repOn_put (fp : Bool) (r : Nat) (v : W64) (t : Nat) : (c.put fp r v t).repOn = c.repOn := by unfold Core.put; split <;> rfl
@[simp] theorem Core.lostStore_put (fp : Bool) (r : Nat) (v : W64) (t : Nat) : (c.put fp r v t).lostStore = c.lostStore := by unfold Core.put; split <;> rfl
@[simp] theorem Core.recovery_put (fp : Bool) (r : Nat) (v : W64) (t : Nat) : (c.put fp r v t).recovery = c.recovery := by unfold Core.put; split <;> rfl
@[simp] theorem Core.privPend_put (fp : Bool) (r : Nat) (v : W64) (t : Nat) : (c.put fp r v t).privPend = c.privPend := by unfold Core.put; split <;> rfl
@[simp] theorem Core.privAct_put (fp : Bool) (r : Nat) (v : W64) (t : Nat) : (c.put fp r v t).privAct = c.privAct := by unfold Core.put; split <;> rfl
@[simp] theorem Core.pred_put (fp : Bool) (r : Nat) (v : W64) (t : Nat) : (c.put fp r v t).pred = c.pred := by unfold Core.put; split <;> rfl
@[simp] theorem Core.ftlb_put (fp : Bool) (r : Nat) (v : W64) (t : Nat) : (c.put fp r v t).ftlb = c.ftlb := by unfold Core.put; split <;> rfl
@[simp] theorem Core.dtlb_put (fp : Bool) (r : Nat) (v : W64) (t : Nat) : (c.put fp r v t).dtlb = c.dtlb := by unfold Core.put; split <;> rfl
@[simp] theorem Core.stlb_put (fp : Bool) (r : Nat) (v : W64) (t : Nat) : (c.put fp r v t).stlb = c.stlb := by unfold Core.put; split <;> rfl
@[simp] theorem Core.stride_put (fp : Bool) (r : Nat) (v : W64) (t : Nat) : (c.put fp r v t).stride = c.stride := by unfold Core.put; split <;> rfl
@[simp] theorem Core.win_put (fp : Bool) (r : Nat) (v : W64) (t : Nat) : (c.put fp r v t).win = c.win := by unfold Core.put; split <;> rfl
@[simp] theorem Core.run_put (fp : Bool) (r : Nat) (v : W64) (t : Nat) : (c.put fp r v t).run = c.run := by unfold Core.put; split <;> rfl
@[simp] theorem Core.halted_put (fp : Bool) (r : Nat) (v : W64) (t : Nat) : (c.put fp r v t).halted = c.halted := by unfold Core.put; split <;> rfl
@[simp] theorem Core.haltPend_put (fp : Bool) (r : Nat) (v : W64) (t : Nat) : (c.put fp r v t).haltPend = c.haltPend := by unfold Core.put; split <;> rfl
@[simp] theorem Core.stepFree_put (fp : Bool) (r : Nat) (v : W64) (t : Nat) : (c.put fp r v t).stepFree = c.stepFree := by unfold Core.put; split <;> rfl
@[simp] theorem Core.afterEret_put (fp : Bool) (r : Nat) (v : W64) (t : Nat) : (c.put fp r v t).afterEret = c.afterEret := by unfold Core.put; split <;> rfl
@[simp] theorem Core.atVec_put (fp : Bool) (r : Nat) (v : W64) (t : Nat) : (c.put fp r v t).atVec = c.atVec := by unfold Core.put; split <;> rfl
@[simp] theorem Core.fpEnd_put (fp : Bool) (r : Nat) (v : W64) (t : Nat) : (c.put fp r v t).fpEnd = c.fpEnd := by unfold Core.put; split <;> rfl
@[simp] theorem Core.pausing_put (fp : Bool) (r : Nat) (v : W64) (t : Nat) : (c.put fp r v t).pausing = c.pausing := by unfold Core.put; split <;> rfl
@[simp] theorem Core.live_put (fp : Bool) (r : Nat) (v : W64) (t : Nat) : (c.put fp r v t).live = c.live := by unfold Core.put; split <;> rfl
@[simp] theorem Core.owed_put (fp : Bool) (r : Nat) (v : W64) (t : Nat) : (c.put fp r v t).owed = c.owed := by unfold Core.put; split <;> rfl
@[simp] theorem Core.cntPid_put (fp : Bool) (r : Nat) (v : W64) (t : Nat) : (c.put fp r v t).cntPid = c.cntPid := by unfold Core.put; split <;> rfl
@[simp] theorem Core.sel_put (fp : Bool) (r : Nat) (v : W64) (t : Nat) : (c.put fp r v t).sel = c.sel := by unfold Core.put; split <;> rfl
@[simp] theorem Core.selH_put (fp : Bool) (r : Nat) (v : W64) (t : Nat) : (c.put fp r v t).selH = c.selH := by unfold Core.put; split <;> rfl
@[simp] theorem Core.stash_put (fp : Bool) (r : Nat) (v : W64) (t : Nat) : (c.put fp r v t).stash = c.stash := by unfold Core.put; split <;> rfl
@[simp] theorem Core.place_put (fp : Bool) (r : Nat) (v : W64) (t : Nat) : (c.put fp r v t).place = c.place := by unfold Core.put; split <;> rfl
@[simp] theorem Core.duty_put (fp : Bool) (r : Nat) (v : W64) (t : Nat) : (c.put fp r v t).duty = c.duty := by unfold Core.put; split <;> rfl
@[simp] theorem Core.lead_put (fp : Bool) (r : Nat) (v : W64) (t : Nat) : (c.put fp r v t).lead = c.lead := by unfold Core.put; split <;> rfl
@[simp] theorem Core.mate_put (fp : Bool) (r : Nat) (v : W64) (t : Nat) : (c.put fp r v t).mate = c.mate := by unfold Core.put; split <;> rfl
@[simp] theorem Core.rollbacks_put (fp : Bool) (r : Nat) (v : W64) (t : Nat) : (c.put fp r v t).rollbacks = c.rollbacks := by unfold Core.put; split <;> rfl
@[simp] theorem Core.doom_put (fp : Bool) (r : Nat) (v : W64) (t : Nat) : (c.put fp r v t).doom = c.doom := by unfold Core.put; split <;> rfl
@[simp] theorem Core.fpWin_put (fp : Bool) (r : Nat) (v : W64) (t : Nat) : (c.put fp r v t).fpWin = c.fpWin := by unfold Core.put; split <;> rfl
@[simp] theorem Core.skipOn_put (fp : Bool) (r : Nat) (v : W64) (t : Nat) : (c.put fp r v t).skipOn = c.skipOn := by unfold Core.put; split <;> rfl
@[simp] theorem Core.issuedAt_put (fp : Bool) (r : Nat) (v : W64) (t : Nat) : (c.put fp r v t).issuedAt = c.issuedAt := by unfold Core.put; split <;> rfl

/-! ### A field of a choice is the choice of the fields -/

@[simp] theorem State.pending_ite (p : Prop) [Decidable p] (a b : State) : (if p then a else b).pending = if p then a.pending else b.pending := by split <;> rfl
@[simp] theorem State.fresh_ite (p : Prop) [Decidable p] (a b : State) : (if p then a else b).fresh = if p then a.fresh else b.fresh := by split <;> rfl
@[simp] theorem State.mtime_ite (p : Prop) [Decidable p] (a b : State) : (if p then a else b).mtime = if p then a.mtime else b.mtime := by split <;> rfl
@[simp] theorem State.mtFrac_ite (p : Prop) [Decidable p] (a b : State) : (if p then a else b).mtFrac = if p then a.mtFrac else b.mtFrac := by split <;> rfl
@[simp] theorem State.regs_ite (p : Prop) [Decidable p] (a b : State) : (if p then a else b).regs = if p then a.regs else b.regs := by split <;> rfl
@[simp] theorem State.st_ite (p : Prop) [Decidable p] (a b : State) : (if p then a else b).st = if p then a.st else b.st := by split <;> rfl
@[simp] theorem State.otp_ite (p : Prop) [Decidable p] (a b : State) : (if p then a else b).otp = if p then a.otp else b.otp := by split <;> rfl
@[simp] theorem State.cores_ite (p : Prop) [Decidable p] (a b : State) : (if p then a else b).cores = if p then a.cores else b.cores := by split <;> rfl
@[simp] theorem State.lines_ite (p : Prop) [Decidable p] (a b : State) : (if p then a else b).lines = if p then a.lines else b.lines := by split <;> rfl
@[simp] theorem State.lfsr_ite (p : Prop) [Decidable p] (a b : State) : (if p then a else b).lfsr = if p then a.lfsr else b.lfsr := by split <;> rfl
@[simp] theorem State.ageErr_ite (p : Prop) [Decidable p] (a b : State) : (if p then a else b).ageErr = if p then a.ageErr else b.ageErr := by split <;> rfl
@[simp] theorem State.dieAt_ite (p : Prop) [Decidable p] (a b : State) : (if p then a else b).dieAt = if p then a.dieAt else b.dieAt := by split <;> rfl
@[simp] theorem State.leaving_ite (p : Prop) [Decidable p] (a b : State) : (if p then a else b).leaving = if p then a.leaving else b.leaving := by split <;> rfl
@[simp] theorem State.l2pf_ite (p : Prop) [Decidable p] (a b : State) : (if p then a else b).l2pf = if p then a.l2pf else b.l2pf := by split <;> rfl
@[simp] theorem State.skid_ite (p : Prop) [Decidable p] (a b : State) : (if p then a else b).skid = if p then a.skid else b.skid := by split <;> rfl
@[simp] theorem State.dir_ite (p : Prop) [Decidable p] (a b : State) : (if p then a else b).dir = if p then a.dir else b.dir := by split <;> rfl
@[simp] theorem State.homes_ite (p : Prop) [Decidable p] (a b : State) : (if p then a else b).homes = if p then a.homes else b.homes := by split <;> rfl
@[simp] theorem State.net_ite (p : Prop) [Decidable p] (a b : State) : (if p then a else b).net = if p then a.net else b.net := by split <;> rfl
@[simp] theorem State.wants_ite (p : Prop) [Decidable p] (a b : State) : (if p then a else b).wants = if p then a.wants else b.wants := by split <;> rfl
@[simp] theorem State.fab_ite (p : Prop) [Decidable p] (a b : State) : (if p then a else b).fab = if p then a.fab else b.fab := by split <;> rfl
@[simp] theorem State.groups_ite (p : Prop) [Decidable p] (a b : State) : (if p then a else b).groups = if p then a.groups else b.groups := by split <;> rfl
@[simp] theorem State.ports_ite (p : Prop) [Decidable p] (a b : State) : (if p then a else b).ports = if p then a.ports else b.ports := by split <;> rfl
@[simp] theorem State.lay_ite (p : Prop) [Decidable p] (a b : State) : (if p then a else b).lay = if p then a.lay else b.lay := by split <;> rfl
@[simp] theorem State.trust_ite (p : Prop) [Decidable p] (a b : State) : (if p then a else b).trust = if p then a.trust else b.trust := by split <;> rfl
@[simp] theorem State.fw_ite (p : Prop) [Decidable p] (a b : State) : (if p then a else b).fw = if p then a.fw else b.fw := by split <;> rfl
@[simp] theorem State.elog_ite (p : Prop) [Decidable p] (a b : State) : (if p then a else b).elog = if p then a.elog else b.elog := by split <;> rfl
@[simp] theorem State.lko_ite (p : Prop) [Decidable p] (a b : State) : (if p then a else b).lko = if p then a.lko else b.lko := by split <;> rfl
@[simp] theorem State.car_ite (p : Prop) [Decidable p] (a b : State) : (if p then a else b).car = if p then a.car else b.car := by split <;> rfl
@[simp] theorem State.pwr_ite (p : Prop) [Decidable p] (a b : State) : (if p then a else b).pwr = if p then a.pwr else b.pwr := by split <;> rfl
@[simp] theorem State.clk_ite (p : Prop) [Decidable p] (a b : State) : (if p then a else b).clk = if p then a.clk else b.clk := by split <;> rfl
@[simp] theorem State.test_ite (p : Prop) [Decidable p] (a b : State) : (if p then a else b).test = if p then a.test else b.test := by split <;> rfl
@[simp] theorem State.dbg_ite (p : Prop) [Decidable p] (a b : State) : (if p then a else b).dbg = if p then a.dbg else b.dbg := by split <;> rfl
@[simp] theorem State.tal_ite (p : Prop) [Decidable p] (a b : State) : (if p then a else b).tal = if p then a.tal else b.tal := by split <;> rfl
@[simp] theorem State.vn_ite (p : Prop) [Decidable p] (a b : State) : (if p then a else b).vn = if p then a.vn else b.vn := by split <;> rfl
@[simp] theorem Core.g_ite (p : Prop) [Decidable p] (a b : Core) : (if p then a else b).g = if p then a.g else b.g := by split <;> rfl
@[simp] theorem Core.f_ite (p : Prop) [Decidable p] (a b : Core) : (if p then a else b).f = if p then a.f else b.f := by split <;> rfl
@[simp] theorem Core.pc_ite (p : Prop) [Decidable p] (a b : Core) : (if p then a else b).pc = if p then a.pc else b.pc := by split <;> rfl
@[simp] theorem Core.cr_ite (p : Prop) [Decidable p] (a b : Core) : (if p then a else b).cr = if p then a.cr else b.cr := by split <;> rfl
@[simp] theorem Core.inflight_ite (p : Prop) [Decidable p] (a b : Core) : (if p then a else b).inflight = if p then a.inflight else b.inflight := by split <;> rfl
@[simp] theorem Core.cyc_ite (p : Prop) [Decidable p] (a b : Core) : (if p then a else b).cyc = if p then a.cyc else b.cyc := by split <;> rfl
@[simp] theorem Core.nxt_ite (p : Prop) [Decidable p] (a b : Core) : (if p then a else b).nxt = if p then a.nxt else b.nxt := by split <;> rfl
@[simp] theorem Core.group_ite (p : Prop) [Decidable p] (a b : Core) : (if p then a else b).group = if p then a.group else b.group := by split <;> rfl
@[simp] theorem Core.shadow_ite (p : Prop) [Decidable p] (a b : Core) : (if p then a else b).shadow = if p then a.shadow else b.shadow := by split <;> rfl
@[simp] theorem Core.oldCr_ite (p : Prop) [Decidable p] (a b : Core) : (if p then a else b).oldCr = if p then a.oldCr else b.oldCr := by split <;> rfl
@[simp] theorem Core.frozen_ite (p : Prop) [Decidable p] (a b : Core) : (if p then a else b).frozen = if p then a.frozen else b.frozen := by split <;> rfl
@[simp] theorem Core.wait_ite (p : Prop) [Decidable p] (a b : Core) : (if p then a else b).wait = if p then a.wait else b.wait := by split <;> rfl
@[simp] theorem Core.exc_ite (p : Prop) [Decidable p] (a b : Core) : (if p then a else b).exc = if p then a.exc else b.exc := by split <;> rfl
@[simp] theorem Core.sbuf_ite (p : Prop) [Decidable p] (a b : Core) : (if p then a else b).sbuf = if p then a.sbuf else b.sbuf := by split <;> rfl
@[simp] theorem Core.devOut_ite (p : Prop) [Decidable p] (a b : Core) : (if p then a else b).devOut = if p then a.devOut else b.devOut := by split <;> rfl
@[simp] theorem Core.resv_ite (p : Prop) [Decidable p] (a b : Core) : (if p then a else b).resv = if p then a.resv else b.resv := by split <;> rfl
@[simp] theorem Core.repHit_ite (p : Prop) [Decidable p] (a b : Core) : (if p then a else b).repHit = if p then a.repHit else b.repHit := by split <;> rfl
@[simp] theorem Core.repOn_ite (p : Prop) [Decidable p] (a b : Core) : (if p then a else b).repOn = if p then a.repOn else b.repOn := by split <;> rfl
@[simp] theorem Core.lostStore_ite (p : Prop) [Decidable p] (a b : Core) : (if p then a else b).lostStore = if p then a.lostStore else b.lostStore := by split <;> rfl
@[simp] theorem Core.recovery_ite (p : Prop) [Decidable p] (a b : Core) : (if p then a else b).recovery = if p then a.recovery else b.recovery := by split <;> rfl
@[simp] theorem Core.privPend_ite (p : Prop) [Decidable p] (a b : Core) : (if p then a else b).privPend = if p then a.privPend else b.privPend := by split <;> rfl
@[simp] theorem Core.privAct_ite (p : Prop) [Decidable p] (a b : Core) : (if p then a else b).privAct = if p then a.privAct else b.privAct := by split <;> rfl
@[simp] theorem Core.pred_ite (p : Prop) [Decidable p] (a b : Core) : (if p then a else b).pred = if p then a.pred else b.pred := by split <;> rfl
@[simp] theorem Core.ftlb_ite (p : Prop) [Decidable p] (a b : Core) : (if p then a else b).ftlb = if p then a.ftlb else b.ftlb := by split <;> rfl
@[simp] theorem Core.dtlb_ite (p : Prop) [Decidable p] (a b : Core) : (if p then a else b).dtlb = if p then a.dtlb else b.dtlb := by split <;> rfl
@[simp] theorem Core.stlb_ite (p : Prop) [Decidable p] (a b : Core) : (if p then a else b).stlb = if p then a.stlb else b.stlb := by split <;> rfl
@[simp] theorem Core.stride_ite (p : Prop) [Decidable p] (a b : Core) : (if p then a else b).stride = if p then a.stride else b.stride := by split <;> rfl
@[simp] theorem Core.win_ite (p : Prop) [Decidable p] (a b : Core) : (if p then a else b).win = if p then a.win else b.win := by split <;> rfl
@[simp] theorem Core.run_ite (p : Prop) [Decidable p] (a b : Core) : (if p then a else b).run = if p then a.run else b.run := by split <;> rfl
@[simp] theorem Core.halted_ite (p : Prop) [Decidable p] (a b : Core) : (if p then a else b).halted = if p then a.halted else b.halted := by split <;> rfl
@[simp] theorem Core.haltPend_ite (p : Prop) [Decidable p] (a b : Core) : (if p then a else b).haltPend = if p then a.haltPend else b.haltPend := by split <;> rfl
@[simp] theorem Core.stepFree_ite (p : Prop) [Decidable p] (a b : Core) : (if p then a else b).stepFree = if p then a.stepFree else b.stepFree := by split <;> rfl
@[simp] theorem Core.afterEret_ite (p : Prop) [Decidable p] (a b : Core) : (if p then a else b).afterEret = if p then a.afterEret else b.afterEret := by split <;> rfl
@[simp] theorem Core.atVec_ite (p : Prop) [Decidable p] (a b : Core) : (if p then a else b).atVec = if p then a.atVec else b.atVec := by split <;> rfl
@[simp] theorem Core.fpEnd_ite (p : Prop) [Decidable p] (a b : Core) : (if p then a else b).fpEnd = if p then a.fpEnd else b.fpEnd := by split <;> rfl
@[simp] theorem Core.pausing_ite (p : Prop) [Decidable p] (a b : Core) : (if p then a else b).pausing = if p then a.pausing else b.pausing := by split <;> rfl
@[simp] theorem Core.live_ite (p : Prop) [Decidable p] (a b : Core) : (if p then a else b).live = if p then a.live else b.live := by split <;> rfl
@[simp] theorem Core.owed_ite (p : Prop) [Decidable p] (a b : Core) : (if p then a else b).owed = if p then a.owed else b.owed := by split <;> rfl
@[simp] theorem Core.cntPid_ite (p : Prop) [Decidable p] (a b : Core) : (if p then a else b).cntPid = if p then a.cntPid else b.cntPid := by split <;> rfl
@[simp] theorem Core.sel_ite (p : Prop) [Decidable p] (a b : Core) : (if p then a else b).sel = if p then a.sel else b.sel := by split <;> rfl
@[simp] theorem Core.selH_ite (p : Prop) [Decidable p] (a b : Core) : (if p then a else b).selH = if p then a.selH else b.selH := by split <;> rfl
@[simp] theorem Core.stash_ite (p : Prop) [Decidable p] (a b : Core) : (if p then a else b).stash = if p then a.stash else b.stash := by split <;> rfl
@[simp] theorem Core.place_ite (p : Prop) [Decidable p] (a b : Core) : (if p then a else b).place = if p then a.place else b.place := by split <;> rfl
@[simp] theorem Core.duty_ite (p : Prop) [Decidable p] (a b : Core) : (if p then a else b).duty = if p then a.duty else b.duty := by split <;> rfl
@[simp] theorem Core.lead_ite (p : Prop) [Decidable p] (a b : Core) : (if p then a else b).lead = if p then a.lead else b.lead := by split <;> rfl
@[simp] theorem Core.mate_ite (p : Prop) [Decidable p] (a b : Core) : (if p then a else b).mate = if p then a.mate else b.mate := by split <;> rfl
@[simp] theorem Core.rollbacks_ite (p : Prop) [Decidable p] (a b : Core) : (if p then a else b).rollbacks = if p then a.rollbacks else b.rollbacks := by split <;> rfl
@[simp] theorem Core.doom_ite (p : Prop) [Decidable p] (a b : Core) : (if p then a else b).doom = if p then a.doom else b.doom := by split <;> rfl
@[simp] theorem Core.fpWin_ite (p : Prop) [Decidable p] (a b : Core) : (if p then a else b).fpWin = if p then a.fpWin else b.fpWin := by split <;> rfl
@[simp] theorem Core.skipOn_ite (p : Prop) [Decidable p] (a b : Core) : (if p then a else b).skipOn = if p then a.skipOn else b.skipOn := by split <;> rfl
@[simp] theorem Core.issuedAt_ite (p : Prop) [Decidable p] (a b : Core) : (if p then a else b).issuedAt = if p then a.issuedAt else b.issuedAt := by split <;> rfl

/-- A part of the state that each step of a fold keeps is kept by the fold. -/
theorem State.foldl_keeps {β γ : Type} (proj : State → γ) (f : State → β → State) (h : ∀ a b, proj (f a b) = proj a) (l : List β) :
    ∀ a, proj (l.foldl f a) = proj a := by
  induction l with
  | nil => intro a; rfl
  | cons b l ih => intro a; simp only [List.foldl_cons, ih, h]

theorem State.core_setCore_of_ne (s : State) {e e' : Engine} (c : Core) (h : engKey e' ≠ engKey e) : (s.setCore e c).core e' = s.core e' := by
  simp only [State.core, State.setCore, KV.get_set_of_ne _ _ h]

end Sys2Proof.Machine
end

