-- ==== Sys2Proof/Laws/Regs.lean ====
section
/-! SUPPORT. What the module's registers and their fields read after a write. -/
namespace Sys2Proof.Machine

/-! ### Fields of a word -/

theorem bitsOf_lt {w : Nat} (v : BitVec w) (hi lo : Nat) : bitsOf v hi lo < 2 ^ (hi + 1 - lo) :=
  Nat.mod_lt _ (Nat.two_pow_pos _)

theorem testBit_bitsOf {w : Nat} (v : BitVec w) (hi lo i : Nat) :
    (bitsOf v hi lo).testBit i = (decide (i < hi + 1 - lo) && v.getLsbD (lo + i)) := by
  simp [bitsOf, Nat.testBit_mod_two_pow, Nat.testBit_shiftRight, BitVec.getLsbD]

theorem getLsbD_maskOf (hi lo i : Nat) : (maskOf hi lo).getLsbD i = (decide (i < 64) && (decide (lo ≤ i) && decide (i < hi + 1) && decide (lo ≤ hi))) := by
  simp only [maskOf, BitVec.getLsbD_ofNat, Nat.testBit_shiftLeft, Nat.testBit_two_pow_sub_one]
  rw [Bool.eq_iff_iff]
  simp
  omega

theorem getLsbD_withBits (v : W64) (hi lo n i : Nat) (hl : lo ≤ hi) (hi64 : i < 64) :
    (withBits v hi lo n).getLsbD i = if lo ≤ i ∧ i ≤ hi then n.testBit (i - lo) else v.getLsbD i := by
  simp only [withBits, BitVec.getLsbD_or, BitVec.getLsbD_and, BitVec.getLsbD_not, getLsbD_maskOf, BitVec.getLsbD_ofNat,
    Nat.testBit_shiftLeft]
  by_cases h1 : lo ≤ i <;> by_cases h2 : i ≤ hi <;> simp [h1, h2, hl, hi64]

/-- A field that has been put reads as what was put, taken to its width. -/
theorem bitsOf_withBits (v : W64) (hi lo n : Nat) (hl : lo ≤ hi) (h64 : hi < 64) :
    bitsOf (withBits v hi lo n) hi lo = n % 2 ^ (hi + 1 - lo) := by
  refine Nat.eq_of_testBit_eq fun i => ?_
  rw [testBit_bitsOf, Nat.testBit_mod_two_pow]
  by_cases h : i < hi + 1 - lo
  · have : lo ≤ lo + i ∧ lo + i ≤ hi := by omega
    rw [getLsbD_withBits v hi lo n (lo + i) hl (by omega), if_pos this]
    simp [h]
  · simp [h]

/-- A field apart from the one that has been put reads as before. -/
theorem bitsOf_withBits_of_disjoint (v : W64) (hi lo n hi' lo' : Nat) (hl : lo ≤ hi) (h64 : hi' < 64) (hd : hi < lo' ∨ hi' < lo) :
    bitsOf (withBits v hi lo n) hi' lo' = bitsOf v hi' lo' := by
  refine Nat.eq_of_testBit_eq fun i => ?_
  rw [testBit_bitsOf, testBit_bitsOf]
  by_cases h : i < hi' + 1 - lo'
  · have : ¬ (lo ≤ lo' + i ∧ lo' + i ≤ hi) := by omega
    rw [getLsbD_withBits v hi lo n (lo' + i) hl (by omega), if_neg this]
  · simp [h]

/-- [31:0] of a keyed pair is its value. -/
theorem bitsOf_keyedPair (m hi lo : Nat) (hh : hi < 32) : bitsOf (keyedPair m) hi lo = m / 2 ^ lo % 2 ^ (hi + 1 - lo) := by
  refine Nat.eq_of_testBit_eq fun i => ?_
  rw [testBit_bitsOf, Nat.testBit_mod_two_pow, Nat.testBit_div_two_pow]
  by_cases h : i < hi + 1 - lo
  · have h2 : lo + i < 32 := by omega
    rw [keyedPair]
    erw [BitVec.getLsbD_append]
    simp [h, h2, Nat.add_comm i lo, - BitVec.getLsbD_eq_getElem, BitVec.getLsbD_ofNat]
  · simp [h]

theorem bitsOf_low (v : W64) (hi lo : Nat) (hh : hi < 32) : bitsOf v 31 0 / 2 ^ lo % 2 ^ (hi + 1 - lo) = bitsOf v hi lo := by
  refine Nat.eq_of_testBit_eq fun i => ?_
  rw [Nat.testBit_mod_two_pow, Nat.testBit_div_two_pow, testBit_bitsOf, testBit_bitsOf]
  by_cases h : i < hi + 1 - lo
  · have h2 : lo + i < 32 := by omega
    simp [h, h2, Nat.add_comm]
  · simp [h]

/-! ### Registers -/

/-- A register reads as what was stored. -/
@[simp] theorem State.rd_wr_self (s : State) (r : Reg) (v : W64) : (s.wr r v).rd r = v := by
  simp [State.rd, State.wr]

/-- A store leaves every register at another address as it was. -/
theorem State.rd_wr_of_ne (s : State) {r q : Reg} (h : q.addr ≠ r.addr) (v : W64) : (s.wr r v).rd q = s.rd q := by
  show KV.get 0 (KV.set 0 s.regs r.addr (v ^^^ r.reset)) q.addr ^^^ q.reset = _
  rw [KV.get_set_of_ne 0 _ h]; rfl

theorem State.rd_putFld_of_ne (s : State) {r q : Reg} (h : q.addr ≠ r.addr) (f : Field) (n : Nat) : (s.putFld r f n).rd q = s.rd q :=
  State.rd_wr_of_ne s h _

theorem State.fld_putFld_of_ne (s : State) {r q : Reg} (h : q.addr ≠ r.addr) (f g : Field) (n : Nat) : (s.putFld r f n).fld q g = s.fld q g := by
  simp [State.fld, State.rd_putFld_of_ne s h]

/-- A field of a register that is not keyed, after it has been put. -/
theorem State.fld_putFld_self (s : State) (r : Reg) (f : Field) (n : Nat) (hk : r.kind.keyed = false) (hl : f.lo ≤ f.hi) (h64 : f.hi < 64) :
    (s.putFld r f n).fld r f = n % 2 ^ (f.hi + 1 - f.lo) := by
  simp [State.fld, State.putFld, hk, bitsOf_withBits _ _ _ _ hl h64]

/-- A field in [31:0] of a keyed register, after it has been put. -/
theorem State.fld_putFld_keyed (s : State) (r : Reg) (f : Field) (n : Nat) (hk : r.kind.keyed = true) (hl : f.lo ≤ f.hi) (h32 : f.hi < 32) :
    (s.putFld r f n).fld r f = n % 2 ^ (f.hi + 1 - f.lo) := by
  simp [State.fld, State.putFld, hk, bitsOf_keyedPair _ _ _ h32, bitsOf_low _ _ _ h32, bitsOf_withBits _ _ _ _ hl (by omega)]

/-- Another field of the same register keeps its value. -/
theorem State.fld_putFld_of_disjoint (s : State) (r : Reg) (f g : Field) (n : Nat) (hk : r.kind.keyed = false) (hl : f.lo ≤ f.hi)
    (h64 : g.hi < 64) (hd : f.hi < g.lo ∨ g.hi < f.lo) : (s.putFld r f n).fld r g = s.fld r g := by
  simp [State.fld, State.putFld, hk, bitsOf_withBits_of_disjoint _ _ _ _ _ _ hl h64 hd]

theorem State.flag_putFlag_self (s : State) (r : Reg) (f : Field) (b : Bool) (hk : r.kind.keyed = false) (hl : f.lo ≤ f.hi) (h64 : f.hi < 64) :
    (s.putFlag r f b).flag r f = b := by
  have h2 : 1 < 2 ^ (f.hi + 1 - f.lo) := Nat.one_lt_two_pow (by omega)
  cases b
  · simp [State.flag, State.putFlag, State.fld_putFld_self s r f 0 hk hl h64]
  · simp [State.flag, State.putFlag, State.fld_putFld_self s r f 1 hk hl h64, Nat.mod_eq_of_lt h2]

end Sys2Proof.Machine
end

