-- ==== Sys2Proof/Laws/Issue.lean ====
section
/-! SUPPORT. What issuing an instruction does, for one that can issue. -/
namespace Sys2Proof.Machine

/-- An instruction that can issue has its own effect, on the state with the results written that are due. -/
theorem State.issue_of_canIssue {s : State} {x : Iss} {k : Cls} {cell : Cell} {safe : Bool} {chk : Option Nat}
    (h : canIssue s x k cell safe chk = true) (f : State → State) : s.issue x k cell safe chk f = f (s.reading x) := by
  simp only [canIssue, Bool.and_eq_true, Bool.not_eq_true', Option.isNone_iff_eq_none] at h
  obtain ⟨⟨⟨h1, h2⟩, h3⟩, h4⟩ := h
  have hn : issNeed x k cell ≤ x.len.val := by
    unfold issNeed
    split
    · exact Nat.sub_le _ _
    · exact le_refl _
  have h3' : ¬ (isJug x.eng = true ∧ 0x10000 < (s.core x.eng).pc.toNat + issNeed x k cell) := by
    intro hh
    have : 0x10000 < (s.core x.eng).pc.toNat + x.len.val := by omega
    simp [hh.1, this] at h3
  have h1' : ¬ (!(s.core x.eng).ready && !(s.core x.eng).beside x k) = true := by
    cases hr : (s.core x.eng).ready <;> cases hb : (s.core x.eng).beside x k <;> simp_all
  have hh : ¬ ((s.core x.eng).ready && (s.core x.eng).haltActs x.eng && !(s.core x.eng).joins x) = true := by
    intro hc
    simp only [Bool.and_eq_true, Bool.not_eq_true'] at hc
    have hb : (s.core x.eng).beside x k = true := by simpa [hc.1.1, hc.1.2, hc.2] using h1
    have hf : (s.core x.eng).frozen.isNone = true := by
      have := hc.1.1
      simp only [Core.ready, Bool.and_eq_true] at this
      exact this.1.1.2
    simp only [Core.beside, Bool.and_eq_true] at hb
    rw [Option.isNone_iff_eq_none] at hf
    simp [hf] at hb
  simp only [State.issue]
  rw [if_neg h1', if_neg hh, h2]
  simp only [State.issueNow]
  rw [if_neg (by simpa using h3'), h4]

@[simp] theorem State.setCore_setCore (s : State) (e : Engine) (c d : Core) : (s.setCore e c).setCore e d = s.setCore e d := by
  simp [State.setCore]

theorem Core.foldl_land (l : List Pend) : ∀ c : Core,
    l.foldl Core.land c = { c with g := (l.foldl Core.land c).g, f := (l.foldl Core.land c).f } := by
  induction l with
  | nil => intro c; rfl
  | cons p l ih =>
    intro c
    rw [List.foldl_cons, ih]
    simp only [Core.land]
    split
    · rfl
    · split <;> rfl

/-- Writing the results due changes the registers and the results in flight only. -/
theorem Core.landAll_eq (c : Core) (t : Nat) :
    c.landAll t = { c with g := (c.landAll t).g, f := (c.landAll t).f, inflight := (c.landAll t).inflight } := by
  simp only [Core.landAll]
  rw [Core.foldl_land]

/-- Writing the results due twice is writing them once. -/
theorem Core.landAll_landAll (c : Core) (t : Nat) : (c.landAll t).landAll t = c.landAll t := by
  have e : (c.landAll t).inflight.filter (fun p => p.at_ < t) = [] := by
    simp [Core.landAll]
  have e' : (c.landAll t).inflight.filter (fun p => !(decide (p.at_ < t))) = (c.landAll t).inflight := by
    simp [Core.landAll]
  rw [Core.landAll, e, e']
  rfl

theorem Core.reading_reading (c : Core) (x : Iss) : (c.reading x).reading x = c.reading x := by
  by_cases h : c.joins x = true
  · simp [Core.reading, h]
  · have hr : c.reading x = { c.landAll c.nxt with cyc := c.nxt } := by simp [Core.reading, h]
    have hj : ¬ Core.joins { c.landAll c.nxt with cyc := c.nxt } x = true := by rw [Core.landAll_eq]; simpa [Core.joins] using h
    have hn : (c.landAll c.nxt).nxt = c.nxt := by rw [Core.landAll_eq]
    have e : (c.landAll c.nxt).inflight.filter (fun p => p.at_ < c.nxt) = [] := by simp [Core.landAll]
    have e' : (c.landAll c.nxt).inflight.filter (fun p => !(decide (p.at_ < c.nxt))) = (c.landAll c.nxt).inflight := by simp [Core.landAll]
    rw [hr, Core.reading, if_neg hj]
    dsimp only
    rw [hn, Core.landAll]
    dsimp only
    rw [e, e']
    rfl

/-- An engine enters alike before and after the results due are written. -/
theorem Core.enter_reading (c : Core) (x : Iss) (k : Cls) (on : Bool) (sel selH : W64) :
    (c.reading x).enter x k on sel selH = c.enter x k on sel selH := by
  rw [Core.enter, Core.reading_reading]
  rfl

@[simp] theorem State.core_reading (s : State) (x : Iss) : (s.reading x).core x.eng = (s.core x.eng).reading x := by
  simp [State.reading]

/-- An instruction enters alike before and after the results due are written. -/
@[simp] theorem State.entered_reading (s : State) (x : Iss) (k : Cls) : (s.reading x).entered x k = s.entered x k := by
  have h1 : (s.reading x).talFor x.eng = s.talFor x.eng := rfl
  have h2 : ((s.core x.eng).reading x).hpid x.eng = (s.core x.eng).hpid x.eng := by
    rw [Core.reading]; split
    · rfl
    · rw [Core.landAll_eq]; rfl
  have h3 : ∀ r, (s.reading x).rd r = s.rd r := fun _ => rfl
  have h4 : (s.reading x).mtime = s.mtime := rfl
  rw [State.entered, State.entered, State.core_reading, h1, h2, h3, h3, h4, Core.enter_reading]

@[simp] theorem State.setCore_reading (s : State) (x : Iss) (c : Core) : (s.reading x).setCore x.eng c = s.setCore x.eng c := by
  simp [State.reading]

theorem State.issuePure_of_canIssue {s : State} {x : Iss} {k : Cls} {cell : Cell} {safe : Bool} {chk : Option Nat}
    (h : canIssue s x k cell safe chk = true) (f : Core → Core) :
    s.issuePure x k cell safe chk f = s.setCore x.eng (f (s.entered x k)) := by
  rw [State.issuePure, State.issue_of_canIssue h, State.entered_reading, State.setCore_reading]

end Sys2Proof.Machine
end

