-- ==== Sys2Proof/Laws/Meet.lean ====
section
/-! SUPPORT. What commands and events that meet in one cycle do: alone, and in pairs (14 R370, R380). -/
namespace Sys2Proof.Machine

theorem byRank_one {α : Type} (rank : α → Nat) (x : α) : byRank rank [x] = [x] := rfl

theorem byRank_pair {α : Type} (rank : α → Nat) (x y : α) : byRank rank [x, y] = if rank y < rank x then [y, x] else [x, y] := rfl

variable (s : State)

theorem State.slotCycle_one (x : SvcMeet) : s.slotCycle [x] = s.slotAct x.r x.k.val x.cmd := rfl

theorem State.slotCycle_pair (x y : SvcMeet) :
    s.slotCycle [x, y] = if s.slotRank y < s.slotRank x then (s.slotCycle [y]).slotCycle [x] else (s.slotCycle [x]).slotCycle [y] := by
  rw [State.slotCycle, byRank_pair]
  split <;> rfl

theorem State.mbCycle_one (m : Nat) (e : MbMeet) : s.mbCycle m [e] = s.mbEvent m e := rfl

theorem State.mbCycle_pair (m : Nat) (e f : MbMeet) :
    s.mbCycle m [e, f] = if meetRank f < meetRank e then (s.mbCycle m [f]).mbCycle m [e] else (s.mbCycle m [e]).mbCycle m [f] := by
  rw [State.mbCycle, byRank_pair]
  split <;> rfl

end Sys2Proof.Machine
end

