-- ==== Sys2Proof/Laws/Memory.lean ====
section
/-! SUPPORT. Every operation that writes an addressed memory keeps all of them in canonical form (Memory.wf). -/
namespace Sys2Proof.Machine

/-! ### The sparse stores -/

theorem KV.outside_wf {α : Type} [DecidableEq α] (d : α) (m : KV α) (lo n : Nat) (h : KV.wf d m = true) : KV.wf d (outside m lo n) = true :=
  KV.keep_wf d _ m h

theorem KV.filter_wf {α : Type} [DecidableEq α] (d : α) (p : Nat × α → Bool) (m : KV α) (h : KV.wf d m = true) :
    KV.wf d (m.filter p) = true := by
  induction m with
  | nil => rfl
  | cons e m ih =>
    obtain ⟨k, v⟩ := e
    obtain ⟨h1, h2, h3⟩ := (KV.wf_cons d k v m).1 h
    by_cases hp : p (k, v)
    · rw [List.filter_cons_of_pos hp, KV.wf_cons]
      exact ⟨h1, ih h2, fun e he => h3 e (List.mem_filter.1 he).1⟩
    · rw [List.filter_cons_of_neg hp]; exact ih h2

theorem KV.setFold_wf {α β : Type} [DecidableEq α] (d : α) (k : β → Nat) (v : β → α) (b : List β) :
    ∀ m : KV α, KV.wf d m = true → KV.wf d (b.foldl (fun m e => KV.set d m (k e) (v e)) m) = true := by
  induction b with
  | nil => intro m h; exact h
  | cons e b ih => intro m h; exact ih _ (KV.set_wf d m _ _ h)

theorem goodWords_wf (m : KV (BitVec 8)) (a n : Nat) (h : KV.wf 0 m = true) : KV.wf 0 (goodWords m a n) = true := by
  unfold goodWords
  generalize List.range n = l
  induction l generalizing m with
  | nil => exact h
  | cons i l ih =>
    refine ih _ ?_
    dsimp only
    split
    · exact KV.set_wf 0 m _ _ h
    · exact h

/-- The canonical form of all the stores, store by store. -/
theorem Memory.wf_iff (m : Stores) : Memory.wf m = true ↔
    KV.wf 0 m.main = true ∧ KV.wf 0 m.syn = true ∧ KV.wf 0 m.spare = true ∧ KV.wf 0 m.spareSyn = true ∧ KV.wf 0 m.lmem = true
      ∧ KV.wf 0 m.lmemSyn = true ∧ KV.wf 0 m.jcode = true ∧ KV.wf 0 m.jdata = true ∧ KV.wf 0 m.jsyn = true ∧ KV.wf 0 m.jstore = true
      ∧ KV.wf 0 m.jstoreSyn = true ∧ KV.wf 0 m.mbdata = true ∧ KV.wf 0 m.sram = true ∧ KV.wf 0xFF m.flash = true ∧ KV.wf 0 m.msec = true := by
  simp only [Memory.wf, Bool.and_eq_true, and_assoc]

/-- A fold of an operation that keeps the form keeps it. -/
theorem Memory.foldl_wf {β : Type} (f : State → β → State) (hf : ∀ s b, Memory.wf s.st = true → Memory.wf (f s b).st = true) (l : List β) :
    ∀ s : State, Memory.wf s.st = true → Memory.wf (l.foldl f s).st = true := by
  induction l with
  | nil => intro s h; exact h
  | cons b l ih => intro s h; exact ih _ (hf s b h)

/-! ### Logging and interrupts leave the memories as they are -/

@[simp] theorem State.st_elogRaw (s : State) (e : List Byte) : (s.elogRaw e).st = s.st := by
  unfold State.elogRaw State.elogSync
  dsimp only
  split <;> rfl

theorem State.st_idAt (s : State) (c n : Nat) : (s.idAt c n).1.st = s.st := by
  unfold State.idAt
  dsimp only
  split
  · rfl
  · split
    · rfl
    · exact State.st_elogRaw s _

theorem State.st_idAll (s : State) (n : Nat) : (s.idAll n).1.st = s.st := by
  have h : ∀ (l : List Nat) (a : State × Bool),
      (l.foldl (fun (a : State × Bool) c => let b := a.1.idAt c n; (b.1, a.2 || b.2)) a).1.st = a.1.st := by
    intro l
    induction l with
    | nil => intro a; rfl
    | cons c l ih => intro a; rw [List.foldl_cons, ih]; exact State.st_idAt a.1 c n
  exact h _ (s, false)

@[simp] theorem State.st_elogIrq (s : State) : s.elogIrq.st = s.st := State.st_idAll s _

@[simp] theorem State.st_elogEntry (s : State) (e : List Byte) : (s.elogEntry e).st = s.st := by
  unfold State.elogEntry
  dsimp only
  split <;> simp

@[simp] theorem State.st_logEvent (s : State) (unit cls addr syn : Nat) : (s.logEvent unit cls addr syn).st = s.st :=
  State.st_elogEntry s _

@[simp] theorem State.st_raiseId (s : State) (n : Nat) : (s.raiseId n).st = s.st := by
  unfold State.raiseId
  dsimp only
  split
  · split
    · rw [State.st_elogIrq, State.st_idAll]
    · exact State.st_idAll s n
  · exact State.st_idAll s n

@[simp] theorem State.st_groupEvent (s : State) (g k : Nat) : (s.groupEvent g k).st = s.st := by
  unfold State.groupEvent
  dsimp only
  rw [State.st_raiseId]
  split <;> rfl

@[simp] theorem State.st_raiseAt (s : State) (c n : Nat) : (s.raiseAt c n).st = s.st := by
  unfold State.raiseAt
  dsimp only
  split
  · rfl
  · split
    · split
      · rw [State.st_elogIrq, State.st_idAt]
      · exact State.st_idAt s c n
    · exact State.st_idAt s c n

@[simp] theorem State.st_homeEvent (s : State) (h : Nat) (k : Option Nat) (unit cls pa syn : Nat) :
    (s.homeEvent h k unit cls pa syn).st = s.st := by
  unfold State.homeEvent
  cases k <;> simp

@[simp] theorem State.st_countCorrected (s : State) (d : Nat) : (s.countCorrected d).st = s.st := by
  unfold State.countCorrected
  dsimp only
  split <;> simp

variable (s : State) (hs : Memory.wf s.st = true)
include hs

/-! ### Main memory -/

theorem State.putWord_wf (w : Nat) (v : W64) (syn : Nat) : Memory.wf (s.putWord w v syn).st = true := by
  rw [Memory.wf_iff] at hs ⊢
  obtain ⟨h1, h2, h⟩ := hs
  exact ⟨KV.setAll_wf 0 _ _ _ h1, KV.set_wf 0 _ _ _ h2, h⟩

theorem State.putSpare_wf (w : Nat) (v : W64) (syn : Nat) : Memory.wf (s.putSpare w v syn).st = true := by
  rw [Memory.wf_iff] at hs ⊢
  obtain ⟨h1, h2, h3, h4, h⟩ := hs
  exact ⟨h1, h2, KV.setAll_wf 0 _ _ _ h3, KV.set_wf 0 _ _ _ h4, h⟩

theorem State.writeCopy_wf (w : Nat) (v : W64) (syn : Nat) : Memory.wf (s.writeCopy w v syn).st = true := by
  unfold State.writeCopy
  dsimp only
  split <;> split
  all_goals first
    | exact hs
    | exact State.putSpare_wf s hs w v syn
    | exact State.putWord_wf _ hs w v syn
    | exact State.putWord_wf _ (State.putSpare_wf s hs w v syn) w v syn

theorem State.writeWord_wf (w : Nat) (v : W64) (syn : Nat) : Memory.wf (s.writeWord w v syn).st = true := by
  unfold State.writeWord
  dsimp only
  split
  · exact State.writeCopy_wf _ (State.writeCopy_wf s hs w v syn) _ v syn
  · exact State.writeCopy_wf s hs w v syn

theorem State.readCopy_wf (w : Nat) : Memory.wf (s.readCopy w).1.st = true := by
  unfold State.readCopy
  dsimp only
  split
  · exact hs
  · split
    all_goals first
      | exact hs
      | (dsimp only; rw [State.st_logEvent, State.st_countCorrected]; exact State.writeCopy_wf s hs _ _ _)

theorem State.poisonWord_wf (w : Nat) : Memory.wf (s.poisonWord w).st = true := by
  unfold State.poisonWord
  split
  · rw [State.st_homeEvent]; exact State.writeWord_wf s hs _ _ _
  · exact hs

/-- The state that a word's read leaves: after the copies read, with the word poisoned or mended where that is so. -/
theorem State.readWord_wf (w : Nat) : Memory.wf (s.readWord w).1.st = true := by
  have h1 : ∀ n, Memory.wf (s.readCopy n).1.st = true := State.readCopy_wf s hs
  have h2 : ∀ n k, Memory.wf ((s.readCopy n).1.readCopy k).1.st = true := fun n k => State.readCopy_wf _ (h1 n) k
  unfold State.readWord
  dsimp only
  generalize (if dieBit (w / 8) = 0 then w else twinWord w) = first
  have a1 := h1 first
  have a2 := h2 first (twinWord first)
  have b1 := h1 w
  generalize (s.readCopy first).1.readCopy (twinWord first) = b at *
  generalize s.readCopy first = a at *
  generalize s.readCopy w = d at *
  obtain ⟨at_, av⟩ := a
  obtain ⟨bt, bv⟩ := b
  obtain ⟨dt, dv⟩ := d
  have p1 := State.poisonWord_wf bt a2 w
  have p2 := State.poisonWord_wf dt b1 w
  split
  · cases av with
    | some v => exact a1
    | none =>
      cases bv with
      | some v =>
        dsimp only
        split
        · exact a2
        · rw [State.st_logEvent]; exact State.writeWord_wf _ a2 _ _ _
      | none => exact p1
  · cases dv with
    | some v => exact b1
    | none => exact p2

theorem State.readLine_wf (line : Nat) : Memory.wf (s.readLine line).1.st = true := by
  have h : ∀ (l : List Nat) (a : State × List Byte × BitVec 8), Memory.wf a.1.st = true →
      Memory.wf (l.foldl (fun (a : State × List Byte × BitVec 8) i =>
        let r := a.1.readWord (line * 8 + i)
        (r.1, a.2.1 ++ toBytes 8 r.2.1.toNat, if r.2.2 then a.2.2 ||| (1 <<< i) else a.2.2)) a).1.st = true := by
    intro l
    induction l with
    | nil => intro a ha; exact ha
    | cons i l ih => intro a ha; exact ih _ (State.readWord_wf a.1 ha _)
  exact h _ _ hs

theorem State.writeMasked_wf (w mask : Nat) (bs : List Byte) (poison : Bool) : Memory.wf (s.writeMasked w mask bs poison).st = true := by
  unfold State.writeMasked
  dsimp only
  split
  · exact hs
  · split
    · unfold State.poisonNote
      split
      · exact State.writeWord_wf s hs _ _ _
      · rw [State.st_homeEvent]; exact State.writeWord_wf s hs _ _ _
    · split
      · exact State.writeWord_wf s hs _ _ _
      · split <;> exact State.writeWord_wf _ (State.readWord_wf s hs w) _ _ _

theorem State.writeLine_wf (line mask : Nat) (bs : List Byte) (poison : BitVec 8) :
    Memory.wf (s.writeLine line mask bs poison).st = true :=
  Memory.foldl_wf _ (fun t _ ht => State.writeMasked_wf t ht _ _ _ _) _ s hs

theorem State.poisonLine_wf (line : Nat) : Memory.wf (s.poisonLine line).st = true := by
  unfold State.poisonLine
  rw [State.st_logEvent]
  exact State.writeLine_wf s hs _ _ _ _

theorem State.dropSpare_wf (grp : Nat) : Memory.wf (s.dropSpare grp).st = true := by
  rw [Memory.wf_iff] at hs ⊢
  obtain ⟨h1, h2, h3, h4, h⟩ := hs
  exact ⟨h1, h2, KV.filter_wf 0 _ _ h3, KV.filter_wf 0 _ _ h4, h⟩

theorem State.adoptSpare_wf (d : Nat) : Memory.wf (s.adoptSpare d).st = true := by
  rw [Memory.wf_iff] at hs ⊢
  obtain ⟨h1, h2, h⟩ := hs
  exact ⟨KV.setFold_wf 0 _ _ _ _ (KV.filter_wf 0 _ _ h1),
    KV.setFold_wf 0 _ _ _ _ (KV.filter_wf 0 _ _ h2), h⟩

theorem State.zeroMain_wf : Memory.wf s.zeroMain.st = true := by
  rw [Memory.wf_iff] at hs ⊢
  obtain ⟨_, _, _, _, h⟩ := hs
  exact ⟨rfl, rfl, rfl, rfl, h⟩

/-! ### LMEM and the Juggler stores -/

theorem State.writeLmem_wf (a : Nat) (bs : List Byte) : Memory.wf (s.writeLmem a bs).st = true := by
  rw [Memory.wf_iff] at hs ⊢
  obtain ⟨h1, h2, h3, h4, h5, h6, h⟩ := hs
  exact ⟨h1, h2, h3, h4, KV.setAll_wf 0 _ _ _ h5, KV.setFold_wf 0 _ _ _ _ h6, h⟩

theorem State.putJdata_wf (n a : Nat) (bs : List Byte) : Memory.wf (s.putJdata n a bs).st = true := by
  rw [Memory.wf_iff] at hs ⊢
  obtain ⟨h1, h2, h3, h4, h5, h6, h7, h8, h9, h⟩ := hs
  exact ⟨h1, h2, h3, h4, h5, h6, h7, KV.setAll_wf 0 _ _ _ h8, goodWords_wf _ _ _ h9, h⟩

theorem State.putStore_wf (at_ : Nat) (bs : List Byte) : Memory.wf (s.putStore at_ bs).st = true := by
  rw [Memory.wf_iff] at hs ⊢
  obtain ⟨h1, h2, h3, h4, h5, h6, h7, h8, h9, h10, h11, h⟩ := hs
  exact ⟨h1, h2, h3, h4, h5, h6, h7, h8, h9, KV.setAll_wf 0 _ _ _ h10, goodWords_wf _ _ _ h11, h⟩

theorem State.mirror_wf (g p a : Nat) (bs : List Byte) : Memory.wf (s.mirror g p a bs).st = true := by
  unfold State.mirror
  dsimp only
  split
  · exact State.putJdata_wf _ (State.putStore_wf s hs _ bs) _ a bs
  · exact State.putStore_wf s hs _ bs

theorem State.jugWrite_wf (e : Engine) (a : Nat) (bs : List Byte) : Memory.wf (s.jugWrite e a bs).st = true := by
  unfold State.jugWrite
  dsimp only
  split
  · exact State.mirror_wf _ (State.putJdata_wf s hs _ a bs) _ _ a bs
  · exact State.putJdata_wf s hs _ a bs

theorem State.patrolStore_wf (g p : Nat) (alt data : Bool) (w : Nat) : Memory.wf (s.patrolStore g p alt data w).st = true := by
  have hset : ∀ (n : Nat) (v : BitVec 8), Memory.wf { s.st with jstoreSyn := KV.set 0 s.st.jstoreSyn n v } = true := by
    intro n v
    rw [Memory.wf_iff] at hs ⊢
    obtain ⟨h1, h2, h3, h4, h5, h6, h7, h8, h9, h10, h11, h⟩ := hs
    exact ⟨h1, h2, h3, h4, h5, h6, h7, h8, h9, h10, KV.set_wf 0 _ _ _ h11, h⟩
  unfold State.patrolStore
  dsimp only
  split
  · exact hs
  · exact hs
  · exact State.putStore_wf s hs _ _
  · exact hset _ _
  · rw [State.st_groupEvent, State.st_logEvent]
    exact hset _ _

theorem State.checkBank_wf (g p : Nat) (second : Bool) : Memory.wf (s.checkBank g p second).st = true := by
  unfold State.checkBank
  dsimp only
  refine Memory.foldl_wf _ (fun t e ht => Memory.foldl_wf _ (fun u data hu => ?_) _ t ht) _ s hs
  split
  · exact State.patrolStore_wf u hu _ _ _ _ _
  · exact hu

theorem State.copyBank_wf (g p : Nat) (second : Bool) (k : Nat) : Memory.wf (s.copyBank g p second k).st = true := by
  have hb := State.checkBank_wf s hs g p second
  rw [Memory.wf_iff] at hb ⊢
  obtain ⟨h1, h2, h3, h4, h5, h6, h7, h8, h9, h⟩ := hb
  exact ⟨h1, h2, h3, h4, h5, h6, KV.setFold_wf 0 _ _ _ _ (KV.filter_wf 0 _ _ h7), KV.setFold_wf 0 _ _ _ _ (KV.filter_wf 0 _ _ h8),
    KV.setFold_wf 0 _ _ _ _ (KV.filter_wf 0 _ _ h9), h⟩

/-! ### Mailboxes, the Trust Core's SRAM and flash -/

theorem State.sramPut_wf (a : Nat) (bs : List Byte) : Memory.wf (s.sramPut a bs).st = true := by
  have h0 : (s.sramPut a bs).st = s.st ∨ (s.sramPut a bs).st = { s.st with sram := KV.setAll 0 s.st.sram a bs } := by
    unfold State.sramPut
    dsimp only
    split
    · exact .inr rfl
    · split <;> exact .inl rfl
  rcases h0 with h0 | h0 <;> rw [h0]
  · exact hs
  · rw [Memory.wf_iff] at hs ⊢
    obtain ⟨h1, h2, h3, h4, h5, h6, h7, h8, h9, h10, h11, h12, h13, h⟩ := hs
    exact ⟨h1, h2, h3, h4, h5, h6, h7, h8, h9, h10, h11, h12, KV.setAll_wf 0 _ _ _ h13, h⟩

theorem State.resetMailbox_wf (m : Nat) : Memory.wf (s.resetMailbox m).st = true := by
  rw [Memory.wf_iff] at hs ⊢
  obtain ⟨h1, h2, h3, h4, h5, h6, h7, h8, h9, h10, h11, h12, h⟩ := hs
  exact ⟨h1, h2, h3, h4, h5, h6, h7, h8, h9, h10, h11, KV.outside_wf 0 _ _ _ h12, h⟩

theorem State.eraseSlot_wf (second : Bool) : Memory.wf (s.eraseSlot second).st = true := by
  rw [Memory.wf_iff] at hs ⊢
  obtain ⟨h1, h2, h3, h4, h5, h6, h7, h8, h9, h10, h11, h12, h13, h14, h⟩ := hs
  exact ⟨h1, h2, h3, h4, h5, h6, h7, h8, h9, h10, h11, h12, h13, KV.outside_wf 0xFF _ _ _ h14, h⟩

end Sys2Proof.Machine
end

