-- ==== Sys2Proof/Laws/Results.lean ====
section
/-! SUPPORT. Results in flight: what writing those that are due does to a register. -/
namespace Sys2Proof.Machine

/-- Whether a result is one of register `r` of a file. -/
def Pend.isFor (p : Pend) (fp : Bool) (r : Nat) : Bool := p.fp == fp && p.reg == r

/-- The value a register has after the results of a list are written. -/
def lastOf (fp : Bool) (r : Nat) (l : List Pend) (v : W64) : W64 := l.foldl (fun u p => if p.isFor fp r then p.val else u) v

theorem Core.reg_land (c : Core) (p : Pend) (fp : Bool) (r : Nat) (h : fp = true ∨ r ≠ 0) :
    (c.land p).reg fp r = if p.isFor fp r then p.val else c.reg fp r := by
  obtain ⟨pf, pr, pv, pt⟩ := p
  have e : (pr = r) = (r = pr) := propext eq_comm
  cases pf <;> cases fp
  · by_cases h0 : pr = 0
    · have h1 : r ≠ 0 := by simpa using h
      simp [Core.land, Core.reg, Pend.isFor, h0, Ne.symm h1]
    · by_cases h1 : r = 0 <;> simp [Core.land, Core.reg, Pend.isFor, Core.greg, KV.get_set, h0, h1, e]
  · by_cases h0 : pr = 0 <;> simp [Core.land, Core.reg, Pend.isFor, Core.freg, h0]
  · simp [Core.land, Core.reg, Pend.isFor, Core.greg]
  · simp [Core.land, Core.reg, Pend.isFor, Core.freg, KV.get_set, e]

theorem Core.reg_foldl_land (l : List Pend) (fp : Bool) (r : Nat) (h : fp = true ∨ r ≠ 0) : ∀ c : Core,
    (l.foldl Core.land c).reg fp r = lastOf fp r l (c.reg fp r) := by
  induction l with
  | nil => intro c; rfl
  | cons p l ih => intro c; simp only [List.foldl_cons, ih, lastOf, Core.reg_land c p fp r h]

theorem Core.reg_landAll (c : Core) (t : Nat) (fp : Bool) (r : Nat) (h : fp = true ∨ r ≠ 0) :
    (c.landAll t).reg fp r = lastOf fp r (c.inflight.filter (fun p => p.at_ < t)) (c.reg fp r) := by
  rw [← Core.reg_foldl_land _ fp r h c]; rfl

theorem lastOf_append (fp : Bool) (r : Nat) (l m : List Pend) (v : W64) : lastOf fp r (l ++ m) v = lastOf fp r m (lastOf fp r l v) := by
  simp [lastOf]

theorem lastOf_of_none (fp : Bool) (r : Nat) (l : List Pend) (v : W64) (h : ∀ p ∈ l, p.isFor fp r = false) : lastOf fp r l v = v := by
  induction l generalizing v with
  | nil => rfl
  | cons p l ih =>
    simp only [lastOf, List.foldl_cons, h p (by simp), Bool.false_eq_true, if_false]
    exact ih v (fun q hq => h q (by simp [hq]))

/-- Where an insertion puts a result: behind those written no later. -/
theorem insertPend_split (p : Pend) (l : List Pend) : ∃ a b, l = a ++ b ∧ insertPend p l = a ++ p :: b ∧ (∀ q ∈ a, q.at_ ≤ p.at_) ∧
    (∀ q, b.head? = some q → p.at_ < q.at_) := by
  induction l with
  | nil => exact ⟨[], [], rfl, rfl, by simp, by simp⟩
  | cons q l ih =>
    by_cases h : p.at_ < q.at_
    · exact ⟨[], q :: l, rfl, by simp [insertPend, h], by simp, by simp [h]⟩
    · obtain ⟨a, b, h1, h2, h3, h4⟩ := ih
      refine ⟨q :: a, b, by simp [h1], by simp [insertPend, h, h2], ?_, h4⟩
      intro u hu
      rcases List.mem_cons.1 hu with rfl | hu
      · omega
      · exact h3 u hu

/-- One result of a register among results of others. -/
theorem lastOf_insertPend (fp : Bool) (r : Nat) (p : Pend) (l : List Pend) (t : Nat) (v : W64) (hp : p.isFor fp r = true)
    (h : ∀ q ∈ l, q.isFor fp r = false) :
    lastOf fp r ((insertPend p l).filter (fun q => q.at_ < t)) v = if p.at_ < t then p.val else v := by
  obtain ⟨a, b, rfl, h2, -, -⟩ := insertPend_split p l
  have ha : ∀ q ∈ a.filter (fun q => decide (q.at_ < t)), q.isFor fp r = false := fun q hq => h q (by simp [(List.mem_filter.1 hq).1])
  have hb : ∀ q ∈ b.filter (fun q => decide (q.at_ < t)), q.isFor fp r = false := fun q hq => h q (by simp [(List.mem_filter.1 hq).1])
  rw [h2, List.filter_append, lastOf_append, lastOf_of_none fp r _ v ha, List.filter_cons]
  by_cases ht : p.at_ < t
  · simp only [ht, decide_true, if_true]
    show lastOf fp r ([p] ++ _) v = _
    rw [lastOf_append, lastOf_of_none fp r _ _ hb]
    simp [lastOf, hp]
  · simp only [ht, decide_false, Bool.false_eq_true, if_false]
    exact lastOf_of_none fp r _ v hb

theorem mem_insertPend (p q : Pend) (l : List Pend) : q ∈ insertPend p l ↔ q = p ∨ q ∈ l := by
  induction l with
  | nil => simp [insertPend]
  | cons u l ih =>
    simp only [insertPend]
    split
    · simp
    · simp [ih, or_left_comm]

/-- Two results put one after the other stand in the order of their times, the later one behind on a tie. -/
theorem insertPend_two (p q : Pend) (l : List Pend) : ∃ a b d, l = a ++ b ++ d ∧
    insertPend q (insertPend p l) = if p.at_ ≤ q.at_ then a ++ p :: b ++ q :: d else a ++ q :: b ++ p :: d := by
  induction l with
  | nil =>
    refine ⟨[], [], [], rfl, ?_⟩
    by_cases h : p.at_ ≤ q.at_
    · simp [insertPend, h, Nat.not_lt.2 h]
    · simp [insertPend, h, Nat.lt_of_not_le h]
  | cons u l ih =>
    by_cases hp : p.at_ < u.at_
    · by_cases h : p.at_ ≤ q.at_
      · obtain ⟨a, b, h1, h2, -, -⟩ := insertPend_split q (u :: l)
        exact ⟨[], a, b, by simp [h1], by simp [insertPend, hp, h, Nat.not_lt.2 h] at h2 ⊢; exact h2⟩
      · exact ⟨[], [], u :: l, rfl, by simp [insertPend, hp, h, Nat.lt_of_not_le h]⟩
    · by_cases hq : q.at_ < u.at_
      · have h : ¬ p.at_ ≤ q.at_ := by omega
        obtain ⟨a, b, h1, h2, -, -⟩ := insertPend_split p (u :: l)
        refine ⟨[], a, b, by simp [h1], ?_⟩
        simp only [insertPend, hp, if_false] at h2 ⊢
        simp [hq, h, h2]
      · obtain ⟨a, b, d, h1, h2⟩ := ih
        refine ⟨u :: a, b, d, by simp [h1], ?_⟩
        simp only [insertPend, hp, hq, if_false, h2]
        split <;> simp

end Sys2Proof.Machine
end

