-- ==== Sys2Proof/Machine/FotinDecode.lean ====
section
/-! DEFINITION. The Fotin-64 decoder (03 R54-R75): the command that the bytes at an instruction address spell, with the register numbers,
addressing form, displacement and immediate that its fields name. -/
namespace Sys2Proof.Machine

/-! ### Fields (03 R62-R69) -/

/-- Byte `i` of a tail. -/
def tailAt (t : List Byte) (i : Nat) : Nat := (t.getD i 0).toNat

/-- A signed field of `n` bytes at `i`, sign-extended (03 R65); no bytes: 0. -/
def tailSigned (t : List Byte) (i n : Nat) : W64 := if n = 0 then 0 else sext (8 * n) (ofBytes ((t.drop i).take n))

/-- An unsigned field of two bytes. -/
def tailHalf (t : List Byte) (i : Nat) : Nat := ofBytes ((t.drop i).take 2)

def reg5 (n : Nat) : Fin 32 := Fin.ofNat 32 n

/-- DST, SRC1 and SRC2 of format R: the fifth bits of DST and SRC1 stand in the second byte, which holds SRC2 whole (03 R62). -/
def rDst (t : List Byte) : Fin 32 := reg5 (tailAt t 0 / 16 + 16 * (tailAt t 1 / 4 % 2))
def rSrc1 (t : List Byte) : Fin 32 := reg5 (tailAt t 0 % 16 + 16 * (tailAt t 1 / 2 % 2))
def rSrc2 (t : List Byte) : Fin 32 := reg5 (tailAt t 1 / 8)

/-- The compact fields of the descriptor, under XREG (03 R64). -/
def hiField (xreg : Bool) (t : List Byte) : Fin 32 := reg5 (compact xreg (tailAt t 0 / 16))
def loField (xreg : Bool) (t : List Byte) : Fin 32 := reg5 (compact xreg (tailAt t 0 % 16))

/-- The addressing form of a format-M instruction (03 Tables 7-9). -/
def formOf (xreg idx : Bool) (op : Nat) (t : List Byte) : AddrForm :=
  let n := dsz (op % 4)
  let b := (baseReg (tailAt t 0 % 16)).map reg5
  if !idx then
    match b with
    | none => .pcDisp (tailSigned t 1 n)
    | some r => .baseDisp r (tailSigned t 1 n)
  else
    let r := b.getD 0
    let i := tailAt t 1
    match i % 4 with
    | 0 => .scaled r (reg5 (indexReg xreg (i / 16))) (Fin.ofNat 4 (i / 4)) (tailSigned t 2 n)
    | 1 => .postInc r
    | 2 => .postImm r (tailSigned t 2 n)
    | _ => .preDec r

/-! ### Operations (03 Tables 10 and 11) -/

/-- What the decoder has of an instruction: opcode, the set of its lead bytes, its tail. -/
structure Bits where
  x    : Iss
  op   : Nat
  seen : Nat
  tail : List Byte
deriving DecidableEq, Repr

def Bits.has (b : Bits) (k : Nat) : Bool := b.seen / k % 2 == 1

/-- The memory operand of a format-M instruction with its lead bytes. -/
def Bits.mem (b : Bits) (idx : Bool) : MemOp :=
  ⟨formOf (b.has leadXreg) idx b.op b.tail, b.has leadRep, b.has leadStream, b.has leadAcq, b.has leadRel⟩

/-- Rows 0x0_ and 0x1_ of the one-byte page. -/
def Bits.rowR (b : Bits) : Option Instr :=
  let x := b.x
  let n := b.has leadNarrow
  let d := rDst b.tail
  let p := rSrc1 b.tail
  let q := rSrc2 b.tail
  match b.op with
  | 0x01 => some (.nop x)
  | 0x02 => some (.isync x)
  | 0x03 => some (.fence x)
  | 0x04 => some (.fenceSl x)
  | 0x05 => some (.fenceIo x)
  | 0x06 => some (.retm x)
  | 0x07 => some (.sc x)
  | 0x08 => some (.brk x)
  | 0x10 => some (.add x n d p q)
  | 0x11 => some (.sub x n d p q)
  | 0x12 => some (.and x d p q)
  | 0x13 => some (.or x d p q)
  | 0x14 => some (.xor x d p q)
  | 0x15 => some (.shl x n d p q)
  | 0x16 => some (.shr x n d p q)
  | 0x17 => some (.sar x n d p q)
  | 0x18 => some (.mul x n d p q)
  | 0x19 => some (.mulh x d p q)
  | 0x1A => some (.div x n d p q)
  | 0x1B => some (.divu x n d p q)
  | 0x1C => some (.rem x n d p q)
  | 0x1D => some (.remu x n d p q)
  | 0x1E => some (.slt x d p q)
  | 0x1F => some (.sltu x d p q)
  | _ => none

/-- Rows 0x2_ to 0x7_: blocks of 8 opcodes. -/
def Bits.rowM (b : Bits) : Option Instr :=
  let m := b.mem (b.op / 4 % 2 == 1)
  let r := hiField (b.has leadXreg) b.tail
  match b.op / 8 with
  | 4 => some (.ldB b.x m r)
  | 5 => some (.ldBu b.x m r)
  | 6 => some (.ldH b.x m r)
  | 7 => some (.ldHu b.x m r)
  | 8 => some (.ldW b.x m r)
  | 9 => some (.ldWu b.x m r)
  | 10 => some (.ldD b.x m r)
  | 11 => some (.lea b.x m.form r)
  | 12 => some (.stB b.x m r)
  | 13 => some (.stH b.x m r)
  | 14 => some (.stW b.x m r)
  | 15 => some (.stD b.x m r)
  | _ => none

/-- Rows 0x8_ and 0x9_: operations with an immediate. -/
def Bits.rowI (b : Bits) : Option Instr :=
  let xr := b.has leadXreg
  let n := b.has leadNarrow
  let d := hiField xr b.tail
  let p := loField xr b.tail
  let imm := tailSigned b.tail 1 (isz (b.op % 4))
  let sh : Fin 64 := Fin.ofNat 64 (tailAt b.tail 1)
  match b.op with
  | 0x90 => some (.shli b.x n d p sh)
  | 0x91 => some (.shri b.x n d p sh)
  | 0x92 => some (.sari b.x n d p sh)
  | _ =>
    match b.op / 4 with
    | 0x20 => some (.addi b.x n d p imm)
    | 0x21 => some (.andi b.x d p imm)
    | 0x22 => some (.ori b.x d p imm)
    | 0x23 => some (.xori b.x d p imm)
    | 0x25 => some (.slti b.x d p imm)
    | 0x26 => some (.sltiu b.x d p imm)
    | 0x27 => some (.li b.x d imm)
    | _ => none

/-- Rows 0xA_ and 0xB_: branches, jumps, calls. -/
def Bits.rowB (b : Bits) : Option Instr :=
  let xr := b.has leadXreg
  let h := b.has leadHint
  let p := hiField xr b.tail
  let q := loField xr b.tail
  let d := tailSigned b.tail 1 (isz (b.op % 4))
  match b.op with
  | 0xBC => some (.jr b.x p)
  | 0xBD => some (.callm b.x (tailSigned b.tail 0 4) (BitVec.ofNat 15 (tailHalf b.tail 4)))
  | 0xBE => some (.callmr b.x p (BitVec.ofNat 15 (tailHalf b.tail 1)))
  | _ =>
    match b.op / 4 with
    | 0x28 => some (.beq b.x h p q d)
    | 0x29 => some (.bne b.x h p q d)
    | 0x2A => some (.blt b.x h p q d)
    | 0x2B => some (.bge b.x h p q d)
    | 0x2C => some (.bltu b.x h p q d)
    | 0x2D => some (.bgeu b.x h p q d)
    | 0x2E => some (.j b.x (tailSigned b.tail 0 (isz (b.op % 4))))
    | _ => none

/-- Rows 0xC_ and 0xD_: FP operations; 0xF0 and 0xF1. -/
def Bits.rowF (b : Bits) : Option Instr :=
  let x := b.x
  let d := rDst b.tail
  let p := rSrc1 b.tail
  let q := rSrc2 b.tail
  match b.op with
  | 0xC0 => some (.faddD x d p q)
  | 0xC1 => some (.fsubD x d p q)
  | 0xC2 => some (.fmulD x d p q)
  | 0xC3 => some (.fdivD x d p q)
  | 0xC4 => some (.fsqrtD x d p)
  | 0xC5 => some (.fmaD x d p q)
  | 0xC6 => some (.fminD x d p q)
  | 0xC7 => some (.fmaxD x d p q)
  | 0xC8 => some (.faddS x d p q)
  | 0xC9 => some (.fsubS x d p q)
  | 0xCA => some (.fmulS x d p q)
  | 0xCB => some (.fdivS x d p q)
  | 0xCC => some (.fsqrtS x d p)
  | 0xCD => some (.fmaS x d p q)
  | 0xCE => some (.fminS x d p q)
  | 0xCF => some (.fmaxS x d p q)
  | 0xD0 => some (.fcmpEq x d p q)
  | 0xD1 => some (.fcmpLt x d p q)
  | 0xD2 => some (.fcmpLe x d p q)
  | 0xD3 => some (.fcvtDS x d p)
  | 0xD4 => some (.fcvtSD x d p)
  | 0xD5 => some (.fcvtDL x d p)
  | 0xD6 => some (.fcvtLD x d p)
  | 0xD7 => some (.fmovG x d p)
  | 0xD8 => some (.fmovF x d p)
  | 0xD9 => some (.fnegD x d p)
  | 0xDA => some (.fabsD x d p)
  | 0xF0 => some (.mfcr x (hiField (b.has leadXreg) b.tail) (BitVec.ofNat 16 (tailHalf b.tail 1)))
  | 0xF1 => some (.mtcr x (BitVec.ofNat 16 (tailHalf b.tail 1)) (hiField (b.has leadXreg) b.tail))
  | _ => none

/-- The one-byte page (03 Table 10). -/
def Bits.pageOne (b : Bits) : Option Instr :=
  if b.op < 0x20 then b.rowR else if b.op < 0x80 then b.rowM else if b.op < 0xA0 then b.rowI else if b.op < 0xC0 then b.rowB else b.rowF

/-- Rows 0x0_ to 0x6_ of the escape page. -/
def Bits.rowEsc (b : Bits) : Option Instr :=
  let x := b.x
  let xr := b.has leadXreg
  let r := hiField xr b.tail
  let m := b.mem (b.op / 4 % 2 == 1)
  let f := formOf xr false b.op b.tail
  let acq := b.has leadAcq
  let rel := b.has leadRel
  match b.op with
  | 0x01 => some (.eret x)
  | 0x02 => some (.wfi x)
  | 0x03 => some (.predclr x)
  | 0x04 => some (.hc x)
  | 0x05 => some (.tlbiAll x)
  | 0x06 => some (.tlbiVa x r (loField xr b.tail))
  | 0x07 => some (.tlbiAsid x r)
  | _ =>
    match b.op / 8 with
    | 2 => some (.fldS x m r)
    | 3 => some (.fldD x m r)
    | 4 => some (.fstS x m r)
    | 5 => some (.fstD x m r)
    | 6 => some (.pref x m.form (b.has leadHint) m.stream)
    | _ =>
      match b.op / 4 with
      | 0x0E => some (.ldrD x f acq r)
      | 0x0F => some (.ldrW x f acq r)
      | 0x10 => some (.stcD x f rel r)
      | 0x11 => some (.stcW x f rel r)
      | 0x12 => some (.amoaddD x f acq rel r)
      | 0x13 => some (.amoswapD x f acq rel r)
      | 0x14 => some (.amoandD x f acq rel r)
      | 0x15 => some (.amoorD x f acq rel r)
      | 0x16 => some (.amomaxuD x f acq rel r)
      | 0x18 => some (.dccl x f)
      | 0x19 => some (.dcil x f)
      | 0x1A => some (.dcfl x f)
      | 0x1B => some (.icil x f)
      | _ => none

/-- Row 0x8_ of the escape page and the port instructions (04 Table 8). -/
def Bits.rowPort (b : Bits) : Option Instr :=
  let x := b.x
  let d := rDst b.tail
  let p := rSrc1 b.tail
  let q := rSrc2 b.tail
  let n := isz (b.op % 4)
  let disp := tailSigned b.tail 1 n
  let imm := tailSigned b.tail (1 + n) (isz (tailAt b.tail 0 % 4))
  let r := hiField (b.has leadXreg) b.tail
  match b.op with
  | 0xC0 => some (.twait x p)
  | 0xC1 => some (.tnow x d)
  | 0xC2 => some (.prx x d p)
  | 0xC3 => some (.ptx x d p q)
  | 0xC4 => some (.pst x d p)
  | 0xC5 => some (.pctl x p q)
  | 0xC6 => some (.pin x d p)
  | 0xC7 => some (.pout x p q)
  | 0xC8 => some (.frput x d p q)
  | 0xC9 => some (.frget x d p)
  | 0xCA => some (.tset x p q)
  | 0xCB => some (.tchk x d p)
  | _ =>
    match b.op / 4 with
    | 0x20 => some (.beqi x (b.has leadHint) r imm disp)
    | 0x21 => some (.bnei x (b.has leadHint) r imm disp)
    | 0x22 => some (.blti x (b.has leadHint) r imm disp)
    | 0x23 => some (.bgei x (b.has leadHint) r imm disp)
    | _ => none

/-- The escape page (03 Table 11). -/
def Bits.pageTwo (b : Bits) : Option Instr := if b.op < 0x80 then b.rowEsc else b.rowPort

/-- The command that the bytes at an engine's instruction address spell; none where they raise Illegal instruction at once or are too few
(03 R56, R74, R75). The checks that rest on the engine's state are those of the command itself. -/
def fotinDecode (e : Engine) (c : Core) (bs : List Byte) : Option Instr :=
  match scanBytes (isJug e) bs with
  | .got o two op seen len t =>
    if fieldBad o op seen t || valueBad e c o op seen t || leadBad (isJug e) o op seen || repBad o op seen t then none
    else
      let b : Bits := ⟨⟨e, Fin.ofNat 17 len, seen % 2 == 1⟩, op, seen, t⟩
      if two then b.pageTwo else b.pageOne
  | _ => none

end Sys2Proof.Machine
end

