-- ==== Sys2Proof/WellFormed.lean ====
section
/-! DEFINITION. Which commands can stand on the module's interfaces: what the operand types leave open. -/
namespace Sys2Proof

/-- A displacement of at most 4 bytes, sign-extended (03 R65, Table 5). -/
def fits4 (d : W64) : Bool := (d.truncate 32).signExtend 64 == d

/-- A register that a BASE code names (03 Table 8). -/
def baseOk (r : Fin 32) : Bool := (1 ≤ r.val && r.val ≤ 13) || 30 ≤ r.val

/-- An addressing form that some encoding names: a BASE code's register, an index other than g0 and g16, a displacement or immediate of at
most 4 bytes (03 Tables 7-9). -/
def AddrForm.wf : AddrForm → Bool
  | .baseDisp b d => baseOk b && fits4 d
  | .pcDisp d => fits4 d
  | .scaled b i _ d => baseOk b && i.val ≠ 0 && i.val ≠ 16 && fits4 d
  | .postInc b => baseOk b
  | .postImm b m => baseOk b && fits4 m
  | .preDec b => baseOk b

def MemOp.wf (m : MemOp) : Bool := m.form.wf

/-- An instruction is 1 to 16 bytes long (03 R54). -/
def Iss.wf (x : Iss) : Bool := 1 ≤ x.len.val

/-- A line number of the 2 GiB of main memory (01 Table 3, 08 R222). -/
def lineOk (n : BitVec 34) : Bool := n.toNat < 0x2000000

/-- A fabric request names a line of main memory. -/
def HReq.wf (q : HReq) : Bool := lineOk q.line

/-- A CAN frame carries at most 2,048 bytes of data (12 Table 4). -/
def CanFrame.wf (f : CanFrame) : Bool := f.data.length ≤ 2048

/-- The March test has the steps 0-11 (19 R480). -/
def FailBit.wf (b : FailBit) : Bool := b.step.toNat ≤ 11

/-- A remote write carries one line of data; a read carries none (22 Table 2). -/
def RemoteFrame.wf (f : RemoteFrame) : Bool := f.data.length ≤ 64

/-- A command that an interface of the module can carry. -/
def wellFormed (i : Instr) : Bool :=
  match i with
  | .fillRecord _ _ data => data.length < 2 ^ 32
  | .illegalInstruction _ bytes => bytes.length ≤ 16
  | .nop x => x.wf
  | .isync x => x.wf
  | .fence x => x.wf
  | .fenceSl x => x.wf
  | .fenceIo x => x.wf
  | .retm x => x.wf
  | .sc x => x.wf
  | .brk x => x.wf
  | .add x _ _ _ _ => x.wf
  | .sub x _ _ _ _ => x.wf
  | .and x _ _ _ => x.wf
  | .or x _ _ _ => x.wf
  | .xor x _ _ _ => x.wf
  | .shl x _ _ _ _ => x.wf
  | .shr x _ _ _ _ => x.wf
  | .sar x _ _ _ _ => x.wf
  | .mul x _ _ _ _ => x.wf
  | .mulh x _ _ _ => x.wf
  | .div x _ _ _ _ => x.wf
  | .divu x _ _ _ _ => x.wf
  | .rem x _ _ _ _ => x.wf
  | .remu x _ _ _ _ => x.wf
  | .slt x _ _ _ => x.wf
  | .sltu x _ _ _ => x.wf
  | .addi x _ _ _ _ => x.wf
  | .andi x _ _ _ => x.wf
  | .ori x _ _ _ => x.wf
  | .xori x _ _ _ => x.wf
  | .shli x _ _ _ _ => x.wf
  | .shri x _ _ _ _ => x.wf
  | .sari x _ _ _ _ => x.wf
  | .slti x _ _ _ => x.wf
  | .sltiu x _ _ _ => x.wf
  | .li x _ _ => x.wf
  | .ldB x m _ => x.wf && m.wf
  | .ldBu x m _ => x.wf && m.wf
  | .ldH x m _ => x.wf && m.wf
  | .ldHu x m _ => x.wf && m.wf
  | .ldW x m _ => x.wf && m.wf
  | .ldWu x m _ => x.wf && m.wf
  | .ldD x m _ => x.wf && m.wf
  | .lea x f _ => x.wf && f.wf
  | .stB x m _ => x.wf && m.wf
  | .stH x m _ => x.wf && m.wf
  | .stW x m _ => x.wf && m.wf
  | .stD x m _ => x.wf && m.wf
  | .faddD x _ _ _ => x.wf
  | .fsubD x _ _ _ => x.wf
  | .fmulD x _ _ _ => x.wf
  | .fdivD x _ _ _ => x.wf
  | .fsqrtD x _ _ => x.wf
  | .fmaD x _ _ _ => x.wf
  | .fminD x _ _ _ => x.wf
  | .fmaxD x _ _ _ => x.wf
  | .faddS x _ _ _ => x.wf
  | .fsubS x _ _ _ => x.wf
  | .fmulS x _ _ _ => x.wf
  | .fdivS x _ _ _ => x.wf
  | .fsqrtS x _ _ => x.wf
  | .fmaS x _ _ _ => x.wf
  | .fminS x _ _ _ => x.wf
  | .fmaxS x _ _ _ => x.wf
  | .fcmpEq x _ _ _ => x.wf
  | .fcmpLt x _ _ _ => x.wf
  | .fcmpLe x _ _ _ => x.wf
  | .fcvtDS x _ _ => x.wf
  | .fcvtSD x _ _ => x.wf
  | .fcvtDL x _ _ => x.wf
  | .fcvtLD x _ _ => x.wf
  | .fmovG x _ _ => x.wf
  | .fmovF x _ _ => x.wf
  | .fnegD x _ _ => x.wf
  | .fabsD x _ _ => x.wf
  | .beq x _ _ _ disp => x.wf && fits4 disp
  | .bne x _ _ _ disp => x.wf && fits4 disp
  | .blt x _ _ _ disp => x.wf && fits4 disp
  | .bge x _ _ _ disp => x.wf && fits4 disp
  | .bltu x _ _ _ disp => x.wf && fits4 disp
  | .bgeu x _ _ _ disp => x.wf && fits4 disp
  | .beqi x _ _ _ disp => x.wf && fits4 disp
  | .bnei x _ _ _ disp => x.wf && fits4 disp
  | .blti x _ _ _ disp => x.wf && fits4 disp
  | .bgei x _ _ _ disp => x.wf && fits4 disp
  | .j x disp => x.wf && fits4 disp
  | .jr x _ => x.wf
  | .callm x disp _ => x.wf && fits4 disp
  | .callmr x _ _ => x.wf
  | .mfcr x _ _ => x.wf
  | .mtcr x _ _ => x.wf
  | .hctxWrite x _ => x.wf
  | .iclaim x _ => x.wf
  | .hiclaim x _ => x.wf
  | .ieoi x _ => x.wf
  | .hieoi x _ => x.wf
  | .eret x => x.wf
  | .wfi x => x.wf
  | .predclr x => x.wf
  | .hc x => x.wf
  | .tlbiAll x => x.wf
  | .tlbiVa x _ _ => x.wf
  | .tlbiAsid x _ => x.wf
  | .fldS x m _ => x.wf && m.wf
  | .fldD x m _ => x.wf && m.wf
  | .fstS x m _ => x.wf && m.wf
  | .fstD x m _ => x.wf && m.wf
  | .pref x f _ _ => x.wf && f.wf
  | .ldrD x f _ _ => x.wf && f.wf
  | .ldrW x f _ _ => x.wf && f.wf
  | .stcD x f _ _ => x.wf && f.wf
  | .stcW x f _ _ => x.wf && f.wf
  | .amoaddD x f _ _ _ => x.wf && f.wf
  | .amoswapD x f _ _ _ => x.wf && f.wf
  | .amoandD x f _ _ _ => x.wf && f.wf
  | .amoorD x f _ _ _ => x.wf && f.wf
  | .amomaxuD x f _ _ _ => x.wf && f.wf
  | .dccl x f => x.wf && f.wf
  | .dcil x f => x.wf && f.wf
  | .dcfl x f => x.wf && f.wf
  | .icil x f => x.wf && f.wf
  | .twait x _ => x.wf
  | .tnow x _ => x.wf
  | .prx x _ _ => x.wf
  | .ptx x _ _ _ => x.wf
  | .pst x _ _ => x.wf
  | .pctl x _ _ => x.wf
  | .pin x _ _ => x.wf
  | .pout x _ _ => x.wf
  | .frput x _ _ _ => x.wf
  | .frget x _ _ => x.wf
  | .tset x _ _ => x.wf
  | .tchk x _ _ => x.wf
  | .rds q => q.wf
  | .rdx q => q.wf
  | .upg q => q.wf
  | .wbd q data _ => q.wf && data.length == 64
  | .evc q => q.wf
  | .iord q => q.wf
  | .iowr q _ data _ => q.wf && data.length == 64
  | .snps _ line => lineOk line
  | .snpi _ line => lineOk line
  | .snpx _ line => lineOk line
  | .data _ _ line => lineOk line.line
  | .ack _ _ line => lineOk line
  | .ackevicted _ line => lineOk line
  | .retry _ line => lineOk line
  | .poison _ line => lineOk line
  | .snoopTimeout _ line => lineOk line
  | .lookoutDecision _ line _ => lineOk line
  | .forerunnerTimeout _ line => lineOk line
  | .canFrameReceive _ f => f.wf
  | .canSelectiveWake _ f _ => f.wf
  | .linFrameReceive _ _ _ data _ => data.length ≤ 8
  | .ethernetFrameReceive _ frame _ _ _ => 14 ≤ frame.length
  | .pcieTransferEnd _ _ data => data.length ≤ 8
  | .carouselTestDone _ pass => pass.found.all FailBit.wf
  | .auth _ token => token.length ≤ 4096
  | .read _ _ n => n < 2 ^ 32
  | .write _ _ data => data.length ≤ 4088
  | .imgload _ _ _ data => data.length ≤ 4091
  | .lcadv _ _ token => token.length ≤ 4095
  | .remoteRequest f => f.wf
  | .registerWrite .. | .elogRdWrite .. | .imageLoad | .writeRecord .. | .kwriteRecord .. | .claimRecord .. | .partRecord .. | .stage .. => true
  | .deltaVerifyDone | .activate .. | .cancel .. | .commit .. | .deltaActivation | .fabricPlanSwitch | .routerBankSwap .. | .fenceCompletion .. => true
  | .wfiWake .. | .twaitEnd .. | .groupTimerFire .. | .loadDataArrival .. | .fetchFill .. | .storeBufferDrain .. | .tableWalk .. | .exceptionEntry .. => true
  | .interruptEntry .. | .guestTimer .. | .hTimer .. | .msgirq .. | .intmsg .. | .clean .. | .inval .. | .flush .. => true
  | .lock .. | .unlock .. | .abort .. | .skidderDone .. | .cacheControlWrite .. | .cacheDisableDone .. | .ageParityError .. | .arrayError .. => true
  | .arrayPatrolRead .. | .absent .. | .drd .. | .dwr .. | .drsp .. | .dieFailure .. | .migrationLineCopy .. | .spareSteer .. => true
  | .scrubLine .. | .linkCrcError .. | .e2eack .. | .e2enak .. | .e2eAckTimeout .. | .e2eResendTimeout .. | .planeFailure .. | .planeMove .. => true
  | .planeReinitDone .. | .acceptTimeout .. | .timeSlotFrameStart | .slotAdmission .. | .positionRun .. | .positionLoadDone .. | .positionHalt .. | .slotStart .. => true
  | .positionStoreWrite .. | .positionStorePatrol .. | .jugglerHardFault .. | .spareJoin .. | .jugglerTakeover .. | .qpcfgWrite .. | .qpTailWrite .. | .rxDescriptorWrite .. => true
  | .txDescriptorFetch .. | .txLaunch .. | .portEnable .. | .portDisable .. | .portTestDone .. | .errclr .. | .txflush .. | .rxflush .. => true
  | .recover .. | .standbyTransceiver .. | .sleep .. | .wakePulse .. | .gate .. | .supply .. | .sync .. | .adcRequest .. => true
  | .adcConversionDone .. | .canBusOff .. | .canTransceiverFault .. | .linResponseTimeout .. | .linWake .. | .sentFrameReceive .. | .psi5FrameReceive .. | .sensorSupplyOvercurrent .. => true
  | .sensorSupplyOutOfWindow .. | .serialReceive .. | .fieldEdge .. | .fieldOutputOvercurrent .. | .transmitFrameEnd .. | .linkUp .. | .linkDown .. | .pcieTransfer .. => true
  | .pcieCompletionTimeout .. | .pcimsi .. | .pcieInboundRequest .. | .pcieDeviceInterrupt .. | .frameMatch .. | .frfwd .. | .forwardReassemblyTimeout .. | .e2eTimeoutScan .. => true
  | .routerIntegrityScan .. | .routerEntryWrite .. | .routerEntryInvalidate .. | .claim .. | .release .. | .create .. | .start .. | .stop .. => true
  | .destroy .. | .epreset .. | .mbsend .. | .mbtake .. | .mbtoExpiry .. | .dbring .. | .info .. | .random .. => true
  | .hash .. | .keygen .. | .seal .. | .openSvc .. | .sign .. | .verify .. | .decaps .. | .keydel .. => true
  | .handover .. | .handoverGrant .. | .trngHealthFail | .apply .. | .discard .. | .firebreakSwitch .. | .verdictCopyCheck .. | .verdictCopyReloadDone .. => true
  | .lkobeat .. | .trustCoreDown | .trustCoreRunning | .trustCoreRestartFail | .emergencyNotice .. | .emergencyCut | .pairMismatch .. | .tripleVote .. => true
  | .splitHardFault .. | .hungLogicalCore .. | .carouselStep .. | .swapPause .. | .carcmdStep .. | .carcmdHold .. | .carcmdResume .. | .analogueReferenceCheck .. => true
  | .analogueReferenceRepeat .. | .hHeartbeatMissed | .lookoutLockstepMismatch | .rearm .. | .forceOff .. | .restart .. | .vbusSample .. | .leanExit => true
  | .feedReconnect .. | .phaseFailure .. | .polHalfFailure .. | .domOn .. | .domOff .. | .full .. | .trim .. | .lean .. => true
  | .doze .. | .standby .. | .powerRequestDone .. | .trustConsentTimeout | .wake .. | .wakeAlarm | .budgetCheck .. | .temperatureWarn .. => true
  | .temperatureCritical .. | .referenceLost | .referenceRestored | .pllFailure .. | .pllCrossCheck .. | .spreadChange .. | .mtrateWrite .. | .mtstepWrite .. => true
  | .powerOnReset .. | .resetN .. | .rstcmdModule .. | .domainReset .. | .domainRelease .. | .startUp | .adcReferenceCheck .. | .fuse .. => true
  | .ident .. | .challenge .. | .deauth .. | .getres .. | .halt .. | .debugResume .. | .step .. | .regrd .. => true
  | .regwr .. | .debugReset .. | .scan .. | .nonceExpiry .. | .serviceModeWrite .. | .traceLineWrite .. | .snapshotTick | .snapshotComplete => true
  | .talview .. | .beacon | .beaconReceive .. | .slotAbsent .. | .ringmasterTakeover | .roleHoldEnd | .syncResult .. | .remoteResponseTimeout .. => true
  | .vnxFlash .. | .vnxStage .. | .vnxActivate .. | .vnxCancel .. | .vnxDone .. | .busIntegration .. | .uartIdleTimeout .. | .sensorSilentTimeout .. => true
  | .psi5SyncPulse .. | .firebreakGraceEnd .. | .ageRewriteDone .. | .trngHealthRecovered | .syncResultTimeout => true

end Sys2Proof
end

