-- ==== Sys2Proof/Tests/Slice0.lean ====
section
/-! SUPPORT. The model's own tests: the smoke of WellFormed, for every statement a state and operands that meet its hypotheses (its clauses in
the statement's order), and small steps whose results are worked out from the spec. Hypotheses on an opaque constant of Config (log entry 20)
have no concrete witness. -/
namespace Sys2Proof.Tests
open Sys2Proof.Machine
set_option Elab.async false

/-! ### States -/

/-- Every domain powered and none in reset, the Trust Core and the clocks running, Lookout without a cause. -/
def live : State :=
  let s := { State.reset with
    lko := { State.reset.lko with causes := [], okOn := true }
    clk := { State.reset.clk with started := true } }
  (s.putFld .pwrdom Fld.pwrdomOn (2 ^ 61 - 1)).putFld .tsstat Fld.tsstatState 1

/-- The system partition in the trusted world, and an ordinary partition. -/
def host : Req := ⟨255, true, 0x700, none⟩
def five : Req := ⟨5, false, 0x700, none⟩

/-- An instruction of logical core 0 and one of Juggler 0 of group 0. -/
def onCore : Iss := ⟨.lcore 0, 8, false⟩
def onJug : Iss := ⟨.juggler 0 0, 8, false⟩

/-- A change of logical core 0, which stands ready at window 0 of cluster 0, in the module `live`. -/
def coreIs (f : Core → Core) : State :=
  live.setLc 0 (f { live.lc 0 with
    run := true
    place := some 0
    pc := 0x0900004000 })

/-- A change of Juggler 0 of group 0, which serves position 0, in the module `live`. -/
def jugIs (f : Core → Core) : State :=
  live.setCore (.juggler 0 0) (f { live.core (.juggler 0 0) with
    run := true
    pc := 0x100 })

/-- A phase of the loader. -/
def phaseIs (n : Nat) (s : State) : State := s.putFld .laystat Fld.laystatPhase n

/-- A CLAIM record of class 1, index 5, count 1, owner 5. -/
def claimBytes : List Byte := toBytes 4 4 ++ toBytes 4 24 ++ [1, 0, 5, 0] ++ toBytes 4 5 ++ toBytes 8 1

/-- A delta with one FABRIC section that is empty, and the module holding it in a phase. -/
def image0 : Image := ⟨true, 0, 7, 1, 128, [⟨3, 0, 0, false, true, []⟩]⟩
def staged (n : Nat) : State :=
  phaseIs n { live with lay := { live.lay with
    delta := some image0
    len := 128
    todo := [(3, 0)] } }

/-- A delta whose PORTGROUP section of group 3 claims port 5 for owner 5. -/
def image1 : Image := ⟨true, 0, 7, 1, 128, [⟨4, 3, 0, false, true, claimBytes⟩]⟩

/-- A new plan for one fabric slot that is due. -/
def planned : State := { live with fab := { live.fab with plan := some ([((Reg.fbslot 7 249).addr, 5)], 0) } }

/-- The address of window 0's LMEM in register 2, and a plain access through it. -/
def near (c : Core) : Core := { c with g := KV.set 0 c.g 2 0x0900000100 }
def loadHere : MemOp := ⟨.baseDisp 2 0, false, false, false, false⟩

/-- An instruction that can join the group before it. -/
def joined : State := coreIs (fun c => { c with group := { c.group with ctl := false } })

/-- Register 31 names a frame of 17 words that ends with window 0's LMEM, and register 2 its start. -/
def stacked (c : Core) : Core := { c with g := KV.set 0 (KV.set 0 c.g 2 0x0900000100) 31 0x0900000088 }

/-- The privilege level of an engine. -/
def levelIs (n : W64) (c : Core) : Core := c.setCreg 1 n

/-- Routed interrupt 4,095 of cluster 0 pending for logical core 0 at S (`del` 2) or H (1). -/
def routedTo (del : Nat) (s : State) : State :=
  ((((s.putFld (.ircfg 0 4095) Fld.ircfgDel del).putFld (.ircfg 0 4095) Fld.ircfgPrio 9).putFlag (.irstate 0 4095) Fld.irstatePend true))

/-- An exception that an engine raises. -/
def raised (c : Core) : Core := { c with exc := some (Exc.of 2 0 c.pc) }

/-- Every port, timer and window claimed by owner 0. -/
def claimed (s : State) : State :=
  { s with lay := { s.lay with claims := [⟨1, 0, 512, 0, true, 33⟩, ⟨2, 0, 2048, 0, true, 33⟩, ⟨3, 0, 2048, 0, true, 33⟩] } }

/-- A change of port `n`. -/
def portIs (n : Nat) (f : Port → Port) (s : State) : State := s.setPort n (f (s.port n))

/-- A buffered store of one byte to window 0's LMEM. -/
def entry0 : SBEntry := ⟨0x0900000100, [7], false, false, false, 0, false, false, false⟩

/-- An FP instruction in its unit that raises an exception in cycle 3, and a load that waits for 8 bytes of address 8. -/
def doomed : Doom := ⟨{ Exc.of 0x0E 0 0x100 with det := 3 }, ⟨[], [], [], [], 0x100, 0, 0⟩⟩
def loading : PendAcc := ⟨.load false 1 false, [⟨8, 8, 8, none, none⟩], none, false, onCore, false, 255, true, none, 0, false⟩

/-- Firebreak unit `u` gives partitions 0 and 5 every access to every address (region 0, class 0). -/
def opened (u : Nat) (s : State) : State :=
  ((((s.wr (.fwrlo u 0) (keyedPair 0x80000000)).wr (.fwrhi u 0) (keyedPair 0xFFFFFFF)).wr (.fwratt u 0) (keyedPair 0x600)).wr (.fwclo u 0) (keyedPair 1)).wr
    (.fwclo u 5) (keyedPair 1)

/-- A message, and one of a cluster's or the home's side of line 5. -/
def msgOf (k : MsgKind) (src dst agent addr : Nat) : Msg :=
  ⟨k, src, dst, agent, addr, 1, 255, true, List.replicate 64 3, 0, 0, 2, true, false, false, 0, some 0, 0, none⟩

/-- Line 5 stands in way 0 of the L2 of cluster 0. -/
def cached (st : LineSt) (s : State) : State := s.putLine 256 5 0 ⟨st, 5, List.replicate 64 3, 0, false, 1, false⟩

/-- The directory entry of line 5. -/
def dirIs (f : DirEnt → DirEnt) (s : State) : State :=
  { s with dir := KV.set DirEnt.none s.dir (dirKey 5 0) (f { DirEnt.none with line := 5, age := 1 }) }

/-- A transaction on line 5 that waits for the agents named, for an RdX of agent 1. -/
def txn (waits : List Nat) : Txn := ⟨some ⟨.rdx, 1, 5, 2, 255, true, 0, [], 0, false⟩, waits, [], none, [], false, none, true, 0, 0⟩

/-- A fabric request of the host for line 5, by agent `a`. -/
def ask (a : Fin 50) : HReq := ⟨a, 5, 1, 255, true, true, false⟩

/-- The message of a device read or write of LAYACT by logical core 0. -/
def devOf (k : MsgKind) : Msg := { msgOf k 0 49 0 0x0C00070018 with mask := 8, lcore := some 0 }
def coreReq : Req := ⟨255, true, 0x700, some 0⟩

/-- The host owns slot 0 of home 5. -/
def slotted : State := (live.putFlag (.fbslot 5 0) Fld.fbslotEn true).putFld (.fbslot 5 0) Fld.fbslotPid 255

/-- Position 0 of group 0 holds a schedule of one slot, a period of 1,000 ns. -/
def scheduled : State := { live with st := { live.st with jstore := KV.setAll 0 [] (storeAddr 0 0 false false 0xF808) [0xE8, 3, 0, 0, 1] } }

/-- A change of position 0 of group 0. -/
def posIs (f : Pos → Pos) (s : State) : State := s.setPos 0 0 (f (s.pos 0 0))

/-- Juggler 0 of group 0 runs and waits for its slot. -/
def waiting (s : State) : State :=
  s.setCore (.juggler 0 0) { s.core (.juggler 0 0) with
    run := true
    wait := some .wfi }

/-- Queue pair 127 of group 31 enabled for the host, its rings of 16 at the start of memory, its window one page. -/
def paired : State :=
  (((live.wr (.qpcfg 31 127) (keyedPair 0xFF804400)).putFld (.qprxt 31 127) Fld.qprxtTail 1).putFld (.qptxt 31 127) Fld.qprxtTail 1).putFld
    (.qpwin 31 127) Fld.qpwinSize 1

/-- A frame of ten bytes from port 0. -/
def frame0 : Frame := ⟨0, 1, 9, 0, 0, 0, List.replicate 10 1⟩

/-- Group 0 holds a frame in its router. -/
def held0 (f : Frame) (s : State) : State := s.setGroup 0 { s.group 0 with accept := [f] }

/-- Entry 4,095 of group 0's table in use, accepting every frame, with word 4 and word 6 as given. -/
def routed (w4 w6 : Nat) : State :=
  let put := fun (s : State) (w v : Nat) => { s with regs := KV.set 0 s.regs (rtAddr 0 false 4095 w) (keyedPair v ^^^ 0xFFFFFFFF00000000) }
  ((List.range 8).foldl (fun s w => put s w (if w = 0 then 0x87FE0000 else if w = 4 then w4 else if w = 6 then w6 else if w = 7 then 1024 else 0)) live).putFlag
    (.rtcfg 0) Fld.rtcfgEn true

/-- Position 0 of group 0 at the end of its spare's join. -/
def joining : State :=
  posIs (fun y => { y with
    running := true
    joinAt := some 0 }) { (waiting scheduled).putFld (.jpos 0) Fld.jposSstate 2 with mtime := 10240 }

/-- The transmit ring's first descriptor of `paired`: OWN set, no data, port 0. -/
def descOk : State := { paired with st := { paired.st with main := KV.setAll 0 [] 0 [0, 0, 0, 0, 0, 0, 0, 0, 0, 0, 1] } }

/-- Port `n` enabled and up. -/
def upPort (n : Nat) : State := portIs n (fun x => { x with up := true }) (live.putFlag (.pctrl (n / 16) (n % 16)) Fld.pctrlEn true)

/-- A classic CAN frame without data. -/
def can0 : CanFrame := ⟨0, false, false, false, false, false, false, 0, false, 0, 0, 0, [], 0⟩

/-- A service argument: class, first index, count and partition 0, in the trusted slot. -/
def argued (cls first count : Nat) (s : State) : State :=
  ((s.putFld (.svarg 128) Fld.svargClass cls).putFld (.svarg 128) Fld.svargIndex first).putFld (.svarg 128) Fld.svargCount count

/-- Partition 5 in a state of Table 1 of 14, with the part record of run set core 127. -/
def partition (n : Nat) : State :=
  let p : Part := ⟨5, false, 50, 2 ^ 127, 0⟩
  ({ live with lay := { live.lay with
    parts := [p]
    created := [p] } }.putFld (.ptent 5) Fld.ptentState n).putFld (.svarg 128) Fld.svargPid 5

/-- Mailbox pair 0 formed by partition 5, with a request for service `svc` waiting. -/
def request (svc : BitVec 8) : State :=
  let on := fun (s : State) (m a b : Nat) => ((s.putFlag (.mbcfg m) Fld.mbcfgEn true).putFld (.mbcfg m) Fld.mbcfgSep a).putFld (.mbcfg m) Fld.mbcfgRep b
  let s := ((on (on live 0 5 0x1000) 1 0x1000 5).putFlag (.mbstat 0) Fld.mbstatFull true).putFld (.mbstat 0) Fld.mbstatLen 8
  { s with st := { s.st with mbdata := KV.setAll 0 [] 0x40 [svc] } }

/-- A hand-over of kind `k` of block `b` to partition 5, waiting to be granted in record 15. -/
def handing (k b st : Nat) : State :=
  let s := (((live.putFld (.horec 15) Fld.horecKind k).putFld (.horec 15) Fld.horecBlock b).putFld (.horec 15) Fld.horecState st).putFld (.horec 15) Fld.horecTopid 5
  { s with trust := { s.trust with hands := [⟨15, 510, 0, 0⟩] } }

/-- Firebreak unit `u` has a switch to come, pressed at MTIME 0. -/
def applied (u t : Nat) : State :=
  { live with
    fw := { live.fw with applyAt := KV.set none [] u (some 0) }
    mtime := BitVec.ofNat 64 t }

/-- Logical core 0 in a pair of cores 0 and 1 of cluster 0, held for the vote. -/
def voting : State := coreIs (fun c => { c with
  mate := some 1
  pausing := true })

/-- A scope with a spare that is ready. -/
def spared (n x : Nat) (s : State) : State := (s.putFld (.carscope n) Fld.carscopeState scReady).putFld (.carscope n) Fld.carscopeSpare x

/-- A Carousel that turns on every kind of scope, with scope `n` ready. -/
def turning (n x : Nat) (s : State) : State := spared n x ((s.putFlag .carctl Fld.carctlEn true).putFld .carctl Fld.carctlKinds 31)

/-- MTIME at 100 s. -/
def later (s : State) : State := { s with mtime := 100000000000 }

/-- A debug request on port 0 and the module in MAKER, where it reaches everything. -/
def ask0 : DbgReq := ⟨false, 1, true⟩
def maker : State := { live with otp := { live.otp with lcFuse := 1 } }
def portDbg (f : Dbg → Dbg) (s : State) : State := { s with dbg := { s.dbg with p0 := f s.dbg.p0 } }

/-- The vehicle network's module in a role of 22 Table 1. -/
def roleIs (n : Nat) (s : State) : State := s.putFld .vnstat Fld.vnstatRole n
def beacon0 (e : Fin 8) : BeaconMsg := ⟨e, 0, 0, none, 0, 0, true⟩
def remote0 (off : BitVec 36) : RemoteFrame := ⟨false, 3, 0, 1, off, 1, []⟩

/-- Page tables of the H regime at address 0 that map virtual page 1 to page 1, with the home's Firebreak open. -/
def tabled : State :=
  let s := opened (homeOf 0) (coreIs (fun c => { c with frozen := some (.walk 0x1000 false true) }))
  { s with st := { s.st with main := KV.setAll 0 [] 0 (toBytes 8 3 ++ toBytes 8 0x101D) } }

/-- `joining` when the position's Juggler failed: it has none, and was halted. -/
def lostPos : State := posIs (fun y => { y with haltedAs := some jsHalted }) (joining.putFld (.jpos 0) (jposFld 0) 7)

/-- A posted descriptor of a queue pair, fetched, with its port and launch time. -/
def launched (port : Nat) (at_ : W64) : TxDesc := ⟨{ frame0 with port := port }, at_, 0⟩


/-! ### Witnesses -/

theorem met_EmptyQueue :
    State.reset.pending = [] ∧ State.reset.clk.mtAdd = 0 ∧ State.reset.rd .mtrate = Reg.mtrate.reset := by decide +kernel

theorem met_RegisterWrites :
    live.regAt 0x0C00070018 = some .layact ∧ RegKind.layact ∈ plainKinds ∧ live.answers 0x0C00070018 = true ∧ live.groupPasses host 0x0C00070018 true = true ∧
    isHost host = true ∧ RegKind.layact.keyed = false ∧ RegKind.mcscrub ∈ plainKinds ∧ RegKind.mcscrub.keyed = true ∧ live.regAt 0x0A00000200 = some (.mcscrub 0) ∧
    live.answers 0x0A00000200 = true ∧ isHost five = false ∧ State.reset.regAt 0x0A00000200 = some (.mcscrub 0) ∧
    State.reset.answers 0x0A00000200 = false := by decide +kernel

theorem met_Loader :
    (live.putFld .tsstat Fld.tsstatState 2).trustAway = true ∧ live.trustAway = false ∧ live.layPhase = phIdle ∧ (live.rd .laysrc).toNat < 0x80000000 ∧
    ((live.wr .laycmd (keyedPair 1)).ioReadN 0x700 255 true 0 64).2.1.length = 64 ∧
    0x80000000 ≤ (((live.wr .laysrc 0x80000000).wr .laycmd (keyedPair 1)).rd .laysrc).toNat ∧ (staged phStaged).layPhase = phStaged ∧
    (staged phStaged).lay.delta = some image0 ∧ (claimsCode (keptClaims (staged phStaged).lay.claims image0.sects) (deltaClaims image0.sects)).1 = 0 ∧
    claimsCode (keptClaims [⟨1, 5, 1, 6, false, 33⟩] image1.sects) (deltaClaims image1.sects) = (0x11, some (1, (5, 6))) ∧ (staged phVerifying).layPhase ≠ phStaged ∧
    (staged phVerifying).layPhase ≠ phIdle ∧ (staged phVerifying).trustUp = true ∧
    ((staged phVerifying).ioReadN 0x700 255 true (staged phVerifying).lay.src (staged phVerifying).lay.len).2.2 = none := by decide +kernel

theorem met_DeltaSwitches :
    (staged phArmed).lay.delta = some image0 ∧ (staged phArmed).layPhase = phArmed ∧ (staged phArmed).lay.time.toNat ≤ (staged phArmed).mtime.toNat ∧
    (staged phArmed).lay.todo ≠ [] ∧ (∀ x ∈ image0.sects, x.type = 3 ∨ x.type = 5 ∧ ∀ e ∈ x.recs, ∃ a, e.addr = some a ∧ inRtTable a = true) ∧
    live.mtime.toNat < { live with lay := { live.lay with time := 1 } }.lay.time.toNat ∧ planned.fab.plan = some ([((Reg.fbslot 7 249).addr, 5)], 0) ∧
    KV.wf 0 [((Reg.fbslot 7 249).addr, (5 : W64))] = true ∧ (staged phActivating).layPhase = phActivating ∧ (∀ y ∈ (staged phActivating).lay.todo, y = (3, 0)) ∧
    ((live.setGroup 31 { live.group 31 with swapAt := some 0 }).group 31).swapAt = some 0 ∧
    KV.wf Group2.reset (live.setGroup 31 { live.group 31 with swapAt := some 0 }).groups = true := by decide +kernel

theorem met_Records :
    live.regAt 0x0A00000300 = some (.mcecnt 0 0) ∧ RegKind.mcecnt ∈ plainKinds ∧ 0x0A00000300 % 8 = 0 ∧
    sectTarget (secType .memory).1 (secType .memory).2 0x0A00000300 8 = true ∧ live.answers 0x0A00000300 = true ∧ RegKind.mcecnt.keyed = false ∧
    (0 : W32) ^^^ (0xFFFFFFFF : W32) = BitVec.allOnes 32 ∧ live.regAt 0x0A00000200 = some (.mcscrub 0) ∧
    sectTarget (secType .memory).1 (secType .memory).2 0x0A00000200 8 = true ∧ keyedFields RegKind.mcscrub.fields 1 = true ∧ keyedExtra (.mcscrub 0) 1 = true ∧
    sectTarget (secType .cluster).1 (secType .cluster).2 0x0A00000200 8 = false ∧ (0 : W32) ^^^ (0 : W32) ≠ BitVec.allOnes 32 ∧ (secType .hierarchy).1 = 11 ∧
    sectClaims (secType (.portgroup 3)).1 1 = true ∧ 511 + 1 ≤ classSize 1 ∧ conflictIn live.lay.claims ⟨1, 511, 1, 5, true, 3⟩ = none ∧
    conflictIn [⟨1, 511, 1, 6, true, 3⟩] ⟨1, 511, 1, 5, true, 3⟩ = some (511, 6) ∧ sectClaims (secType .cluster).1 1 = false ∧ (∀ q ∈ live.lay.parts, q.pid ≠ 5) ∧
    (∀ l, l < 128 → (0 : BitVec 128).getLsbD l = true → definedBy (live.clusterBody []) l = true) ∧ live.fld (.ptent 5) Fld.ptentState ≤ 1 := by decide +kernel

theorem met_ImageLoad :
    live.trustUp = true ∧ live.lay.active = [] ∧ live.lay.delta = none ∧ live.slotCode false ≠ 0 ∧ live.slotCode true ≠ 0 ∧
    State.reset.trustUp = false := by decide +kernel

theorem met_Integers :
    canIssue (coreIs id) onCore .i .all true none = true ∧ canIssue (jugIs id) onJug .i .all true none = true ∧
    canIssue (coreIs id) onCore .i .all false none = true ∧
    canIssue (coreIs id) onCore .i .all false (if true && 32 ≤ (31 : Fin 64).val then some 8 else none) = true := by decide +kernel

theorem met_Results :
    (∀ p ∈ ((coreIs id).core (.lcore 0)).inflight, ¬ (p.fp = false ∧ p.reg = 1)) := by decide +kernel

theorem met_Issue :
    ((coreIs id).core (.lcore 0)).joins onCore = false ∧ (joined.core (.lcore 0)).joins { onCore with grp := true } = true := by decide +kernel

theorem met_FloatingPoint :
    canIssue (coreIs id) onCore .f .core false none = true := by decide +kernel

theorem met_Branches :
    canIssue (coreIs id) onCore .b .all false none = true ∧ canIssue (jugIs id) onJug .b .all false none = true ∧ isJug onCore.eng = false := by decide +kernel

theorem met_Loads :
    loadHere.rep = false ∧ canIssue (coreIs near) onCore .m .all false (memCheck onCore.eng loadHere true true 1) = true ∧
    ((coreIs near).servedNow onCore loadHere 8).isSome = true ∧ canIssue (jugIs id) onJug .m .all false (memCheck onJug.eng loadHere true true 1) = true ∧
    jugBeyond (((jugIs id).core onJug.eng).ea 0x100 8 loadHere.form) 8 = none ∧
    ((jugIs id).jugRead onJug.eng (pcForm loadHere.form) 0 8).2 = false := by decide +kernel

theorem met_Stores :
    canIssue (coreIs near) onCore .m .all false (memCheck onCore.eng loadHere false true 1) = true ∧
    (coreIs near).checkAccess onCore.eng 0x0900004000 0x0900000100 8 .write false = .ok [(0x0900000100, 8, 0x0900000100)] ∧
    canIssue (jugIs id) onJug .m .all false (memCheck onJug.eng loadHere false true 1) = true ∧ pcForm loadHere.form = false ∧ jugBeyond ((0xFFF8 : W64)) 8 = none ∧
    (jugBeyond ((0xFFF9 : W64)) 8).isSome = true := by decide +kernel

theorem met_RepeatZero :
    { loadHere with rep := true }.rep = true ∧ ((coreIs id).core onCore.eng).greg 29 = 0 ∧
    canIssue (coreIs id) onCore .s .core false (memCheck onCore.eng { loadHere with rep := true } true false 1) = true ∧
    canIssue (coreIs id) onCore .s .all false (memCheck onCore.eng { loadHere with rep := true } false true 1) = true := by decide +kernel

theorem met_LeaPref :
    canIssue (coreIs near) onCore .m .all false (if leaForm (.pcDisp 8) then none else some 0x09) = true ∧
    canIssue (coreIs near) onCore .m .core false (if plainForm (.baseDisp 2 0) then none else some 0x09) = true ∧
    (coreIs near).checkAccess onCore.eng 0x0900004000 0x0900000100 1 .read false = .ok [(0x0900000100, 1, 0x0900000100)] ∧
    (∀ b ∈ ((coreIs near).core onCore.eng).sbuf, b.pa / 64 ≠ 0x0900000100 / 64) ∧ (coreIs near).region onCore.eng 0x0900000100 ≠ .main 0 ∧
    (coreIs near).region onCore.eng 0x7FFFFFC0 = .main (0x7FFFFFC0 / 64) ∧
    (opened (homeOf (0x7FFFFFC0 / 64)) (coreIs near)).checkAccess onCore.eng 0x0900004000 0x7FFFFFC0 1 .write false = .ok [(0x7FFFFFC0, 1, 0x7FFFFFC0)] := by decide +kernel

theorem met_Reserved :
    canIssue (coreIs near) onCore .m .core false (atomCheck (.baseDisp 2 0) false) = true ∧
    (coreIs near).atomPart onCore (.baseDisp 2 0) 8 .read = some (0x0900000100, 0x0900000100) ∧
    (((coreIs near).promoted onCore.eng [(0x0900000100, 8, 0x0900000100)]).nearBytes onCore.eng ((coreIs near).core onCore.eng) false 0x0900000100 0x0900000100 8).map (·.2) = some (List.replicate 8 0) ∧
    (coreIs near).atomPart onCore (.baseDisp 2 0) 4 .write = some (0x0900000100, 0x0900000100) ∧ ((coreIs near).core onCore.eng).quiet = true ∧
    ((coreIs (fun c => { near c with resv := some (0x0900000100 / 64) })).core onCore.eng).resv = some (0x0900000100 / 64) ∧
    ((coreIs (fun c => { near c with resv := some (0x0900000100 / 64) })).promoted onCore.eng [(0x0900000100, 8, 0x0900000100)]).atomReady onCore.eng 0x0900000100 (.cond 1 0) = true ∧
    ((coreIs near).core onCore.eng).resv ≠ some (0x0900000100 / 64) := by decide +kernel

theorem met_Atomics :
    canIssue (coreIs near) onCore .m .core false (atomCheck (.baseDisp 2 0) false) = true ∧
    (coreIs near).atomPart onCore (.baseDisp 2 0) 8 .rw = some (0x0900000100, 0x0900000100) ∧
    ((coreIs near).promoted onCore.eng [(0x0900000100, 8, 0x0900000100)]).atomReady onCore.eng 0x0900000100 (.amo 0 1 0) = true := by decide +kernel

theorem met_Calls :
    canIssue (coreIs stacked) onCore .s .all false none = true ∧ ((coreIs stacked).core onCore.eng).stackFault 15 = none ∧
    (coreIs stacked).checkFrame onCore.eng 0x0900004000 0x0900000000 17 .write = .ok ((List.range 17).map (fun i => ((0x0900000000 : W64) + BitVec.ofNat 64 (8 * i), 8, 0x0900000000 + 8 * i))) ∧
    ((coreIs id).core onCore.eng).stackFault 0 = some (0xFFFFFFFFFFFFFFF0) ∧
    ((jugIs (fun c => { c with g := KV.set 0 c.g 31 0x10000 })).core onJug.eng).stackFault 15 = none ∧
    jugBeyond ((0x10000 - 8 * 17 : W64)) (8 * 17) = none := by decide +kernel

theorem met_Returns :
    canIssue (coreIs stacked) onCore .s .all false none = true ∧ ((coreIs (fun c => { c with g := KV.set 0 c.g 31 4 })).core onCore.eng).sp.toNat % 8 ≠ 0 ∧
    ((coreIs stacked).core onCore.eng).sp.toNat % 8 = 0 ∧ (coreIs stacked).returnFrame onCore.eng = some [0, 0] ∧
    ((jugIs id).core onJug.eng).sp.toNat + 8 * (0 + 2) ≤ 0x10000 ∧ ((jugIs id).jugRead onJug.eng false 0 16).2 = false ∧
    0 = (maskRegs (bitsOf (BitVec.ofNat 64 (ofBytes ((jugIs id).jugRead onJug.eng false 8 8).1)) 14 0)).length := by decide +kernel

theorem met_ReadCr :
    canIssue (coreIs id) onCore .s .all false (crCheck onCore.eng 0x30) = true ∧ ((coreIs (levelIs 0)).core onCore.eng).crRight onCore.eng 1 = 0 ∧
    ((coreIs id).core onCore.eng).crRight onCore.eng 3 = 1 ∧ ((coreIs id).core onCore.eng).crRight onCore.eng 0x63 = 3 ∧
    canIssue (coreIs id) onCore .s .all false (crCheck onCore.eng 0x20) = true ∧
    canIssue (jugIs id) onJug .s .all false (crCheck onJug.eng 3) = true := by decide +kernel

theorem met_WriteCr :
    canIssue (coreIs id) onCore .s .all false (crCheck onCore.eng 0x48) = true ∧ 2 ≤ ((coreIs id).core onCore.eng).crRight onCore.eng 0x48 ∧
    (crRow 0x08).isSome = true ∧ 2 ≤ ((coreIs id).core onCore.eng).crRight onCore.eng 0x08 ∧ pairOk (0xFFFFFFFF00000000) = true ∧
    bitsOf (0xFFFFFFFF00000000 : W64) 31 8 = 0 ∧ (coreIs id).hctxTakes onCore.eng 0 = true ∧ pairOk (5) = false ∧
    (coreIs id).hctxTakes onCore.eng 255 = false := by decide +kernel

theorem met_Claims :
    canIssue (coreIs id) onCore .s .all false (crCheck onCore.eng 0x39) = true ∧ ((coreIs id).core onCore.eng).crRight onCore.eng 0x59 ≠ 0 ∧
    (coreIs id).deliverable onCore.eng false = none ∧
    ((coreIs (fun c => { (c.setCreg 0x50 0).setCreg 0x51 0x3F01 with privPend := 2 })).deliverable onCore.eng true).map (·.id) = some 1 ∧
    ((routedTo 1 (coreIs id)).deliverable onCore.eng true).map (·.id) = some 4095 ∧ ((routedTo 2 (coreIs id)).deliverable onCore.eng false).map (·.id) = some 4095 ∧
    2 ≤ ((coreIs id).core onCore.eng).crRight onCore.eng 0x5A ∧ (privOf true).contains 1 = true ∧
    ((coreIs (fun c => { c with privAct := 2 })).core onCore.eng).privAct.getLsbD 1 = true ∧ (privOf true).contains 31 = false ∧
    (((((coreIs id).putFld (.ircfg 0 4095) Fld.ircfgDel 1).putFlag (.irstate 0 4095) Fld.irstateAct true)).routedTo 0 1 1).any (fun q => q.id == 4095) = true ∧
    ((coreIs id).routedTo 0 1 1).any (fun q => q.id == 4095) = false := by decide +kernel

theorem met_Traps :
    canIssue (coreIs id) onCore .s .core false none = true ∧ ((coreIs (levelIs 0)).core onCore.eng).level onCore.eng = 0 ∧
    1 ≤ ((coreIs id).core onCore.eng).level onCore.eng ∧ canIssue (coreIs id) onCore .s .all false none = true ∧ ((coreIs id).core onCore.eng).ready = true ∧
    (illegalBytes onCore.eng ((coreIs id).core onCore.eng) [0x00]).isSome = true := by decide +kernel

theorem met_Entry :
    ((coreIs raised).core onCore.eng).exc = some (Exc.of 2 0 0x0900004000) ∧ ((coreIs raised).core onCore.eng).frozen = none ∧
    ((coreIs raised).core onCore.eng).halted = false ∧ ((coreIs id).core onCore.eng).boundary = true ∧ ((coreIs id).core onCore.eng).haltActs onCore.eng = false ∧
    ((coreIs (fun c => { levelIs 0 c with recovery := true })).asyncNext onCore.eng).isSome = true ∧
    ((routedTo 2 (coreIs (levelIs 0))).asyncNext onCore.eng).map (·.1) = some false := by decide +kernel

theorem met_JugException :
    ((jugIs raised).core onJug.eng).exc = some (Exc.of 2 0 0x100) ∧ ((jugIs raised).core onJug.eng).frozen = none ∧ ((jugIs raised).core onJug.eng).halted = false ∧
    (jugIs raised).served onJug.eng = some 0 ∧ (jugIs raised).served (.juggler 0 3) = some 3 := by decide +kernel

theorem met_Eret :
    canIssue (coreIs (levelIs 1)) onCore .s .core false (if ((coreIs (levelIs 1)).core onCore.eng).eretIllegal onCore.eng then some 0x09 else none) = true ∧
    canIssue (coreIs (levelIs 0)) onCore .s .core false (if ((coreIs (levelIs 0)).core onCore.eng).eretIllegal onCore.eng then some 0x09 else none) = true ∧
    canIssue (coreIs (fun c => levelIs (2 + 2 * 128) c)) onCore .s .core false (if ((coreIs (fun c => levelIs (2 + 2 * 128) c)).core onCore.eng).eretIllegal onCore.eng then some 0x09 else none) = true ∧
    canIssue (jugIs id) onJug .s .all false none = true ∧ ((coreIs (fun c => { c with wait := some .wfi, recovery := true })).core onCore.eng).wait = some .wfi ∧
    (coreIs (fun c => { c with wait := some .wfi, recovery := true })).wakes onCore.eng = true ∧
    ((coreIs (fun c => { c with frozen := some (.fence true) })).core onCore.eng).frozen = some (.fence true) ∧
    ((coreIs (fun c => { c with frozen := some (.fence true) })).core onCore.eng).ioQuiet = true := by decide +kernel

theorem met_PortInstructions :
    canIssue (claimed (jugIs id)) onJug .m .jug false none = true ∧ (claimed (jugIs id)).ownPort onJug.eng 3 = some 3 ∧
    ((portIs 3 (fun x => { x with rx := [5] }) (claimed (jugIs id))).port 3).rx = [5] ∧ ((claimed (jugIs id)).port 3).rx = [] ∧
    wordIfc ((claimed (jugIs id)).ifc 3) = true ∧ badTxWord (0) = false ∧ ((claimed (jugIs id)).port 3).tx.length < 32 ∧
    32 ≤ ((portIs 3 (fun x => { x with tx := List.replicate 32 0 }) (claimed (jugIs id))).port 3).tx.length ∧
    (claimed (live.setCore (.juggler 8 2) { live.core (.juggler 8 2) with run := true })).ownPort (.juggler 8 2) 0 = some 136 ∧ live.ifc 136 = 9 ∧
    (live.putFld (.fldcfg 8 8) Fld.fldcfgMode 3).fld (.fldcfg 8 8) Fld.fldcfgMode = 3 ∧
    (live.putFld (.fldcfg 8 8) Fld.fldcfgMode 5).fld (.fldcfg 8 8) Fld.fldcfgMode = 5 ∧ (jugIs id).ownPort onJug.eng 3 = none := by decide +kernel

theorem met_TimersFrames :
    canIssue (jugIs id) onJug .s .jug false none = true ∧ ((jugIs (fun c => { c with wait := some (.until 0 0) })).core onJug.eng).wait = some (.until 0 0) ∧
    KV.get none (((jugIs id).setGroup 0 { live.group 0 with timers := KV.set none [] 63 (some 0) }).group 0).timers 63 = some 0 ∧
    (claimed (jugIs id)).ownTimer onJug.eng 63 = some (0, 63) ∧ (jugIs id).ownTimer onJug.eng 63 = none ∧ (claimed (jugIs id)).served onJug.eng = some 0 ∧
    (claimed (jugIs id)).routerUsed 0 + 2064 ≤ 65536 ∧ (claimed (jugIs id)).claimOwner 1 3 = some ((claimed (jugIs id)).jugOwner onJug.eng) ∧
    ((portIs 3 (fun x => { x with landing := { x.landing with full := [(1, 64)] } }) (claimed (jugIs id))).port 3).landing.full = [(1, 64)] ∧
    ((claimed (jugIs id)).port 3).landing.full = [] := by decide +kernel

theorem met_PortControl :
    (claimed live).ownPort (.juggler 0 0) 3 = some 3 ∧ live.ifc 3 = 1 ∧ ((portIs 3 (fun x => { x with busOff := true }) live).port 3).busOff = true ∧
    live.ifc 8 = 2 ∧ (claimed live).ownPort (.juggler 0 2) 0 = some 8 ∧ directIfc (live.ifc 128) = true ∧ (claimed live).ownPort (.juggler 8 0) 0 = some 128 ∧
    live.ifc 256 = 6 ∧ (claimed live).ownPort (.juggler 16 0) 0 = some 256 ∧ (live.putFlag (.snscfg 16 0) Fld.snscfgSel true).ifc 256 = 7 ∧
    bitOf ((portIs 256 (fun x => { x with faulted := true, ctl := 0x100000000 }) live).port 256).ctl 32 = true ∧
    (live.putFld (.fldcfg 8 8) Fld.fldcfgMode 7).fld (.fldcfg (136 / 16) (136 % 16)) Fld.fldcfgMode = 7 ∧ live.bitIn .caladc Fld.caladcFail (136 / 16) = false ∧
    live.ownPort (.juggler 0 0) 3 = none := by decide +kernel

theorem met_CoreEvents :
    ((coreIs (fun c => { c with frozen := some (.walk 0x1000 false true) })).core onCore.eng).frozen = some (.walk 0x1000 false true) ∧
    (((coreIs id).core onCore.eng).fetchView.lookup onCore.eng true .fetch 0x0900004000) = (.ok 0x0900004000, false) ∧
    (coreIs id).region onCore.eng 0x0900004000 = .lmem 0x4000 ∧ missing [⟨0x0900000100, 0x0900000100, 1, some [7], none⟩] = none ∧
    poisoned [⟨0x0900000100, 0x0900000100, 1, some [7], none⟩] = none ∧ ((coreIs (fun c => { c with sbuf := [entry0] })).core onCore.eng).sbuf = [entry0] ∧
    (coreIs id).region onCore.eng entry0.pa = .lmem 0x100 := by decide +kernel

theorem met_Timers :
    live.timerDue (((live.lc 0).setCreg 0x32 1).setCreg 0x31 0) false = true ∧ live.timerDue (((live.lc 0).setCreg 0x51 1).setCreg 0x50 0) true = true ∧
    (routedTo 1 (coreIs id)).fld (.ircfg 0 4095) Fld.ircfgDel ≠ 0 ∧
    (routedTo 1 (coreIs id)).hosts 0 ((routedTo 1 (coreIs id)).fld (.ircfg 0 4095) Fld.ircfgLcore) = true ∧ live.fld (.ircfg 0 1152) Fld.ircfgDel = 0 ∧
    live.msgTakes 5 0 1152 = false := by decide +kernel

theorem met_Skidder :
    isHost host = true ∧ live.flag (.skstat 15) Fld.skstatBusy = false ∧ (coreIs id).coreAt 0 0 = some 0 ∧ (live.coreAt 15 7).isSome = false ∧
    (live.wr (.sklen 15) 1).fld (.sklen 15) Fld.sklenLines ≠ 0 ∧ (live.wr (.skaddr 15) 0x7FFFFFC0).fld (.skaddr 15) Fld.skaddrAddr + 1 ≤ 2 ^ 25 ∧
    (live.wr (.sklen 15) 1).meetsSecond 0x1FFFFFF 1 = false ∧ live.fld (.sklen 15) Fld.sklenLines = 0 ∧
    (live.putFlag (.skstat 15) Fld.skstatBusy true).flag (.skstat 15) Fld.skstatBusy = true ∧ isHost five = false ∧
    KV.get none ({ live with skid := KV.set none [] 15 (some ⟨5, .l2, false, 0, 0, 32768, false⟩) }).skid 15 = some ⟨5, .l2, false, 0, 0, 32768, false⟩ := by decide +kernel

theorem met_Caches :
    live.flag (.l2ctl 15) Fld.l2ctlBusy = false ∧ bitOf (1 : W64) 0 = true ∧ bitOf (0 : W64) 0 = false ∧
    (live.putFlag (.l2ctl 0) Fld.l2ctlEn true).flag (.l2ctl 0) Fld.l2ctlEn = true ∧ (cached .m live).anyDirty 256 = true ∧ live.anyDirty 256 = false ∧
    (∀ k ∈ live.hosted 0, live.anyDirty (128 + k) = false) ∧ (live.putFlag (.l2ctl 0) Fld.l2ctlBusy true).flag (.l2ctl 0) Fld.l2ctlBusy = true ∧
    live.coreAt 15 7 = none ∧ KV.get none live.skid 15 = none ∧ (live.putFlag (.l1ctl 0 0) Fld.l1ctlDbusy true).flag (.l1ctl 0 0) Fld.l1ctlDbusy = true ∧
    ((coreIs id).lc 0).place = some 0 ∧ (cached .m live).findLine 256 (0x140 / 64) = some ⟨.m, 5, List.replicate 64 3, 0, false, 1, false⟩ ∧
    ((coreIs id).lc 0).duty = .pair ∧ ((coreIs (fun c => { c with duty := .split })).lc 0).duty ≠ .pair ∧ syndOf 87 = .bit 63 ∧
    KV.get 0 live.st.lmemSyn (lmemWord 127 0xFFF8) = 0 := by decide +kernel

theorem met_Homes :
    live.homeTakes 1 5 = true ∧ live.fromDead 1 = false ∧ live.isSecond 5 = false ∧ (live.home (homeOf 5)).queue = [] ∧ live.net = [] ∧
    live.unitAllows (homeOf 5) 255 true false true (5 * 64) = true ∧ live.lineBusy 5 = false ∧ live.findDir 5 = none ∧
    ((List.range 16).map (dirKey 5)).find? (fun k => !(live.dirAt k).used) = some (dirKey 5 0) ∧
    (dirIs (fun d => { d with shares := 1 }) live).findDir 5 = some (dirKey 5 0) ∧ ((dirIs (fun d => { d with shares := 1 }) live).dirAt (dirKey 5 0)).owner = none ∧
    ((dirIs (fun d => { d with shares := 1 }) live).dirAt (dirKey 5 0)).shares = shareBit 0 ∧
    ((dirIs (fun d => { d with owner := some 0 }) live).dirAt (dirKey 5 0)).owner = some 0 ∧ live.inService (agentRouter 0) = true ∧
    (dirIs (fun d => { d with owner := some 0, busy := some (txn [0]) }) live).lineBusy 5 = true ∧ live.unitAllows (homeOf 5) 5 false true false (5 * 64) = false ∧
    { live with fw := { live.fw with reload := [1] } }.homeTakes 1 5 = false ∧ (dirIs (fun d => { d with owner := some 0 }) live).awaiting 0 5 = none ∧
    ((dirIs (fun d => { d with shares := 1 }) live).dirAt (dirKey 5 0)).shares.getLsbD 0 = true := by decide +kernel

theorem met_Snoops :
    live.inService (agentRouter 0) = true ∧ (∃ e ∈ ({ live with leaving := [⟨0, 5, true, [], 0, 255, true, true⟩] }).leaving, e.agent = 0 ∧ e.line = 5) ∧
    (∀ e ∈ live.leaving, ¬ (e.agent = 0 ∧ e.line = 5)) ∧ live.findWay 256 5 = none ∧ (cached .m live).findWay 256 5 = some 0 ∧
    ((cached .m live).mergeL1 0 5).lineAt 256 (5 % cacheSets 256) 0 = ⟨.m, 5, List.replicate 64 3, 0, false, 1, false⟩ ∧
    ({ live with net := [msgOf .data 26 (agentRouter 0) 0 5] }).net.find? (fun (m : Msg) => m.kind == MsgKind.data && m.dst == agentRouter 0 && m.agent == 0 && m.addr == 5 && m.src == homeRouter (homeOf 5)) = some (msgOf .data 26 (agentRouter 0) 0 5) ∧
    ({ live with wants := [⟨.rdx, 0, 5, 255, true, none, false, false, 0⟩] }).wants.find? (fun (w : Want) => w.agent == 0 && w.line == 5) = some ⟨.rdx, 0, 5, 255, true, none, false, false, 0⟩ ∧
    (∃ v ∈ (live.putFld (.l2way 0 5) Fld.l2wayMask 0x8000).candidates 256 (5 % cacheSets 256) 5 false, (live.lineAt 256 (5 % cacheSets 256) v).st = .i) ∧
    ((dirIs (fun d => { d with owner := some 0, busy := some (txn [0]) }) live).awaiting 0 5).map (fun x => (x.1, x.2.2)) = some (dirKey 5 0, txn [0]) ∧
    (txn [0]).req.map (·.kind) = some .rdx ∧
    ({ live with net := [msgOf .ack 0 26 0 5] }).net.find? (fun (m : Msg) => m.kind == MsgKind.ack && m.dst == homeRouter (homeOf 5) && m.agent == 0 && m.addr == 5) = some (msgOf .ack 0 26 0 5) ∧
    0 ∉ (txn [0]).evicted ∧
    ({ live with net := [msgOf .ack 26 (agentRouter 0) 0 5] }).net.find? (fun (m : Msg) => m.kind == MsgKind.ack && m.dst == agentRouter 0 && m.agent == 0 && m.addr == 5) = some (msgOf .ack 26 (agentRouter 0) 0 5) ∧
    (cached .s live).findLine 256 5 = some ⟨.s, 5, List.replicate 64 3, 0, false, 1, false⟩ ∧ (msgOf .retry 26 0 0 5).credit = true ∧
    (msgOf .absent 26 0 0 5).lcore = some 0 ∧ (msgOf .absent 26 0 0 5).grant ≠ 1 := by decide +kernel

theorem met_DeviceMessages :
    ({ live with net := [devOf .drd] }).devMsg .drd coreReq 0x0C00070018 1 = some (devOf .drd) ∧ live.target 0x0C00070018 = .global ∧
    ({ live with net := [devOf .drd] }).devFirst (devOf .drd) = true ∧
    ({ live with net := [{ devOf .dwr with tag := 2 }, devOf .drd] }).devFirst (devOf .drd) = false ∧ live.devMsg .drd coreReq 0x0C00070018 1 = none ∧
    ({ live with net := [devOf .dwr] }).devMsg .dwr coreReq 0x0C00070018 1 = some (devOf .dwr) ∧
    ({ live with net := [devOf .drsp] }).devMsg .drsp coreReq 0x0C00070018 1 = some (devOf .drsp) ∧ reqKey coreReq = some 0 ∧
    { devOf .drsp with refused := true }.refused = true ∧
    ((dirIs (fun d => { d with owner := some 0, busy := some { txn [0] with reports := [(0, 3)] } }) live).awaiting 0 5).map (fun x => x.2.2.reports) = some [(0, 3)] ∧
    live.lko.stopped = false ∧ (live.putFlag (.dirctl 5) Fld.dirctlMode true).flag (.dirctl (homeOf 5)) Fld.dirctlMode = true ∧
    live.flag (.dirctl (homeOf 5)) Fld.dirctlMode = false ∧ live.awaiting 0 5 = none := by decide +kernel

theorem met_MainMemory :
    live.dieState 15 ≠ 2 ∧ live.dieState 15 ≠ 3 ∧ live.steer (groupOfDie 15) Fld.spsteerState = 0 ∧ live.scState (48 + groupOfDie 15) ≠ scNoSpare ∧
    (live.putFld (.spsteer 1) Fld.spsteerState 1).steer 1 Fld.spsteerState = 1 ∧ (live.putFld (.mcstat 0) Fld.mcstatDie0 2).dieState 0 = 2 ∧
    live.lineBusy (lineOfRow 0 0) = false ∧ live.dieFailed (lineOfRow 0 (2 ^ 21 - 1)) = false ∧ live.wordSyn 0 = 0 ∧
    ((live.putFld (.spsteer 0) Fld.spsteerState 2).putFld (.spsteer 0) Fld.spsteerDone (2 ^ 21)).steer 0 Fld.spsteerDone = 2 ^ 21 ∧ KV.wf 0 live.st.spare = true ∧
    live.inService (homeRouter (homeOf 0x1FFFFFF)) = true ∧ live.isSecond 0x1FFFFFF = false ∧ live.classA 0x1FFFFFF = false ∧
    (((live.putFld (.mctwin 0 15) Fld.mctwinSize 1).putFlag (.mctwin 0 15) Fld.mctwinEn true)).classA 0 = true := by decide +kernel

theorem met_Planes :
    live.plane false ≠ 2 ∧ live.plane true ≠ 3 ∧ ((live.setPlane false 3).plane false) = 3 ∧ ((live.setPlane false 2).plane false) = 2 ∧
    { live with fab := { live.fab with emptying := some false } }.fab.emptying = some false ∧ planeOf 0 2 = false ∧ (live.pair 0 2).replay = [] ∧
    ((live.setPair 0 2 { live.pair 0 2 with replay := [msgOf .rds 0 2 0 5] }).pair 0 2).replay = [msgOf .rds 0 2 0 5] := by decide +kernel

theorem met_Delivery :
    ((live.setPair 0 2 { live.pair 0 2 with expect := 1 }).pair 0 2).expect ≠ 0 ∧ (live.pair 0 2).expect = 0 ∧ (live.pair 0 2).next = 0 ∧
    (live.pair 0 2).replay = [] ∧ ((live.setPair 0 2 { live.pair 0 2 with replay := [msgOf .rds 0 2 0 5] }).pair 0 2).replay = [msgOf .rds 0 2 0 5] ∧
    ((live.setPair 0 2 { live.pair 0 2 with timeouts := 1 }).pair 0 2).timeouts = 1 ∧
    ({ live with net := [msgOf .rds 0 26 0 5] }).net.find? (fun (m : Msg) => m.dst == 26 && m.tag == 1 && m.kind.asks) = some (msgOf .rds 0 26 0 5) ∧
    ({ live with net := [devOf .drd] }).net.find? (fun (m : Msg) => m.dst == 49 && m.tag == 1 && m.kind.asks) = some (devOf .drd) ∧
    ({ live with net := [msgOf .snpx 26 0 0 5] }).net.find? (fun (m : Msg) => m.dst == 0 && m.tag == 1 && m.kind.asks) = some (msgOf .snpx 26 0 0 5) ∧
    live.net.find? (fun (m : Msg) => m.dst == 49 && m.tag == 1 && m.kind.asks) = none := by decide +kernel

theorem met_Slots :
    live.powered 56 = true ∧ State.reset.powered 56 = false ∧ State.reset.powered 57 = false ∧ live.admits 7 249 = [] ∧
    ({ live with net := [msgOf .rds 0 26 0 5] }).admits 5 249 = [msgOf .rds 0 26 0 5] ∧
    ({ slotted with net := [msgOf .rds 0 26 0 5, msgOf .rdx 1 26 1 5] }).admits 5 0 = [msgOf .rds 0 26 0 5, msgOf .rdx 1 26 1 5] ∧
    ({ slotted with net := [msgOf .rds 0 26 0 5, msgOf .rdx 1 26 1 13] }).admits 5 0 = [msgOf .rds 0 26 0 5, msgOf .rdx 1 26 1 13] := by decide +kernel

theorem met_Positions :
    scheduled.groupPasses host (Reg.jctl 31 3).addr true = true ∧ scheduled.groupAlive 31 = true ∧ isHost host = true ∧ isHost five = false ∧
    scheduled.flag (.jctl 0 0) Fld.jctlRun = false ∧ scheduled.server 0 0 < 5 ∧ KV.wf 0 scheduled.st.jstore = true ∧
    5 ≤ (scheduled.putFld (.jpos 0) (jposFld 0) 7).server 0 0 ∧ (scheduled.putFlag (.jctl 0 0) Fld.jctlRun true).flag (.jctl 0 0) Fld.jctlRun = true ∧
    State.reset.groupPasses host (Reg.jctl 31 3).addr true = true ∧ State.reset.groupAlive 31 = false ∧
    (scheduled.putFld (.jstat 0 0) Fld.jstatState jsLoading).jState 0 0 = jsLoading ∧ scheduled.schedOk 0 0 (scheduled.pos 0 0).bank = true ∧
    live.schedOk 0 0 (live.pos 0 0).bank = false ∧ ((posIs (fun y => { y with running := true }) scheduled).pos 0 0).running = true ∧
    (posIs (fun y => { y with running := true }) scheduled).startTime 0 0 false ((posIs (fun y => { y with running := true }) scheduled).nextStart 0 0).1 ((posIs (fun y => { y with running := true }) scheduled).nextStart 0 0).2 ≤ 0 ∧
    (waiting scheduled).slotWaits 0 0 = true ∧ scheduled.slotWaits 0 0 = false := by decide +kernel

theorem met_Spares :
    live.groupPasses host (0x0800018000 + 31 * 0x1000000 + 0x7FF8) true = true ∧ live.groupAlive 31 = true ∧ live.flag (.jctl 0 0) Fld.jctlRun = false ∧
    syndOf 87 = .bit 63 ∧ syndOf 3 = .bad ∧ syndOf 0x7F = .poison ∧ live.sstate 0 = 1 ∧ live.spareJug 0 < 5 ∧ live.server 0 0 < 5 ∧ live.lko.stopped = false ∧
    joining.joinEnded 0 0 = true ∧ joining.startTime 0 0 false (joining.nextStart 0 0).1 (joining.nextStart 0 0).2 ≤ joining.mtime.toNat ∧
    joining.slotWaits 0 0 = true ∧ (joining.pos 0 0).joinAlt = none ∧ 5 ≤ (joining.putFld (.jpos 0) (jposFld 0) 7).server 0 0 ∧ live.isRetired 16 4 = false ∧
    (List.range 4).find? (fun x => live.server 0 x == 3) = some 3 ∧ (∀ x, x < 4 → live.server 0 x ≠ 4) := by decide +kernel

theorem met_QueuePairs :
    live.groupPasses host (Reg.qpcfg 31 127).addr true = true ∧ live.groupAlive 31 = true ∧ pairOk (keyedPair 0xFF804400) = true ∧
    live.poolTakes 0 (live.fld (.gcpoolq 31 127) Fld.gcpoolqPid) (live.flag (.gcpoolq 31 127) Fld.gcpoolqAny) = true ∧ live.qpEn 31 127 = false ∧
    paired.qpEn 31 127 = true ∧ 16 ≤ 2 ^ paired.qpLog 31 127 true ∧ 2 ^ paired.qpLog 31 127 true < 17 ∧ KV.get [] (live.group 31).rxJob 127 = [] ∧
    KV.get [] ((live.setGroup 31 { live.group 31 with rxJob := KV.set [] [] 127 [frame0] }).group 31).rxJob 127 = [frame0] ∧
    live.qpHead 31 127 false = live.qpTail 31 127 false ∧ paired.qpHead 31 127 false ≠ paired.qpTail 31 127 false ∧
    (descOk.ioReadN (gcUnit 31) (descOk.qpPid 31 127) (descOk.pidWorld 255) (descOk.descAt 31 127 true) 32).2.2 = none ∧
    KV.get none (descOk.group 31).txJob 127 = none := by decide +kernel

theorem met_WordPorts :
    live.ifc 0 = 1 ∧ (upPort 0).portEn 0 = true ∧
    ((upPort 0).port 0).up = true ∧ ((upPort 0).port 0).standby = false ∧ ((upPort 0).port 0).rxDrop = false ∧ ((upPort 0).port 0).busOff = false ∧
    (upPort 0).canTakes 0 can0 = true ∧ (upPort 0).canTakes 0 { can0 with fdf := true } = false ∧ ((upPort 0).port 0).rx.length < 32 ∧
    ((portIs 0 (fun x => { x with integrating := true }) live).port 0).integrating = true ∧
    (live.putFlag (.pctrl 0 0) Fld.pctrlWakeen true).flag (.pctrl 0 0) Fld.pctrlWakeen = true ∧
    (live.putFlag (.canswf 0 0) Fld.canswfEn true).flag (.canswf 0 0) Fld.canswfEn = true ∧ live.wakeMatch 0 can0 = true ∧
    live.wakeMatch 0 { can0 with ide := true } = false ∧ 31 ≤ ofBytes ((portIs 0 (fun x => { x with partialRx := [31] }) live).port 0).partialRx ∧
    ofBytes (live.port 0).partialRx < 31 ∧ live.ifc 8 = 2 ∧ live.ifc 256 = 6 ∧ 3 * (5 * 60) ≤ 4 * 300 ∧ 4 * 300 ≤ 5 * (5 * 60) ∧
    (live.putFld (.snscfg 16 0) Fld.snscfgTick 60).fld (.snscfg 16 0) Fld.snscfgTick = 60 ∧ 64 * 64 ≤ 64 * 65 + 64 ∧ 64 * 65 ≤ 64 * 64 + 64 ∧
    ((live.putFlag (.snscfg 16 0) Fld.snscfgSel true).putFlag (.snscfg 16 0) Fld.snscfgSyncm true).ifc 256 = 7 ∧
    ((portIs 256 (fun x => { x with tx := [0x3000000000000000], sync := true }) live).port 256).tx = [0x3000000000000000] ∧
    bitsOf (0x3000000000000000 : W64) 62 60 = 3 ∧ bitsOf (0x3000000000000000 : W64) 47 0 = 0 ∧
    ((posIs (fun y => { y with idle := false }) live).pos 0 0).idle = false ∧ live.ifc 14 = 8 ∧ live.fld (.sercfg 0 14) Fld.sercfgMode ≠ 2 ∧
    (live.putFld (.sercfg 0 14) Fld.sercfgMode 2).fld (.sercfg 0 14) Fld.sercfgMode = 2 ∧ live.ifc 136 = 9 ∧
    (live.port 136).lands.getLsbD 1 = (false != live.flag (.fldcfg 8 8) Fld.fldcfgInv) ∧
    (live.port 136).lands.getLsbD 1 ≠ (true != live.flag (.fldcfg 8 8) Fld.fldcfgInv) ∧
    ((live.setGroup 8 { live.group 8 with adcQ := [8, 9] }).group 8).adcQ = [8, 9] ∧
    ((portIs 0 (fun x => { x with tx := [1, 2] }) live).port 0).tx ≠ [] := by decide +kernel

theorem met_PortsEnable :
    live.groupPasses host (Reg.pctrl 31 15).addr true = true ∧ live.groupAlive 31 = true ∧ live.reachesPort 255 511 = true ∧ live.reachesPort 5 511 = false ∧
    live.portEn 511 = false ∧ (upPort 511).portEn 511 = true ∧ ((portIs 511 (fun x => { x with testing := true }) live).port 511).testing = true ∧
    (live.port 511).testing = false ∧ live.ifc 128 = 3 ∧ live.ifc 132 = 4 ∧ live.ifc 496 = 5 ∧ ((upPort 128).port 128).up = true ∧ (upPort 128).portEn 128 = true ∧
    (upPort 128).macTakes 128 (List.replicate 64 0xFF) = true ∧ etherKey (List.replicate 64 0xFF) ≠ 0x88B5 * 65536 ∧
    ((portIs 128 (fun x => { x with queue := [{ frame0 with kind := 5, data := List.replicate 64 1 }] }) live).port 128).nextFrame = some { frame0 with kind := 5, data := List.replicate 64 1 } ∧
    live.ifc 500 = 10 ∧ (upPort 500).portEn 500 = true ∧ ((upPort 500).port 500).up = true ∧ (upPort 500).alive (16 + 31) = true ∧
    (live.putFlag (.pxcmd 31 4) Fld.pxcmdBusy true).flag (.pxcmd 31 4) Fld.pxcmdBusy = true ∧
    bitOf (0x80000000 : W64) 31 = true ∧ bitOf (0x80000000 : W64) 29 = false ∧ live.flag (.pcicfg 31 4) Fld.pcicfgRole = false ∧
    (live.putFlag (.pcicfg 31 4) Fld.pcicfgRole true).flag (.pcicfg 31 4) Fld.pcicfgRole = true ∧ (live.ioReadN (gcUnit 31) 255 true 0 4).2.2 = none ∧
    ((portIs 500 (fun x => { x with syncs := [0] }) live).port 500).syncs = [0] ∧ 4096 * 2 ^ live.fld (.pciwin 31 4) Fld.pciwinSize ≤ 0x80000000 ∧
    live.alive (live.fld (.pcicfg 31 4) Fld.pcicfgIcl) = true := by decide +kernel

theorem met_Router :
    (live.group 31).accept = [] ∧ ((held0 frame0 live).group 0).accept = [frame0] ∧ live.flag (.rtcfg 0) Fld.rtcfgEn = false ∧
    (routed 0 0).flag (.rtcfg 0) Fld.rtcfgEn = true ∧ (∀ i ∈ (routed 0 0).rtEntries 0 false, (routed 0 0).rtPairs 0 false i = true) ∧
    ((routed 0 0).rtEntries 0 false).find? (fun k => (routed 0 0).rtMatches 0 false k frame0) = some 4095 ∧ (routed 0x80000000 0).rtf 0 false 4095 4 31 31 = 1 ∧
    (routed 0x40000000 0).rtf 0 false 4095 4 30 30 = 1 ∧ (routed 0x10000000 0).rtf 0 false 4095 4 28 28 = 1 ∧ (routed 0 0).rtf 0 false 4095 6 31 30 = 0 ∧
    (routed 0 0x42000000).rtf 0 false 4095 6 31 30 = 1 ∧ (routed 0 0x42000000).rtf 0 false 4095 6 25 25 = 1 ∧
    (routed 0 0x42000000).e2eResult 0 false 4095 { frame0 with data := [BitVec.ofNat 8 (crcP8 [0, 0, 0]), 0] } = 0 ∧
    (routed 0 0x42000000).e2eResult 0 false 4095 { frame0 with data := [BitVec.ofNat 8 (crcP8 [0, 0, 0] + 1), 0] } = 1 ∧
    (live.putFlag (.rtcfg 0) Fld.rtcfgMissdel true).flag (.rtcfg 0) Fld.rtcfgMissdel = true ∧
    ((live.setGroup 8 { live.group 8 with forwards := [⟨0, 8, 128, { frame0 with kind := 5 }, 0, 0⟩] }).group 8).forwards.find? (fun w => w.src == 0) = some ⟨0, 8, 128, { frame0 with kind := 5 }, 0, 0⟩ ∧
    live.groupAlive 8 = true ∧ live.bitIn (.rtaccept 8) Fld.rtacceptAccept 0 = false ∧
    (live.putFld (.rtaccept 8) Fld.rtacceptAccept 1).bitIn (.rtaccept 8) Fld.rtacceptAccept 0 = true ∧ ({ frame0 with kind := 5 } : Frame).fragments ≤ 0 + 1 ∧
    1 < ({ frame0 with data := List.replicate 2048 1 } : Frame).fragments ∧ directIfc (live.ifc 128) = true ∧ (live.port 128).queue.length < 16 ∧
    (claimed live).bufferUsed 128 + frame0.size ≤ (claimed live).bufferOf 128 ∧ (∀ k, ∀ i ∈ live.rtEntries 0 k, live.rtPairs 0 k i = true) ∧
    live.groupPasses host (Reg.rtupdcmd 31).addr true = true ∧ live.layCarries 5 0 = false ∧ live.flag (.rtstat 31) Fld.rtstatUbusy = false ∧
    live.rtInvalid (fun k => live.fld (.rtupdw 31 k) Fld.rtupdwValue) = false ∧
    (live.putFld (.rtupdw 31 7) Fld.rtupdwValue 1).rtInvalid (fun k => (live.putFld (.rtupdw 31 7) Fld.rtupdwValue 1).fld (.rtupdw 31 k) Fld.rtupdwValue) = true := by decide +kernel

theorem met_Services :
    slotServes host 127 = false ∧ slotServes host 128 = true ∧ slotServes ⟨0, false, 0x700, none⟩ 127 = true ∧
    (live.putFlag (.svres 128) Fld.svresBusy true).flag (.svres 128) Fld.svresBusy = true ∧ live.flag (.svres 128) Fld.svresBusy = false ∧
    (argued 4 0 1 live).fld (.svarg 128) Fld.svargClass = 4 ∧
    (argued 1 511 1 live).fld (.svarg 128) Fld.svargIndex + (argued 1 511 1 live).fld (.svarg 128) Fld.svargCount ≤ classSize 1 ∧ classSize 1 < 511 + 2 ∧
    (∀ x ∈ live.lay.claims, x.cls = 1 → x.owner ≠ 0 → x.first + x.count ≤ 511 ∨ 512 ≤ x.first) ∧
    (claimed live).lay.claims = [⟨1, 0, 512, 0, true, 33⟩, ⟨2, 0, 2048, 0, true, 33⟩, ⟨3, 0, 2048, 0, true, 33⟩] ∧
    (∃ x ∈ [(⟨1, 511, 1, 0, false, 33⟩ : Claim)], x.image = false ∧ x.owner = 0 ∧ x.covers 1 511 = true) ∧ live.portEn 511 = false ∧ (upPort 511).portEn 511 = true ∧
    live.fld (.ptent 5) Fld.ptentState = 0 ∧ (partition 1).fld (.ptent 5) Fld.ptentState = 1 ∧ ((partition 1).lay.parts.find? (fun x => x.pid == 5)).isSome = true ∧
    (partition 2).fld (.ptent 5) Fld.ptentState = 2 ∧
    ((partition 2).lay.created.find? (fun x => x.pid == 5)).map (fun x => (x.mask.getLsbD 127, x.mask.getLsbD 126)) = some (true, false) ∧
    (partition 2).armedCore 127 = false ∧ bitsOf (((partition 3).lc 127).creg 0x48) 7 0 ≠ 5 ∧
    ((partition 3).wr (.ptcore 5 1) 0x8000000000000000).inRunSet 5 127 = true ∧ (partition 3).inRunSet 5 127 = false ∧
    (∃ l, l < 128 ∧ l ≠ 127 ∧ ((partition 3).wr (.ptcore 5 0) 1).inRunSet 5 l = true) ∧ 0x1001 % 256 ≠ 255 := by decide +kernel

theorem met_Mailboxes :
    live.poolAnswers = true ∧ { live with lko := { live.lko with causes := [4] } }.poolAnswers = false ∧ epPid ((request 1).mbSep 0) = some 5 ∧
    epPid ((request 1).mbRep 1) = some 5 ∧ live.mbEn 0 = false ∧ (request 1).mbEn 0 = true ∧ (request 1).mbFull 0 = true ∧
    (request 1).mbEn 1 = true ∧ (request 1).mbFull 1 = false ∧ ((request 1).putFld .tsstat Fld.tsstatState 2).trustAway = true ∧ live.powered 0 = true ∧
    ((request 1).putFlag (.mbcfg 2) Fld.mbcfgEn true).powered (5 / 256) = true ∧
    KV.get none ({ live.lay with mbTimer := KV.set none [] 1022 (some 5) }).mbTimer 1022 = some 5 ∧ isHost five = false := by decide +kernel

theorem met_TrustServices :
    State.reset.trustUp = false ∧
    (∀ n ∈ [(1, request 1), (2, request 2), (3, request 3), (4, request 4), (5, request 5), (6, request 6), (7, request 7), (8, request 8), (9, request 9), (10, request 10), (11, request 11)], n.2.trustUp = true ∧ n.2.trustAway = false ∧ n.2.pairFormed 0 = true ∧ n.2.mbFull 0 = true ∧ n.2.mbFull 1 = false ∧ imgU (n.2.mbMessage 0) 0 2 = n.1 ∧ imgU (n.2.mbMessage 0) 2 2 = 0 ∧ n.2.recorded 0 n.1 (imgU (n.2.mbMessage 0) 4 4) = none ∧ n.2.powered (n.2.mbRep 1 / 256) = true) ∧
    (request 2).trust.trngOk = true ∧ KV.get none ((request 4).trustTook 0).trust.keys 511 = none ∧
    ((handing 2 511 2).trust.hands.find? (fun x => x.n == 15)) = some ⟨15, 510, 0, 0⟩ ∧
    (handing 2 511 2).hoState 15 = 2 ∧ (handing 2 511 2).hoKind 15 = 2 ∧ (handing 2 511 2).claimOwner 1 511 = none ∧ (handing 2 511 2).mbFull 1021 = false ∧
    (handing 5 127 2).windowOf 127 < 8 ∧ (handing 1 63 1).hoState 15 = 1 ∧ (handing 1 63 1).fwSettled = true ∧
    ((handing 1 5 1).putFld (.fwratt 0 5) Fld.fwrattClass 63).regionClass 5 = 63 ∧ (handing 1 5 3).regionClass 5 = 0 ∧
    live.trust.hands.find? (fun x => x.n == 15) = none := by decide +kernel

theorem met_Firebreaks :
    host.pid = 255 ∧ host.world = true ∧ five.pid ≠ 255 ∧ (live.putFld .tsstat Fld.tsstatState 2).trustDown = true ∧ live.trustDown = false ∧
    (live.putFlag (.fwstat 39) Fld.fwstatPend true).flag (.fwstat 39) Fld.fwstatPend = true ∧ live.flag (.fwstat 39) Fld.fwstatPend = false ∧
    KV.get none live.fw.applyAt 39 = none ∧ KV.get none (applied 39 1000).fw.applyAt 39 = some 0 ∧
    (applied 39 999).mtime.toNat < 1000 ∧ 1000 ≤ (applied 39 1000).mtime.toNat ∧ (KV.get ([], 0) live.fw.old 39).2.toNat + 2000 ≤ (applied 39 2000).mtime.toNat ∧
    live.alive 47 = true ∧ live.trustUp = true ∧ live.lko.stopped = false ∧ (live.core .trust).halted = false ∧ (live.core .trust).run = false ∧
    (live.putFld .tsstat Fld.tsstatState 2).fld .tsstat Fld.tsstatState = 2 ∧ live.clk.started = true ∧
    live.trust.startedAt.toNat + 200000000 ≤ (later live).mtime.toNat := by decide +kernel

theorem met_FaultsRecover :
    ((coreIs (fun c => { c with mate := some 1 })).lc 0).duty = .pair ∧ ((coreIs (fun c => { c with mate := some 1 })).lc 0).pausing = false ∧
    live.lko.stopped = false ∧ ((coreIs (fun c => { c with rollbacks := [0] })).lc 0).rollbacks = [0] ∧
    (voting.lc 0).pausing = true ∧ (voting.lc 0).lead < 9 ∧ (voting.lc 0).place.isSome = true ∧
    (spared 0 8 voting).hasSpare 0 = true ∧ (spared 0 8 voting).spareOf 0 < 9 ∧ voting.hasSpare 0 = false ∧
    ((coreIs (fun c => { c with duty := .split })).lc 0).duty = .split ∧ live.alive 0 = true ∧
    ((coreIs (fun c => { c with duty := .lost })).lc 0).slots.find? (fun y => !live.car.lostTest.contains (16 * 0 + y) && !live.isRetired 0 y) = some 0 ∧
    (turning 51 1 live).carReady 51 = true ∧ (turning 0 8 (coreIs id)).carReady 0 = true ∧ (turning 51 1 live).bitIn .carctl Fld.carctlKinds (scopeKind 51) = true ∧
    ((turning 0 8 (coreIs id)).longest 0).isSome = true ∧ ((turning 49 8 live).longest 49).isSome = true ∧
    ((turning 50 8 live).longest 50).isSome = true ∧ ((turning 51 1 live).longest 51).isSome = true ∧ (turning 50 8 live).phase 8 = 1 ∧
    (turning 49 8 live).steer 1 Fld.spsteerState = 0 ∧ live.carReady 0 = false ∧ (live.putFld (.carscope 51) Fld.carscopeState scTesting).scState 51 = scTesting ∧
    (spared 0 8 live).spareOf 0 < 9 ∧ ({ live.car with retest := [51] } : Carousel).retest.contains 51 = true ∧ live.windowOpen 0 = true ∧
    KV.get none (KV.set none [] 0 (some (0 : Nat)) : KV (Option Nat)) 0 = some 0 ∧ live.alive (48 + 7) = true ∧
    (live.setHome 7 { live.home 7 with refFail := true }).home 7 ≠ live.home 7 ∧ live.lko.emergencies = [] ∧ domainsOf (2 ^ 60) = [60] ∧ (5 : W64) ≤ 5 ∧
    live.pwr.falling = false ∧ live.lko.hBeat = none ∧ isHost host = true ∧ host.pid = 255 := by decide +kernel

theorem met_Power :
    bandOf (live.pwr.vbus * 10 + live.trimOf 0x142) = 0 ∧ bandOf 7501 = 1 ∧ bandOf 3599 = 2 ∧ bandOf 2399 = 3 ∧ bandOf 899 = 4 ∧
    live.pwr.candidate = 0 ∧ live.pwr.band = 0 ∧ ({ live.pwr with feedOff := 2 } : Power).feedOff.getLsbD 1 = true ∧
    (later { live with pwr := { live.pwr with since := KV.set 0 [] 3 1 } }).heldFor 3 10000000 = true ∧ live.pwr.feedOff.getLsbD 1 = false ∧ live.phase 8 ≠ 3 ∧
    live.bitIn .pwrph Fld.pwrphPolhalf 25 = false ∧ live.pwr.polHalf2.testBit 25 = false ∧ live.flag (.pwrreqs 255) Fld.pwrreqsBusy = false ∧
    ownerDenies (live.rd (.pwrown 47)) five = true ∧ ownerDenies (live.rd (.pwrown 47)) host = false ∧ live.domBusy 0 47 = false ∧ live.domInUse 47 = false ∧
    (live.putFlag (.jctl 31 3) Fld.jctlRun true).domInUse 47 = true ∧ live.stateCheck 255 opDoze 0 host = none ∧ live.needsConsent host opDoze 0 = false ∧
    live.pwrReq 254 = none ∧ ({ live with pwr := { live.pwr with request := KV.set none [] 254 (some (opDomOff, 47)) } }).pwrReq 254 = some (opDomOff, 47) ∧
    live.dozeAsked = false ∧ ({ live with pwr := { live.pwr with request := KV.set none [] 0 (some (opStandby, 0)) } }).dozeAsked = true ∧
    (live.putFlag (.pctrl 0 0) Fld.pctrlWakeen true).wakeHolds 1 0 = true ∧ live.wakeHolds 2 8 = false ∧
    ((live.putFlag .pwrwake Fld.pwrwakeAlarm true).rd .pwrwaket).toNat ≤ (2 ^ 64 - 1) ∧
    (live.putFld .pwrtemp Fld.pwrtempTjwarn 105).fld .pwrtemp Fld.pwrtempTjwarn * 10 < 1051 ∧ sensorDomain 58 = some 60 ∧ sensorDomain 59 = none ∧
    live.throttlable 0 = false := by decide +kernel

theorem met_Clocks :
    live.clk.internal = false ∧ (live.putFld (.clkpll 23) Fld.clkpllState 1).pllState 23 = 1 ∧
    (live.putFld (.clkpll 22) Fld.clkpllState 2).pllState (pllBackup 23) = 2 ∧ (live.putFld (.clkpll 23) Fld.clkpllState 3).pllState 23 = 3 ∧ live.pllState 23 = 0 ∧
    (∀ e ∈ pllDomains 17, live.inReset e = false) ∧ keyedOk .mtrate 8 (keyedPair 0) = true ∧ keyedOk .mtrate 8 5 = false ∧
    keyedOk .mtstep 8 (keyedPair 0xFFFFFFFF) = true ∧ toSigned 32 (bitsOf (keyedPair 0xFFFFFFFF) 31 0) = -1 ∧ (∀ c, c < 16 → State.reset.powered c = false) ∧
    (¬ ∀ c, c < 16 → live.powered c = false ∨ live.inReset c = true) ∧ live.pending = [] ∧
    live.domBusy 0 47 = false ∧ live.powered 47 = true ∧ live.inReset 47 = false ∧ (live.setHeld 47 true).inReset 47 = true ∧ State.reset.powered 47 = false ∧
    (live.flag (.rstreqs 255) Fld.rstreqsBusy) = false ∧ ({ State.reset with pwr := { State.reset.pwr with vbus := 480 } }).vinValid = true ∧
    State.reset.clk.started = false ∧ State.reset.clk.maker = false ∧ State.reset.dbg.scan = false ∧ State.reset.pwr.standby = false ∧
    hasField 8 = true ∧ live.alive (16 + 8) = true ∧ live.bitIn .caladc Fld.caladcFail 8 = false ∧
    (KV.get 0 live.test.adcSeen 8).toNat + 1000000000 ≤ (later live).mtime.toNat ∧ hasField 0 = false ∧ maker.lifeCycle = 1 ∧ live.lifeCycle = 0 ∧
    maker.otp.fuses.length + (maker.test.repairs.filter (fun e => e.fuse)).length ≤ 512 := by decide +kernel

theorem met_Debug :
    live.dbgAnswers false = true ∧ ({ live with pwr := { live.pwr with band := 4 } }).dbgAnswers false = false ∧ (live.dbgPort false).step = none ∧
    (portDbg (fun p => { p with level := 3 }) maker).reach false = reachAll ∧ live.reach false = reachAll ∧ maker.reach false = reachId ∧ reachId < reachLog ∧
    (portDbg (fun p => { p with nonce := some (5, 0) }) live).dbgNonce false = some 5 ∧
    (later (portDbg (fun p => { p with nonce := some (5, 0) }) live)).dbgNonce false = none ∧ live.dbgNonce false = none ∧
    (portDbg (fun p => { p with last := some (7, 0, []) }) live).dbgPort false ≠ live.dbgPort false ∧ maker.trustAway = false ∧ dbgLogBlock 0x0C000A0000 = true ∧
    maker.dbgRight false 0x39 = some 1 ∧ maker.dbgRight false 0x08 = some 3 ∧ maker.dbgRight false 0x07 = none ∧ lcNeeds 0 1 = some (0, 0) ∧ lcNeeds 1 3 = none ∧
    live.lcAuthorised false (0, 0) [] = true ∧ live.lcReady 3 = true ∧ (live.putFlag (.lcdtrc 3) Fld.lcdtrcEn true).flag (.lcdtrc 3) Fld.lcdtrcEn = true ∧
    isHost host = true := by decide +kernel

theorem met_SnapshotsAndNetwork :
    (((live.putFlag .talcfg Fld.talcfgEn true).putFld .talcfg Fld.talcfgPer 100).tickPeriod) = 100000 ∧ (live.putFlag .talcfg Fld.talcfgEn true).talOn = true ∧
    live.talOn = false ∧ (live.putFlag .talstat Fld.talstatBusy true).flag .talstat Fld.talstatBusy = true ∧ live.ringUsed + 0 ≤ live.ringSize ∧ live.vnRuns = true ∧
    (roleIs 3 live).vnRuns = false ∧ ((upPort (trunkPort 3)).port (trunkPort 3)).up = true ∧
    (beacon0 7).secured = true ∧ (7 : Nat) ≠ live.otp.slot ∧ (beacon0 0).slot.val = live.otp.slot ∧
    (live.putFld .vnstat Fld.vnstatPresent 0x80).vnPresent 7 = true ∧ live.beaconsGone 7 = true ∧
    (roleIs 1 live).vnRole = 1 ∧ ({ live.vn with hold := false } : Vn).hold = false ∧
    ((roleIs 1 live).putFld .vnstat Fld.vnstatRmslot 5).ringmaster ≠ live.otp.slot ∧ live.vn.hold = true ∧
    (later { live with vn := { live.vn with upAt := some 0 } }).vn.upAt = some 0 ∧ live.vn.lastSync.toNat + 23437500 ≤ (later live).mtime.toNat ∧
    live.alive 47 = true ∧ live.vnRole ≠ 3 ∧ remoteOffset 0x40 = true ∧
    ((live.putFlag (.vnin 3) Fld.vninEn true).putFld (.vnin 3) Fld.vninPid 5).flag (.vnin 3) Fld.vninEn = true ∧ (opened 1 live).lineFail 5 false false 0x40 = none ∧
    (live.putFlag .vnxstat Fld.vnxstatBusy true).flag .vnxstat Fld.vnxstatBusy = true ∧ live.vnRole ≠ 2 ∧ (roleIs 2 live).vnRole = 2 ∧
    live.vnPresent 7 = false := by decide +kernel

theorem met_LifePath :
    lifePath State.reset.otp.lcFuse = true ∧ lifePath 31 = true ∧ Memory.wf live.st = true ∧ Memory.wf scheduled.st = true := by decide +kernel

theorem met_Issue2 :
    (∀ p ∈ ((coreIs id).core (.lcore 0)).inflight, ¬ (p.fp = true ∧ p.reg = 31)) ∧
    ((coreIs (fun c => { c with doom := some doomed })).core onCore.eng).doom = some doomed ∧
    ((coreIs (fun c => { c with doom := some doomed })).core onCore.eng).ready = true ∧
    ((coreIs (fun c => { c with doom := some doomed })).core onCore.eng).haltActs onCore.eng = false ∧
    doomed.exc.det < ((coreIs (fun c => { c with doom := some doomed, nxt := 9 })).core onCore.eng).issueCycle onCore := by decide +kernel

theorem met_Atomics2 :
    ((((coreIs near).promoted onCore.eng [(0x0900000100, 8, 0x0900000100)]).drainOwn onCore.eng).nearBytes onCore.eng ((coreIs near).core onCore.eng) false 0x0900000100 0x0900000100 8).map (·.2) = some (List.replicate 8 0) := by decide +kernel

theorem met_CoreEvents2 :
    (match (tabled.walk onCore.eng (tabled.core onCore.eng) .write 0x1000).2 with | .entry _ => true | _ => false) = true ∧
    tabled.walkMisses onCore.eng 255 true (tabled.walk onCore.eng (tabled.core onCore.eng) .write 0x1000).1 = [] ∧
    (match ((opened (homeOf 0) (coreIs id)).walk onCore.eng ((coreIs id).core onCore.eng) .write 0x1000).2 with | .fault _ _ _ _ _ => true | _ => false) = true ∧
    ((coreIs id).core onCore.eng).decodeNeeds 0x0900004000 = true ∧ (∀ b ∈ ((coreIs id).core onCore.eng).sbuf, b.pa / 64 ≠ 0x0900004000 / 64) ∧
    entry0.leaves ((coreIs (fun c => { c with sbuf := [entry0], nxt := 1 })).core onCore.eng) = true := by decide +kernel

theorem met_Skidder2 :
    (∀ line ∈ live.walkLines 15 ⟨4, .l2, false, 0, 0, 1, false⟩, live.lockWaits 15 ⟨4, .l2, false, 0, 0, 1, false⟩ line = false) ∧ live.lockedIn 271 5 = false ∧
    (∀ v < 16, ∀ w < 16, ((cached .m live).lineAt 256 5 v).st ≠ .i → ((cached .m live).lineAt 256 5 w).st ≠ .i → v = w) := by decide +kernel

theorem met_Caches2 :
    256 ∈ { live with ageErr := [256] }.ageErr ∧ 256 ∉ live.ageErr := by decide +kernel

theorem met_Homes2 :
    live.isUnmapped 255 (5 * 64) = false ∧ live.isUnmapped 5 (0x2000000 * 64) = true ∧ live.homeTakes 1 0x2000000 = true ∧ live.busyCount 5 < 64 ∧
    (ask 1).credit = true := by decide +kernel

theorem met_Snoops2 :
    ((dirIs (fun d => { d with owner := some 0, busy := some (txn [0]) }) live).home 5).queue = [] ∧
    ({ live with net := [msgOf .data 0 26 0 5] }).net.find? (fun (m : Msg) => m.kind == MsgKind.data && m.dst == homeRouter (homeOf 5) && m.agent == 0 && m.addr == 5) = some (msgOf .data 0 26 0 5) ∧
    ({ live with net := [msgOf .poison 26 (agentRouter 0) 0 5] }).net.find? (fun (m : Msg) => m.kind == MsgKind.poison && m.dst == agentRouter 0 && m.agent == 0 && m.addr == 5 && m.src == homeRouter (homeOf 5)) = some (msgOf .poison 26 (agentRouter 0) 0 5) ∧
    ({ live with net := [msgOf .absent 49 (agentRouter 0) 0 8] }).net.find? (fun (m : Msg) => m.kind == MsgKind.absent && m.dst == agentRouter 0 && m.addr == 8 && m.tag == 1) = some (msgOf .absent 49 (agentRouter 0) 0 8) ∧
    ((coreIs (fun c => { c with frozen := some (.access loading) })).lc 0).frozen = some (.access loading) ∧ loading.late = none ∧
    loading.pieces.find? (fun (p : Piece) => p.got.isNone && p.pa == 8) = some ⟨8, 8, 8, none, none⟩ ∧
    ({ live with wants := [⟨.upg, 0, 5, 255, true, none, false, false, 0⟩] }).wants.find? (fun (w : Want) => w.agent == 0 && w.line == 5 && (w.kind == MsgKind.upg)) = some ⟨.upg, 0, 5, 255, true, none, false, false, 0⟩ := by decide +kernel

theorem met_Device2 :
    (txn [0]).fore = true ∧ (txn [0]).since + (txn [0]).tmo * 1000 ≤ live.mtime.toNat ∧ { txn [0] with fore := false }.fore = false ∧
    live.mtime.toNat < { txn [0] with tmo := 1 }.since + { txn [0] with tmo := 1 }.tmo * 1000 := by decide +kernel

theorem met_MainMemory2 :
    live.placeOfElem 1 7 = some 15 ∧ live.placeOfElem 0 8 = none ∧ live.placeOfElem 1 8 = none ∧ live.steer 0 Fld.spsteerState ≠ 3 ∧
    ((live.putFld (.spsteer 0) Fld.spsteerState 3)).steer 0 Fld.spsteerState = 3 ∧
    (((live.putFld (.spsteer 1) Fld.spsteerState 1)).putFld (.spsteer 1) Fld.spsteerDie 7).steer 1 Fld.spsteerDie = 7 ∧
    (live.putFld (.spsteer 1) Fld.spsteerState 2).steer 1 Fld.spsteerState = 2 ∧ (live.putFld (.mcstat 0) Fld.mcstatDie0 2).dieFailed (lineOfRow 0 0) = true ∧
    live.isSecond (lineOfRow 0 0) = false ∧ live.classA (lineOfRow 0 0) = false ∧ live.wordSyn (twinWord 0) = 0 := by decide +kernel

theorem met_Planes2 :
    KV.get (0, 0) live.fab.links (linkKey false 2 3) = (0, 0) ∧
    KV.get (0, 0) { live with fab := { live.fab with links := KV.set (0, 0) [] (linkKey true 59 3) (5, 2) } }.fab.links (linkKey true 59 3) = (5, 2) ∧
    KV.get (0, 0) { live with fab := { live.fab with links := KV.set (0, 0) [] (linkKey true 59 3) (5, 1) } }.fab.links (linkKey true 59 3) = (5, 1) ∧
    live.lko.stopped = false := by decide +kernel

theorem met_Slots2 :
    ({ live with net := [msgOf .rds 0 26 0 5] }).talOn = false ∧ slotted.talOn = false := by decide +kernel

theorem met_Positions2 :
    (live.putFld (.jstat 0 0) Fld.jstatState jsExcept).stoppedSelf 0 0 = true ∧ (scheduled.pos 0 0).loaded 200000 = true ∧
    ((posIs (fun y => { y with loadAt := some 5 }) scheduled).pos 0 0).loaded 4 = false ∧ joining.takeoverDue 0 0 = true ∧
    scheduled.takeoverDue 0 0 = false := by decide +kernel

theorem met_Spares2 :
    ((posIs (fun y => { y with joinAlt := some 0 }) joining).pos 0 0).joinAlt = some 0 ∧ (posIs (fun y => { y with joinAlt := some 0 }) joining).joinEnded 0 0 = true ∧
    0 ≤ joining.startTime 0 0 (joining.pos 0 0).bank (joining.latestStart 0 0 (joining.pos 0 0).bank joining.mtime.toNat (joining.nextStart 0 0)).1 (joining.latestStart 0 0 (joining.pos 0 0).bank joining.mtime.toNat (joining.nextStart 0 0)).2 ∧
    lostPos.joinEnded 0 0 = true ∧ 5 ≤ lostPos.server 0 0 ∧ (lostPos.pos 0 0).haltedAs = some jsHalted ∧
    (posIs (fun y => { y with haltedAs := none }) lostPos).joinEnded 0 0 = true ∧ 5 ≤ (posIs (fun y => { y with haltedAs := none }) lostPos).server 0 0 ∧ ((posIs (fun y => { y with haltedAs := none }) lostPos).pos 0 0).faultAt = none ∧
    live.isRetired 16 3 = false ∧ live.spareJug 0 < 5 ∧ live.sstate 0 ≤ 2 ∧ (live.putFld (.carscope 16) Fld.carscopeRetired 16).isRetired 16 4 = true ∧
    2 < (live.putFld (.jpos 0) Fld.jposSstate 3).sstate 0 ∧ live.spareJug 0 = 4 ∧
    live.flag (.jctl 31 0) Fld.jctlRun = false ∧ (live.putFlag (.jwbank 31) Fld.jwbankAlt true).flag (.jwbank 31) Fld.jwbankAlt = true := by decide +kernel

theorem met_QueuePairs2 :
    127 ∈ ((live.setGroup 31 { live.group 31 with txHeld := [127] }).group 31).txHeld ∧ 127 ∉ (paired.group 31).txHeld ∧
    (descOk.ioDescriptor (gcUnit 31) (descOk.qpPid 31 127) (descOk.pidWorld (descOk.qpPid 31 127)) (descOk.descAt 31 127 true) 32).2.2 = none ∧
    ofBytes (((descOk.ioDescriptor (gcUnit 31) (descOk.qpPid 31 127) (descOk.pidWorld (descOk.qpPid 31 127)) (descOk.descAt 31 127 true) 32).2.1.drop 10).take 2) % 2 = 1 ∧
    (launched 0xFFFF 0).launch.toNat ≤ live.mtime.toNat ∧ (launched 0xFFFF 0).frame.port = 0xFFFF ∧ (launched 0xFFFF 0).status = 0 ∧
    live.mtime.toNat < (launched 511 9).launch.toNat ∧ (launched 511 9).frame.port ≠ 0xFFFF ∧ live.flag (.rtown 31 511) Fld.rtownValid = false := by decide +kernel

theorem met_WordPorts2 :
    wordIfc ((upPort 0).ifc 0) = true ∧ (portIs 0 (fun x => { x with tx := [1, 2] }) (upPort 0)).sends 0 = true ∧
    (upPort 0).flag (.pctrl 0 0) Fld.pctrlLoop = false ∧ ((portIs 8 (fun x => { x with asleep := true }) live).port 8).asleep = true ∧
    ((portIs 256 (fun x => { x with supply := true }) live).port 256).supply = true ∧
    ((portIs 0 (fun x => { x with standby := true }) live).port 0).standby = true := by decide +kernel

theorem met_PortsEnable2 :
    (portIs 128 (fun x => { x with queue := [{ frame0 with kind := 5, data := List.replicate 64 1 }] }) (upPort 128)).sends 128 = true ∧
    (upPort 128).flag (.pctrl 8 0) Fld.pctrlLoop = false ∧
    live.groupPasses host (Reg.pxcmd 31 4).addr true = true ∧ live.groupPasses host (Reg.pcimsi 31 4).addr true = true := by decide +kernel

theorem met_Services2 :
    (partition 4).fld (.ptent 5) Fld.ptentState = 4 ∧ live.slotRank ⟨host, 0, .claim⟩ ≠ live.slotRank ⟨host, 1, .release⟩ := by decide +kernel

theorem met_Mailboxes2 :
    meetRank (.send { host with lcore := some 3 }) ≠ meetRank (.send { host with lcore := some 2 }) := by decide +kernel

theorem met_Faults2 :
    ((coreIs id).lc 0).place = some 0 ∧ ((coreIs id).lc 0).frozen = none ∧ ((coreIs id).lc 0).doom = none ∧ ((coreIs id).lc 0).rollbacks = [] ∧
    (later (coreIs id)).fld .lkocfg Fld.lkocfgHang * 1000 + ((coreIs id).lc 0).issuedAt.toNat ≤ (later (coreIs id)).mtime.toNat ∧
    (later (coreIs id)).alive 0 = true ∧ ((later (coreIs id)).lc 0).wait = none ∧ ((later (coreIs id)).lc 0).halted = false ∧ ((later (coreIs id)).lc 0).duty ≠ .lost ∧
    KV.get none { live.car with swapping := KV.set none [] 0 (some 0) }.swapping 0 = some 0 ∧
    (∀ m, m < 128 → live.hosts 15 m = true → (live.lc m).duty ≠ .degraded) := by decide +kernel

theorem met_Power2 :
    live.fld .pwrtemp Fld.pwrtempTjcrit * 10 < 2000 ∧ live.powered 60 = true ∧ live.pwr.standby = false ∧ live.flag .pwrstat Fld.pwrstatAuto = false ∧
    live.scState 50 ≠ scNoSpare ∧ live.pwr.latched = [] ∧ ({ live with pwr := { live.pwr with consent := [0] } }).pwr.consent.contains 0 = true := by decide +kernel

theorem met_Clocks2 :
    (later live).lko.stopped = false ∧ (live.putFld (.clkpll 23) Fld.clkpllState 1).visitWaits 23 = false ∧
    ({ State.reset with pwr := { State.reset.pwr with vbus := 480 } }).vinValid = true ∧
    512 < ({ live.otp with fuses := (List.range 513).map (fun i => (i, i + 1)) } : Otp).fuses.length := by decide +kernel

theorem met_Debug2 :
    (portDbg (fun p => { p with step := some (1, 0) }) live).dbgPort false ≠ live.dbgPort false ∧
    dbgEng 127 = some (.lcore 127) ∧ dbgEng 0x80 = some .trust ∧ dbgEng 0x81 = none := by decide +kernel

theorem met_Vn2 :
    (roleIs 1 live).vnRole ≠ 3 ∧ ({ live with tal := { live.tal with next := 0 } }).tal.next.toNat ≤ 0 := by decide +kernel


/-! ### Steps worked out from the spec -/

/-- The next state of a command. -/
def nextOf (x : Host.Outcome State Fault Refusal) : State :=
  match x with
  | .next t => t
  | _ => State.reset
def after (i : Instr) (s : State) : State := nextOf (exec i s)

/-- A write of eight bytes by the host and by the Trust Core's partition. -/
def wr8 (a : PAddr) (v : W64) : Instr := .registerWrite ⟨0, false, 0x100, none⟩ a .d v
def tc8 (a : PAddr) (v : W64) : Instr := .registerWrite host a .d v

/-! #### 00, 01, 09, 10: keyed writes, addresses, the decode of main memory, planes -/

/-- 00 "a keyed write": the word, and the two writes that are rejected. -/
theorem test_keyed_write : keyedPair 5 = 0xFFFFFFFA00000005 ∧ pairOk 5 = false ∧
    (after (tc8 0x0A00000200 0xFFFFFFFE00000001) live).rd (.mcscrub 0) = 0xFFFFFFFE00000001 ∧
    (after (tc8 0x0A00000200 1) live).rd (.mcscrub 0) = live.rd (.mcscrub 0) ∧
    (after (.registerWrite host 0x0A00000200 .w 1) live).rd (.mcscrub 0) = live.rd (.mcscrub 0) := by decide +kernel

/-- 01 "locating a port register block", 07, 16 and 19: register addresses. -/
theorem test_addresses : (Reg.portid 13 5).addr = 0x080D250000 ∧ (Reg.skaddr 5).addr = 0x09005B1000 ∧ (Reg.lkorec 20).addr = 0x0C000510A0 ∧
    (Reg.calu 0xA5).addr = 0x0C00081528 ∧ (Reg.cale 0xA5).addr = 0x0C00083528 ∧ (Reg.dbbits 2 7).addr = 0x09002A00E0 ∧ (Reg.dbcfg 2 7).addr = 0x09002A00E8 ∧
    (Reg.mbcfg 40).addr = 0x0C00102800 ∧ (Reg.rtupdcmd 3).addr = 0x0803190140 := by decide +kernel

/-- 09 "a die fails under a contactor partition": channel, die, row and twin of a line. -/
theorem test_memory_decode : homeOf (0x23456780 / 64) = 6 ∧ dieOf (0x23456780 / 64) = 12 ∧ rowOf (0x23456780 / 64) = 0x11A2B3 ∧
    twinOf (0x23456780 / 64) = 0x63456780 / 64 ∧ dieOf (0x63456780 / 64) = 13 ∧ lineOfRow 12 0x11A2B3 = 0x23456780 / 64 := by decide +kernel

/-- 09, the same example: the registers after the failure of die 12 with the twin region of entry 0. -/
def dieDown : State :=
  after (.dieFailure 12) (spared 49 8 (((live.putFlag (.mctwin 6 0) Fld.mctwinEn true).putFld (.mctwin 6 0) Fld.mctwinBase 0x100).putFld (.mctwin 6 0) Fld.mctwinSize 32))

theorem test_die_failure : dieDown.dieState 12 = 2 ∧ dieDown.flag (.mcstat 6) Fld.mcstatSingle = true ∧ dieDown.steer 1 Fld.spsteerState = 2 ∧
    dieDown.steer 1 Fld.spsteerDie = 4 := by decide +kernel

/-- 10 "a cabin-light slot plan": routers and plane. -/
theorem test_plane_of_pair : clusterRouter 3 = 14 ∧ homeRouter 3 = 24 ∧ planeOf 14 24 = false := by decide

/-! #### 02, 03, 04, 06: image, encodings, instructions, interrupts -/

/-- 02 Table 8: the delta's header passes its checks (its CRC as computed) at counter 17 and fails at 18. -/
def exampleHead : List Byte :=
  let b := [0x56, 0x5A, 0x4C, 0x59, 0, 2, 0x40, 0] ++ toBytes 4 0x2560 ++ [1, 0, 0, 0] ++ toBytes 8 0xFFFFFFFD00000002 ++ toBytes 8 0xFFFFFFEE00000011
    ++ toBytes 8 0xFAED4F000512B0FF ++ toBytes 4 0x42 ++ toBytes 4 0x41 ++ toBytes 4 0x40 ++ toBytes 4 0x80
  b ++ toBytes 4 (crc32c b) ++ [0, 0, 0, 0]

theorem test_delta_header : exampleHead.length = 64 ∧ headerCode exampleHead true 17 0 = 0 ∧ headerCode exampleHead true 18 0 = 0x07 ∧
    headerCode exampleHead false 17 0 = 0x18 ∧ (imageOf exampleHead).id = 0x42 ∧ (imageOf exampleHead).base = 0x41 := by decide +kernel

/-- 03 Tables 13-16 and the TOO_LONG case: legal byte strings, and the code of the illegal one. -/
theorem test_encodings : illegalBytes (.lcore 0) (live.lc 0) [0x10, 0x34, 0x3A] = none ∧ illegalBytes (.lcore 0) (live.lc 0) [0xE6, 0x55, 0x45, 0x6C, 0x40] = none ∧
    illegalBytes (.lcore 0) (live.lc 0) [0xE7, 0xE6, 0x0F, 0x85, 0x51, 0x00, 0xFE, 0x18, 0xFC] = none ∧
    illegalBytes (.lcore 0) (live.lc 0) [0xBD, 0x40, 0x1F, 0, 0, 3, 0x40] = none ∧ illegalBytes (.lcore 0) (live.lc 0) [0x06] = none ∧
    illegalBytes (.lcore 0) (live.lc 0) [0xE0, 0xE6, 0xE7, 0x0F, 0x86, 0x53] = some 7 := by decide +kernel

/-- 03 Tables 13-16, and 04 "an interrupted repeat": the instructions that the bytes spell. -/
theorem test_decode : fotinDecode (.lcore 0) (live.lc 0) [0x10, 0x34, 0x3A] = some (.add ⟨.lcore 0, 3, false⟩ false 3 20 7) ∧
    fotinDecode (.lcore 0) (live.lc 0) [0xE6, 0x55, 0x45, 0x6C, 0x40] = some (.ldD ⟨.lcore 0, 5, false⟩ ⟨.scaled 5 22 3 0x40, false, false, false, false⟩ 20) ∧
    fotinDecode (.lcore 0) (live.lc 0) [0xE7, 0xE6, 0x0F, 0x85, 0x51, 0x00, 0xFE, 0x18, 0xFC] =
      some (.bnei ⟨.lcore 0, 9, false⟩ true 21 (BitVec.ofInt 64 (-1000)) (BitVec.ofInt 64 (-0x200))) ∧
    fotinDecode (.lcore 0) (live.lc 0) [0xBD, 0x40, 0x1F, 0, 0, 3, 0x40] = some (.callm ⟨.lcore 0, 7, false⟩ 0x1F40 0x4003) ∧
    fotinDecode (.lcore 0) (live.lc 0) [0xE1, 0x7C, 0x04, 0x01] = some (.stD ⟨.lcore 0, 4, false⟩ ⟨.postInc 4, true, false, false, false⟩ 0) := by decide +kernel

/-- A core with two register values, and its registers when everything in flight has landed. -/
def regs (a b : W64) : State := coreIs (fun c => { c with g := KV.set 0 (KV.set 0 c.g 1 a) 2 b })
def landed (i : Instr) (s : State) (r : Nat) : W64 := (((after i s).core (.lcore 0)).landAll 100).greg r

/-- 04 R85-R88: wrapping, 32-bit forms, shift counts, division by zero and of the most negative value. -/
theorem test_integer : landed (.add onCore false 3 1 2) (regs 0xFFFFFFFFFFFFFFFF 1) 3 = 0 ∧ landed (.add onCore true 3 1 2) (regs 0x7FFFFFFF 1) 3 = 0xFFFFFFFF80000000 ∧
    landed (.shl onCore false 3 1 2) (regs 1 64) 3 = 1 ∧ landed (.sar onCore true 3 1 2) (regs 0x80000000 31) 3 = 0xFFFFFFFFFFFFFFFF ∧
    landed (.mulh onCore 3 1 2) (regs 0xFFFFFFFFFFFFFFFF 2) 3 = 0xFFFFFFFFFFFFFFFF ∧ landed (.div onCore false 3 1 2) (regs 7 0) 3 = 0xFFFFFFFFFFFFFFFF ∧
    landed (.rem onCore false 3 1 2) (regs 7 0) 3 = 7 ∧ landed (.div onCore false 3 1 2) (regs 0x8000000000000000 0xFFFFFFFFFFFFFFFF) 3 = 0x8000000000000000 ∧
    landed (.add onCore false 0 1 2) (regs 1 1) 0 = 0 := by decide +kernel

/-- IEEE 754: 1 + 2, 1 / 3 rounded to even, and -1 compared with 1, in binary64. -/
def fregs (a b : W64) : State := coreIs (fun c => { c with f := KV.set 0 (KV.set 0 c.f 1 a) 2 b })
theorem test_floating_point : (((after (.faddD onCore 3 1 2) (fregs 0x3FF0000000000000 0x4000000000000000)).core (.lcore 0)).landAll 100).freg 3 = 0x4008000000000000 ∧
    (((after (.fdivD onCore 3 1 2) (fregs 0x3FF0000000000000 0x4008000000000000)).core (.lcore 0)).landAll 100).freg 3 = 0x3FD5555555555555 ∧
    landed (.fcmpLt onCore 3 1 2) (fregs 0xBFF0000000000000 0x3FF0000000000000) 3 = 1 := by decide +kernel

/-- 04 "an interrupted repeat": one repetition of REP ST.D g0, [g4]+ moves g4 by 8 and counts g29 down. -/
def repeated : State :=
  after (.stD ⟨.lcore 0, 4, false⟩ ⟨.postInc 4, true, false, false, false⟩ 0) (coreIs (fun c => { c with g := KV.set 0 (KV.set 0 c.g 4 0x0900000100) 29 32 }))

theorem test_repeat : (((repeated.core (.lcore 0)).landAll 100).greg 4, ((repeated.core (.lcore 0)).landAll 100).greg 29, (repeated.core (.lcore 0)).pc) =
    (0x0900000108, 31, 0x0900004000) := by decide +kernel

/-- 06 "timer interrupt during a freeze": the cause word and the vector's offset. -/
def timed : State :=
  { coreIs (fun c => { ((levelIs 0 c).setCreg 0x31 0).setCreg 0x32 0x1401 with privPend := 1 }) with mtime := 5 }

theorem test_timer_entry : ((after (.interruptEntry (.lcore 0)) timed).core (.lcore 0)).creg 0x0A = 0x8000001400000000 ∧
    ((after (.interruptEntry (.lcore 0)) timed).core (.lcore 0)).pc = 0x80 ∧ bitsOf (((after (.interruptEntry (.lcore 0)) timed).core (.lcore 0)).creg 1) 1 0 = 1 ∧
    landed (.iclaim onCore 5) (after (.interruptEntry (.lcore 0)) timed) 5 = 0x8000001400000000 := by decide +kernel

/-! #### 07, 11, 12, 13, 14: Skidder, positions, ports, router, mailboxes -/

/-- 07 "keeping locked coefficients": the LOCK command's word starts the command it names. -/
def locking : State :=
  after (wr8 0x09005B1010 0xF6FFDEFB09002104) ((live.setLc 42 { live.lc 42 with place := some 42 }).wr (.skaddr 5) 0x12340000 |>.wr (.sklen 5) 0x40)

theorem test_skidder_word : KV.get none locking.skid 5 = some ⟨4, .l1d 2, false, 9, 0x12340000 / 64, 64, false⟩ ∧
    locking.flag (.skstat 5) Fld.skstatBusy = true ∧ keyedOk (.skcmd 5) 8 0xFFFFFFFD00000002 = true := by decide +kernel

/-- 11 "a rotation in a window-lift group": JPOS before and during the join. -/
def rotating : State := (live.wr (.jpos 3) 0x143201)
theorem test_rotation : rotating.server 3 0 = 1 ∧ rotating.spareJug 3 = 4 ∧ rotating.sstate 3 = 1 ∧
    (after (.spareJoin 3 0) rotating).rd (.jpos 3) = 0x243201 ∧ (Reg.jpos 3).addr = 0x0803010000 := by decide +kernel

/-- 12 "a CAN FD port for a window lift": the three writes are taken, and the port is under test. -/
theorem test_can_port : (after (wr8 0x0803220108 0x00F1E7C001F3EFC1) (opened 11 live)).rd (.canbt 3 2) = 0x00F1E7C001F3EFC1 ∧
    (after (wr8 0x0803220100 0x400901) (opened 11 live)).rd (.canmode 3 2) = 0x400901 ∧
    ((after (.portEnable host ⟨3, 2⟩) live).port 50).testing = true ∧ (after (.portEnable host ⟨3, 2⟩) live).portEn 50 = true := by decide +kernel

/-- 13 "a protected window-lift entry": the nine words place entry 17, and Table 7's results of counters against the last one. -/
def liftWords : List W64 :=
  [0x6FFBFFFF90040000, 0xFFFFFFFF00000000, 0xFFFFFE5B000001A4, 0xC00000003FFFFFFF, 0x3F5FFFFFC0A00000, 0xCDFFFFFF32000000, 0xB6CDFCEE49320311, 0xFFFFFBFF00000400]
def lifted : State :=
  nextOf (Sys2Proof.Machine.execRouterEntryWrite host 3 17 ((List.range 8).foldl (fun s k => s.wr (.rtupdw 3 k) (liftWords.getD k 0)) live))

theorem test_router_entry : lifted.fld (.rtstat 3) Fld.rtstatUcode = 0 ∧ lifted.rtEntries 3 false = [17] ∧ lifted.rtf 3 false 17 5 31 23 = 100 ∧
    lifted.rtf 3 false 17 6 15 0 = 0x0311 ∧ keyedOk (.rtupdcmd 3) 8 0xFFEEFFFE00110001 = true := by decide +kernel

def liftFrame (n : Nat) : Frame := ⟨50, 2, 0x1A4, 0, 0, 0, [BitVec.ofNat 8 (crcP8 [0x11, 0x03, BitVec.ofNat 8 n]), BitVec.ofNat 8 n]⟩
def counted (last : Nat) : State := (lifted.putFld (.rteseq 3 17) Fld.rteseqEstate 1).putFld (.rteseq 3 17) Fld.rteseqLastcnt last

theorem test_end_to_end : lifted.rtMatches 3 false 17 (liftFrame 3) = true ∧ lifted.e2eResult 3 false 17 (liftFrame 3) = 0 ∧
    (counted 3).e2eResult 3 false 17 (liftFrame 4) = 0 ∧ (counted 4).e2eResult 3 false 17 (liftFrame 6) = 0 ∧ (counted 6).e2eResult 3 false 17 (liftFrame 6) = 2 ∧
    (counted 6).e2eResult 3 false 17 (liftFrame 9) = 3 ∧ (counted 9).e2eResult 3 false 17 (liftFrame 10) = 0 := by decide +kernel

/-- 14 "crossed sends": the words of the mailbox and the doorbell, and the first send. -/
def crossed : State :=
  ((live.wr (.mbcfg 40) 0x7BF7FDF884080207).putFld (.mbbell 40) Fld.mbbellRbit 3).putFld (.mbbell 40) Fld.mbbellSbit 4

theorem test_crossed_sends : crossed.mbSep 40 = 0x207 ∧ crossed.mbRep 40 = 0x408 ∧ crossed.mbEn 40 = true ∧ keyedOk (.mbcfg 40) 8 0x7BF7FDF884080207 = true ∧
    (after (.mbsend ⟨7, false, 0, none⟩ ⟨40, []⟩) crossed).mbFull 40 = true ∧ (after (.mbsend ⟨7, false, 0, none⟩ ⟨40, []⟩) crossed).fld (.mbstat 40) Fld.mbstatMseq = 1 ∧
    (after (.mbsend ⟨7, false, 0, none⟩ ⟨40, []⟩) crossed).bitIn (.dbbits 4 8) Fld.dbbitsBits 3 = true := by decide +kernel

/-! #### 15 to 22 -/

/-- 15 Tables 8 and 9: the words of the memory unit of home 1 (line 0x21000040) and the decisions after the switch. -/
def contactor : State :=
  (((live.wr (.fwrlo 1 5) 0x7FFDFFFF80020000).wr (.fwrhi 1 5) 0xFFFDC00000023FFF).wr (.fwratt 1 5) 0xFFFFF9F30000060C).wr (.fwclo 1 9) 0xFFFFEFFF00001000

theorem test_firebreak : homeOf (0x21000040 / 64) = 1 ∧ contactor.copyAllows 9 false true false (0x21000040 / 64) = true ∧
    contactor.copyAllows 9 false false true (0x21000040 / 64) = true ∧ contactor.copyAllows 9 false true false (0x24000040 / 64) = false ∧
    contactor.copyAllows 0 false true false (0x21000040 / 64) = false ∧ contactor.copyAllows 255 true true false (0x21000040 / 64) = true ∧
    keyedOk (.fwcmd 0) 8 0xFFFFFEFE00000101 = true := by decide +kernel

/-- 16 "a hard fault under a window-lift partition": the vote of C02.5, C02.6 and the spare C02.8. -/
def lift20 : State :=
  spared 2 8 (live.setLc 20 { live.lc 20 with
    run := true
    place := some 20
    lead := 5
    mate := some 6
    pausing := true })

theorem test_triple_vote : (after (.tripleVote 20 (.oneOriginal false)) lift20).fld (.lkorec 20) Fld.lkorecKind = 2 ∧
    ((after (.tripleVote 20 (.oneOriginal false)) lift20).lc 20).mate = some 8 ∧ (after (.tripleVote 20 (.oneOriginal false)) lift20).scState 2 = 6 ∧
    (after (.tripleVote 20 (.oneOriginal false)) lift20).fld (.carscope 2) Fld.carscopeRetired = 0x40 := by decide +kernel

/-- 17 "a dip in the board net": the second sample below 36 V enters the ride-through band. -/
theorem test_board_net_dip : (after (.vbusSample 300 300 300) live).pwr.band = 0 ∧
    bandOf 3000 = 2 := by decide +kernel

/-- 18 "a cluster PLL fails": PLL 6 is retired onto channel B of PLL 7, and a failure of PLL 7 then declares clusters 6 and 7 dead. -/
def locked : State := (live.putFld (.clkpll 6) Fld.clkpllState 2).putFld (.clkpll 7) Fld.clkpllState 2
theorem test_pll_failure : (after (.pllFailure 6) locked).pllState 6 = 5 ∧ (after (.pllFailure 6) locked).flag (.clkpll 6) Fld.clkpllBackup = true ∧
    (after (.pllFailure 7) (after (.pllFailure 6) locked)).lko.dead.contains 7 = true ∧
    (after (.pllFailure 7) (after (.pllFailure 6) locked)).lko.dead.contains 6 = true := by decide +kernel

/-- 19 "a clamped ADC gain": CALE after the write, and the code of a raw 2,048. -/
def gained : State := after (tc8 0x0C00081528 0xFFFFF69F00000960) ((live.wr (.calf 0xA5) (keyedPair 350)).putFld (.fldcfg 20 3) Fld.fldcfgArange 1)
theorem test_clamped_gain : gained.rd (.cale 0xA5) = 0x1092E ∧ gained.adcCode 323 2048 = 2053 := by decide +kernel

/-! #### Steps, codes, checks -/

/-- A step takes the front of the queue and leaves the rest. -/
theorem test_step_takes_front : (match step { live with pending := [.lookoutLockstepMismatch, .beacon] } with
    | .next t => t.pending == [.beacon] && t.lko.stopped
    | _ => false) = true := by decide +kernel

/-- An empty queue: one reference edge of 40 ns. -/
theorem test_idle_step : (match step State.reset with
    | .next t => t.mtime == 40
    | _ => false) = true := by decide +kernel

/-- The check values of CRC-32C and CRC-16/CCITT-FALSE over "123456789" (the catalogue of CRC algorithms), and CRC-8 SAE J1850 (13 Table 3). -/
theorem test_crcs : crc32c [0x31, 0x32, 0x33, 0x34, 0x35, 0x36, 0x37, 0x38, 0x39] = 0xE3069283 ∧
    crcP16 [0x31, 0x32, 0x33, 0x34, 0x35, 0x36, 0x37, 0x38, 0x39] = 0x29B1 ∧ crcP8 [0x31, 0x32, 0x33, 0x34, 0x35, 0x36, 0x37, 0x38, 0x39] = 0x4B := by decide +kernel

/-- The command words the register file takes for power, reset and Firebreak commands, and an operand out of its range. -/
theorem test_command_words : keyedOk (.fwcmd 39) 8 (keyedPair 1) = true ∧ keyedOk (.rstreq 0) 8 (keyedPair (0x3C01)) = true ∧
    keyedOk (.rstreq 0) 8 (keyedPair 0x3D01) = false ∧ keyedOk .lcdctl 8 (keyedPair 1) = true ∧ keyedOk .calcmd 8 (keyedPair 1) = true := by decide +kernel

theorem test_reset_memory : Memory.wf State.reset.st = true := by decide

/-- No core that the staged delta can change is in a run set (the plan itself is Config's, so the cores are all that there are). -/
theorem met_Loader2 : ∀ l ∈ (staged phStaged).changedCores image0.sects, (staged phStaged).inAnyRunSet l = false := by
  intro l h
  have sets : ∀ p < 256, ∀ k < 2, (staged phStaged).rd (.ptcore p k) = 0 := by decide +kernel
  have hl : l < 128 := List.mem_range.1 (List.mem_filter.1 h).1
  refine List.any_eq_false.2 fun p hp => ?_
  rw [State.inRunSet, sets p (List.mem_range.1 hp) (l / 64) (by omega)]
  simp [bitOf]

/-! ### WellFormed -/

def zero : Iss := ⟨.lcore 0, 0, false⟩
def ask8 (n : BitVec 34) : HReq := { ask 0 with line := n }

/-- A term that each check refuses. -/
theorem test_ill_formed : ∀ i ∈ ([.nop zero, .illegalInstruction (.lcore 0) (List.replicate 17 0), .rds (ask8 0x2000000), .upg (ask8 0x2000000), .evc (ask8 0x2000000),
    .iord (ask8 0x2000000), .rdx (ask8 0x2000000), .wbd (ask 0) [] 0, .iowr (ask 0) 0 (List.replicate 63 0) 0, .snps 0 0x2000000, .snpi 0 0x2000000, .snpx 0 0x2000000,
    .data 0 0 ⟨0x2000000, 0⟩, .carouselTestDone 0 ⟨false, [⟨0, 0, 0, 0, 12⟩]⟩, .ack 0 0 0x2000000, .ackevicted 0 0x2000000, .retry 0 0x2000000, .poison 0 0x2000000, .snoopTimeout 0 0x2000000,
    .lookoutDecision 0 0x2000000 ⟨true, true⟩, .forerunnerTimeout 0 0x2000000, .canFrameReceive ⟨0, 0⟩ { can0 with data := List.replicate 2049 0 },
    .canSelectiveWake ⟨0, 0⟩ { can0 with data := List.replicate 2049 0 } true, .linFrameReceive ⟨0, 8⟩ 0 true (List.replicate 9 0) 0,
    .ethernetFrameReceive ⟨8, 0⟩ (List.replicate 13 0) true true true, .pcieTransferEnd ⟨31, 4⟩ 0 (List.replicate 9 0), .read ask0 0 (2 ^ 32),
    .remoteRequest { remote0 0 with data := List.replicate 65 0 }] : List Instr), wellFormed i = false := by decide +kernel

/-- The same bytes too many on the debug ports. -/
theorem test_ill_formed_debug : wellFormed (.auth ask0 (List.replicate 4097 0)) = false ∧ wellFormed (.write ask0 0 (List.replicate 4089 0)) = false ∧
    wellFormed (.imgload ask0 0 0 (List.replicate 4092 0)) = false ∧ wellFormed (.lcadv ask0 1 (List.replicate 4096 0)) = false := by decide +kernel

/-- Addressing forms that no encoding names: g14 as base, g0 or g16 as index, a displacement of 5 bytes. -/
theorem test_ill_formed_form : ∀ f ∈ [AddrForm.baseDisp 14 0, .scaled 5 0 0 0, .scaled 5 16 0 0, .pcDisp 0x100000000, .postInc 0, .postImm 13 0x80000000, .preDec 29],
    wellFormed (.lea onCore f 3) = false ∧ wellFormed (.ldD onCore ⟨f, false, false, false, false⟩ 3) = false := by decide +kernel

/-- The last value that each bound takes. -/
theorem test_well_formed : ∀ i ∈ ([.nop ⟨.lcore 127, 16, true⟩, .rds (ask8 0x1FFFFFF), .wbd (ask 0) (List.replicate 64 0) 0, .carouselTestDone 0 ⟨false, [⟨0, 0, 0, 0, 11⟩]⟩, .snpx 47 0x1FFFFFF,
    .canFrameReceive ⟨7, 7⟩ { can0 with data := List.replicate 2048 0 }, .linFrameReceive ⟨0, 8⟩ 63 true (List.replicate 8 0) 0,
    .ethernetFrameReceive ⟨8, 0⟩ (List.replicate 14 0) true true true, .remoteRequest { remote0 0 with data := List.replicate 64 0 }, 
    .lea onCore (.scaled 31 29 3 0xFFFFFFFF80000000) 3, .lookoutLockstepMismatch] : List Instr),
    wellFormed i = true := by decide +kernel

end Sys2Proof.Tests
end

/-! ### Results in flight (04 R82, R84) -/
namespace Sys2Proof.Machine

/-- The result of a register that stands behind all its others is the one that stays. -/
theorem lastOf_append_cons (fp : Bool) (r : Nat) (l m : List Pend) (p : Pend) (v : W64) (hp : p.isFor fp r = true)
    (hm : ∀ q ∈ m, q.isFor fp r = false) : lastOf fp r (l ++ p :: m) v = p.val := by
  have hcons : ∀ u, lastOf fp r (p :: m) u = lastOf fp r m p.val := fun u => by simp [lastOf, hp]
  rw [lastOf_append, hcons, lastOf_of_none fp r m _ hm]

/-- Of two results of a register that are both due, the one written later in time stays, and on a tie the one put later (04 R84). -/
theorem lastOf_insertPend_two (fp : Bool) (r : Nat) (p q : Pend) (l : List Pend) (t : Nat) (v : W64) (hp : p.isFor fp r = true)
    (hq : q.isFor fp r = true) (hl : ∀ u ∈ l, u.isFor fp r = false) (hpt : p.at_ < t) (hqt : q.at_ < t) :
    lastOf fp r ((insertPend q (insertPend p l)).filter (fun u => u.at_ < t)) v = if q.at_ < p.at_ then p.val else q.val := by
  obtain ⟨a, b, d, rfl, htwo⟩ := insertPend_two p q l
  have hd : ∀ u ∈ d.filter (fun u => decide (u.at_ < t)), u.isFor fp r = false := fun u hu => hl u (by simp [(List.mem_filter.1 hu).1])
  by_cases htime : q.at_ < p.at_
  · rw [htwo, if_neg (by omega), if_pos htime, List.filter_append, List.filter_cons_of_pos (by simpa using hpt)]
    exact lastOf_append_cons fp r _ _ p v hp hd
  · rw [htwo, if_pos (by omega), if_neg htime, List.filter_append, List.filter_cons_of_pos (by simpa using hqt)]
    exact lastOf_append_cons fp r _ _ q v hq hd

/-- A register but g0 that is put stands in flight until the end of cycle t + L - 1 (04 R82). -/
theorem Core.inflight_put {fp : Bool} {r : Nat} (h : fp = true ∨ r ≠ 0) (c : Core) (v : W64) (l : Nat) :
    (c.put fp r v l).inflight = insertPend ⟨fp, r, v, c.cyc + l - 1⟩ c.inflight := by
  have hg0 : ¬ (!fp && r == 0) = true := by simpa [or_iff_not_imp_left] using h
  rw [Core.put, if_neg hg0]

/-- A result in flight has not reached any register. -/
@[simp] theorem Core.reg_put (c : Core) (fp fp' : Bool) (r r' : Nat) (v : W64) (l : Nat) :
    (c.put fp r v l).reg fp' r' = c.reg fp' r' := by
  simp [Core.reg, Core.freg, Core.greg]

/-- Settles O9: the results in flight stand in the order of their times, a tie in the order they were put, and are written in that order. -/
theorem resultsLandInTime : Obligations.ResultsLandInTime := by
  intro c fp r v w l l' t' k hr hl hl' _ hfree
  have hother : ∀ p ∈ c.inflight, p.isFor fp r = false := fun p hp => by simpa [Pend.isFor] using hfree p hp
  have hself : ∀ u t, (⟨fp, r, u, t⟩ : Pend).isFor fp r = true := fun u t => by simp [Pend.isFor]
  constructor
  · have hdue : c.cyc + l - 1 < k ↔ c.cyc + l ≤ k := by omega
    rw [Core.reg_landAll _ _ _ _ hr, Core.inflight_put hr, lastOf_insertPend fp r _ _ _ _ (hself _ _) hother, Core.reg_put]
    simp only [hdue]
  · intro hk hk'
    have htime : t' + l' - 1 < c.cyc + l - 1 ↔ t' + l' < c.cyc + l := by omega
    rw [Core.reg_landAll _ _ _ _ hr, Core.inflight_put hr]
    dsimp only
    rw [Core.inflight_put hr, lastOf_insertPend_two fp r _ _ _ _ _ (hself _ _) (hself _ _) hother (by dsimp only; omega) (by dsimp only; omega)]
    simp only [htime]

end Sys2Proof.Machine

/-! ### Integer instructions (04 R85-R88) -/
namespace Sys2Proof.Machine

/-- The model's division step is the statements' `divided`. -/
theorem intDz_eq_divided (c : Core) (e : Engine) (n : Bool) (v : W64) :
    { c with fpEnd := max c.fpEnd (c.cyc + 19) }.intDz e (zeroDiv n v) = divided c e n v := rfl

/-- Each two-source form is the shared operation `alu2` with its own latency and result. -/
theorem exec_registerForms (s : State) (x : Iss) (n : Bool) (d a b : Fin 32) :
    ∀ p ∈ registerForms x n d a b, exec p.1 s = .next (s.alu2 x true d a b p.2.1 p.2.2) := by
  simp only [registerForms, List.forall_mem_cons]
  exact ⟨rfl, rfl, rfl, rfl, rfl, rfl, rfl, rfl, rfl, rfl, rfl, rfl, List.forall_mem_nil _⟩

/-- Each division form is the shared operation `division` with its own result. -/
theorem exec_divisionForms (s : State) (x : Iss) (n : Bool) (d a b : Fin 32) :
    ∀ p ∈ divisionForms x n d a b, exec p.1 s = .next (s.division x n d a b p.2) := by
  simp only [divisionForms, List.forall_mem_cons]
  exact ⟨rfl, rfl, rfl, rfl, List.forall_mem_nil _⟩

/-- Each immediate form checks its operands and puts its result, due after one cycle. -/
theorem exec_immediateForms (s : State) (x : Iss) (n : Bool) (d a : Fin 32) (i : W64) (sh : Fin 64) :
    ∀ p ∈ immediateForms x n d a i sh, exec p.1 s =
      .next (s.issuePure x .i .all false p.2.1 (fun c => c.put false d.val (p.2.2 (c.greg a.val)) 1)) := by
  simp only [immediateForms, List.forall_mem_cons]
  exact ⟨rfl, rfl, rfl, rfl, rfl, rfl, rfl, rfl, rfl, rfl, List.forall_mem_nil _⟩

/-- Settles O8: every form is one of the shared operations, each of which changes the issuing engine alone. -/
theorem integerInstructionResults : Obligations.IntegerInstructionResults := by
  intro s x n d a b i sh c
  refine ⟨fun h => ⟨?_, fun p hp => ?_, fun p hp => ?_⟩, fun p hp h => ?_⟩
  · exact congrArg _ (State.issuePure_of_canIssue h id)
  · rw [exec_registerForms s x n d a b p hp, State.alu2, State.issuePure_of_canIssue h]
  · rw [exec_divisionForms s x n d a b p hp, State.division, State.issuePure_of_canIssue h, intDz_eq_divided]
  · rw [exec_immediateForms s x n d a i sh p hp, State.issuePure_of_canIssue h]

end Sys2Proof.Machine

/-! ### Branches (04 R108) -/
namespace Sys2Proof.Machine

/-- The part of an engine that a control transfer leaves as it is after issue: the registers, the control registers and the
results in flight. -/
def Core.regFiles (c : Core) : KV W64 × KV W64 × KV W64 × List Pend := (c.g, c.f, c.cr, c.inflight)

section
variable (c : Core)

@[simp] theorem Core.regFiles_goTo (pc : W64) : (c.goTo pc).regFiles = c.regFiles := rfl
@[simp] theorem Core.pc_goTo (pc : W64) : (c.goTo pc).pc = pc := rfl

@[simp] theorem Core.regFiles_count (on : Bool) (code n : Nat) : (c.count on code n).regFiles = c.regFiles := by
  cases on <;> rfl
@[simp] theorem Core.pc_count (on : Bool) (code n : Nat) : (c.count on code n).pc = c.pc := by
  cases on <;> rfl

@[simp] theorem Core.regFiles_cost (on wasted : Bool) (n : Nat) : (c.cost on wasted n).regFiles = c.regFiles := by
  cases on <;> cases wasted <;> rfl
@[simp] theorem Core.pc_cost (on wasted : Bool) (n : Nat) : (c.cost on wasted n).pc = c.pc := by
  cases on <;> cases wasted <;> rfl

@[simp] theorem Core.regFiles_trainPred (a : W64) (hint taken : Bool) : (c.trainPred a hint taken).regFiles = c.regFiles := by
  cases hint <;> rfl
@[simp] theorem Core.pc_trainPred (a : W64) (hint taken : Bool) : (c.trainPred a hint taken).pc = c.pc := by
  cases hint <;> rfl

end

/-- Writing the results due does not move the pc. -/
@[simp] theorem Core.pc_reading (c : Core) (x : Iss) : (c.reading x).pc = c.pc := by
  unfold Core.reading
  split
  · rfl
  · rw [Core.landAll_eq]

/-- An instruction that issues moves the pc by its length. -/
theorem State.pc_entered (s : State) (x : Iss) (k : Cls) :
    (s.entered x k).pc = (s.core x.eng).pc + BitVec.ofNat 64 x.len.val := by
  rw [← Core.pc_reading (s.core x.eng) x]; rfl

/-! #### Traces write no engine, no memory and no cache line (20 R509, R510) -/

/-- Two states agree but for the module's registers and the debug ports. -/
def OnlyTraces (s t : State) : Prop := ∃ regs dbg, t = { s with regs := regs, dbg := dbg }

theorem OnlyTraces.refl (s : State) : OnlyTraces s s := ⟨s.regs, s.dbg, rfl⟩

theorem OnlyTraces.trans {s t u : State} (hst : OnlyTraces s t) (htu : OnlyTraces t u) : OnlyTraces s u := by
  obtain ⟨_, _, rfl⟩ := hst
  obtain ⟨regs, dbg, rfl⟩ := htu
  exact ⟨regs, dbg, rfl⟩

/-- A record goes to its channel's buffer; one that is dropped is counted in a register. -/
theorem State.onlyTraces_traceOn (s : State) (ch va kind lvl cause : Nat) : OnlyTraces s (s.traceOn ch va kind lvl cause) := by
  unfold State.traceOn
  extract_lets b r used es put
  split
  · exact ⟨_, _, rfl⟩
  · exact ⟨_, _, rfl⟩

theorem State.onlyTraces_traced (s : State) (e : Engine) (kind cause : Nat) : OnlyTraces s (s.traced e kind cause) := by
  cases e with
  | lcore l =>
    refine List.foldlRecOn _ _ (OnlyTraces.refl s) fun t ht ch _ => ?_
    split
    · exact ht.trans (State.onlyTraces_traceOn ..)
    · exact ht
  | trust => exact OnlyTraces.refl s
  | juggler g k => exact OnlyTraces.refl s

/-! #### Control transfers -/

/-- Control has passed once the issuing engine has its pc at the destination and the register files of issue. -/
theorem controlPassed_setCore {s : State} {x : Iss} {d : Core} {dest : W64} (hpc : d.pc = dest)
    (hreg : d.regFiles = (s.entered x .b).regFiles) : ControlPassed s x dest (s.setCore x.eng d) := by
  simp only [Core.regFiles, Prod.mk.injEq] at hreg
  obtain ⟨hg, hf, hcr, hinf⟩ := hreg
  simp only [ControlPassed, State.core_setCore_self]
  exact ⟨hpc, hg, hf, hcr, hinf, fun e he => State.core_setCore_of_ne s d he, rfl, rfl⟩

/-- A trace record of a transfer does not disturb it. -/
theorem ControlPassed.traced {s t : State} {x : Iss} {dest : W64} (h : ControlPassed s x dest t) (e : Engine) (kind cause : Nat) :
    ControlPassed s x dest (t.traced e kind cause) := by
  obtain ⟨regs, dbg, heq⟩ := State.onlyTraces_traced t e kind cause
  rw [heq]
  exact h

/-- A conditional branch passes control to its target when its relation holds, and to the next instruction otherwise. -/
theorem State.controlPassed_branch {z : State} {x : Iss} (h : canIssue z x .b .all false none = true) (hint : Bool) (disp : W64)
    (rel : Core → Bool) :
    ControlPassed (z.reading x) x
      (if rel ((z.reading x).core x.eng) then ((z.reading x).core x.eng).pc + disp
       else ((z.reading x).core x.eng).pc + BitVec.ofNat 64 x.len.val) (z.branch x hint disp rel) := by
  rw [State.branch, State.issue_of_canIssue h]
  generalize z.reading x = s
  dsimp only
  cases rel (s.core x.eng) with
  | true =>
    simp only [if_true]
    split
    · exact controlPassed_setCore (by simp) (by simp)
    · refine (controlPassed_setCore ?_ ?_).traced _ _ _ <;> split <;> simp
  | false =>
    simp only [Bool.false_eq_true, if_false, ← State.pc_entered s x .b]
    split
    · exact controlPassed_setCore rfl rfl
    · refine controlPassed_setCore ?_ ?_ <;> split <;> simp

/-- Each conditional branch is the shared operation `branch` with its own relation. -/
theorem exec_branchForms (s : State) (x : Iss) (h : Bool) (a b : Fin 32) (i disp : W64) :
    ∀ p ∈ branchForms x h a b i disp, exec p.1 s = .next (s.branch x h disp p.2) := by
  simp only [branchForms, List.forall_mem_cons]
  exact ⟨rfl, rfl, rfl, rfl, rfl, rfl, rfl, rfl, rfl, rfl, List.forall_mem_nil _⟩

/-- J passes control to its target; its cost in a Juggler stays outside the frame. -/
theorem controlPassed_j {z : State} {x : Iss} (h : canIssue z x .b .all false none = true) (disp : W64) :
    Answers (.j x disp) z (ControlPassed (z.reading x) x (((z.reading x).core x.eng).pc + disp)) := by
  refine ⟨_, rfl, ?_⟩
  rw [State.issue_of_canIssue h]
  refine (controlPassed_setCore ?_ ?_).traced _ _ _ <;> split <;> simp

/-- JR passes control to the address in its source as the instruction issues, a result due before it included. -/
theorem controlPassed_jr {z : State} {x : Iss} (h : canIssue z x .b .all false none = true) (a : Fin 32) :
    Answers (.jr x a) z (ControlPassed (z.reading x) x (((z.reading x).core x.eng).greg a.val)) := by
  refine ⟨_, rfl, ?_⟩
  rw [State.issue_of_canIssue h]
  refine (controlPassed_setCore ?_ ?_).traced _ _ _ <;> split <;> simp

/-- Settles O12: every branch is one shared operation, and what it does beside the pc (cost, predictor, trace) is outside the frame. -/
theorem branchesPassControl : Obligations.BranchesPassControl := by
  intro z x hint a b i disp h s c
  refine ⟨fun p hp => ?_, controlPassed_j h disp, controlPassed_jr h a⟩
  exact ⟨_, exec_branchForms z x hint a b i disp p hp, State.controlPassed_branch h hint disp p.2⟩

end Sys2Proof.Machine
